-- ==== Sys2Proof/Word.lean ====
section
/-! DEFINITION. The words of the SM6408 and their plainest arithmetic (00_scope.md R4 to R6, 02_time.md R25). -/

namespace Sys2Proof

abbrev Byte := BitVec 8
abbrev W16 := BitVec 16
abbrev W32 := BitVec 32
abbrev W64 := BitVec 64

/-- An event time: 48 bits of fines, DT bits 45:0 with two fine bits appended (R25). -/
abbrev EvTime := BitVec 48

/-- An instant: DT (64 bits of ticks) with two fine bits appended. Its low 48 bits are the event time. -/
abbrev Instant := BitVec 66

/-- A tide count (02_time.md, R30). -/
abbrev TideCnt := BitVec 48

abbrev UnitId := Fin 68
abbrev Lch := Fin 64
abbrev Tid := Fin 64
abbrev BasinId := Fin 64
abbrev HarnessId := Fin 16
abbrev MailboxId := Fin 8
abbrev EngineId := Fin 8
abbrev ProgId := Fin 16

/-- The event time of an instant (R25). -/
def Instant.ev (t : Instant) : EvTime := t.truncate 48

/-- The DT of an instant, in ticks. -/
def Instant.dt (t : Instant) : W64 := (t >>> 2).truncate 64

end Sys2Proof
end

