-- ==== Sys2Proof/Syntax.lean ====
section
/-! DEFINITION. The commands of the block: one constructor per row of spec/opcode_table.json. The table gives the
rows no operands; the operands here are what the row's rule needs from outside (log entry 3). A command that stands
for an event in time carries the instant at which it happens (log entry 4), and one that falls on a tide edge also
carries the tide count of that edge. -/

namespace Sys2Proof

/-- Operand fields of an R-format instruction (07_microcode.md R184). -/
structure ROps where
  rd : BitVec 4
  ra : BitVec 4
  rb : BitVec 4
  zero : BitVec 8
deriving DecidableEq, Repr

/-- Operand fields of an I-format instruction (R184). -/
structure IOps where
  rd : BitVec 4
  ra : BitVec 4
  imm : BitVec 18
deriving DecidableEq, Repr

/-- Operand fields of the B format (R184). -/
structure BOps where
  cond : BitVec 4
  imm : BitVec 22
deriving DecidableEq, Repr

/-- Operand fields of the J format (R184). -/
structure JOps where
  rd : BitVec 4
  imm : BitVec 22
deriving DecidableEq, Repr

/-- Operand fields of the S format (R184). -/
structure SOps where
  rd : BitVec 4
  ra : BitVec 4
  rb : BitVec 4
  sub : BitVec 6
  x : Bool
  zero : Bool
  k : BitVec 6
deriving DecidableEq, Repr

/-- Mailbox and TAG of a request (14_farrier_commands.md R305). -/
structure Req where
  mb : MailboxId
  tag : Byte
deriving DecidableEq, Repr

/-- What the poster of a basin record gives (05_ostler.md R130). -/
structure Rec where
  time : EvTime
  kind : Byte
  src : Byte
  flags : Byte
  aux : W16
  data : W32
deriving DecidableEq, Repr

/-- What the supply and temperature sampling of R383 reads: die temperatures in 0.1 °C (signed), and whether each
supply condition has held for its filter time. -/
structure MonIn where
  d0 : BitVec 12
  d1 : BitVec 12
  vbatMv : W16
  vcoreMv : W16
  vbakMv : W16
  vbatHigh : Bool
  vbatLow : Bool
  vcoreBad : Bool
  vbakLow : Bool
  vbatBelow42 : Bool
deriving DecidableEq, Repr

/-- A converter block of PRB_SCHED (R330), as its 16 payload bytes give it. -/
structure ConvBlk where
  nslot : Byte
  avg : Byte
  chg : W16
  refSel : Byte
  reserved : BitVec 24
  prbs : BitVec 64
deriving DecidableEq, Repr

/-- One command (one row of the table). -/
inductive Instr where
  -- timebase, tide and power events (02_time.md, 16_reset_power.md)
  | spreadTakesEffect (t : Instant)
  | tideErrorMeasurement (t : Instant) (trc : Bool) (dtTicks : W64)
  | tidePairRefresh (t : Instant) (tide : TideCnt)
  | tideCrystalStop (t : Instant) (tide : TideCnt)
  | tideReturnToCrystal (t : Instant) (tide : TideCnt)
  | trcFail (t : Instant)
  | tideAlarm (t : Instant) (tide : TideCnt)
  | talarmWrite (hi : Bool) (v : W32)
  | xtalFail (t : Instant)
  | pllRelocked (t : Instant) (tide : TideCnt)
  | disciplineWindow (t : Instant) (m : W32)
  | xtalRestore (t : Instant)
  | pllUnlock (t : Instant)
  | pllUnlockTimeout (t : Instant)
  | epochZero
  | sleepEntryBegin (csnHigh : Bool)
  | sleepTideLatch (t : Instant) (tide : TideCnt)
  | wakeLatchSet (which : Fin 11) (rise : Bool)
  | wakePllLock
  | wakeReseed (tide : TideCnt)
  | domainClocksRelease (t : Instant)
  -- register accesses (00_scope.md R8 to R13, 04_channels.md R93)
  | loWordLatchRead (addr : W32)
  | capHiRead (u : UnitId) (fall : Bool)
  | pwRead (u : UnitId)
  | rcFieldRead (addr : W32) (inc : BitVec 4) (max : W16)
  | ratioRead (p : Fin 16)
  | registerWrite (addr : W32) (v : W32) (hw : W32)
  | eventDispatch (t : Instant) (x : Fin 68)
  | linkWriteFrame
  | linkFrameCrcFail (t : Instant) (own : Bool)
  | faultFrame (t : Instant) (h : HarnessId) (code : Byte) (member : Byte) (sense : BitVec 10)
  -- channel units (04_channels.md)
  | ctrlWrite (u : UnitId) (v : W32)
  | channelEnable (t : Instant) (u : UnitId) (v : W32)
  | channelDisable (u : UnitId) (v : W32)
  | cmpLoWrite (u : UnitId) (which : Fin 4) (v : W32)
  | cmpHiWrite (u : UnitId) (b : Bool) (v : W16)
  | compareEffective (t : Instant) (u : UnitId) (b : Bool)
  | compareMatch (t : Instant) (u : UnitId) (b : Bool)
  | localMatch (t : Instant) (u : UnitId) (b : Bool) (down : Bool)
  | periodBoundary (t : Instant) (u : UnitId)
  | shadowWrite (u : UnitId) (which : Fin 3) (v : W32)
  | disarmA (u : UnitId)
  | disarmB (u : UnitId)
  | forceHigh (u : UnitId)
  | forceLow (u : UnitId)
  | forceSafe (u : UnitId)
  | inputEdge (t : Instant) (u : UnitId) (level : Bool) (z : Bool)
  | filterAccept (t : Instant) (u : UnitId)
  -- engines, pages, basins (05_ostler.md)
  | engineDoze (e : EngineId)
  | budgetOverrun (tid : Tid) (cycles : W32)
  | pageFillComplete (p : ProgId) (page : BitVec 12) (words : List W32)
  | prefetchComplete (p : ProgId) (page : BitVec 12) (words : List W32)
  | basinPost (b : BasinId) (r : Rec)
  | basinAgeExpiry (t : Instant) (b : BasinId)
  | rdCntWrite (b : BasinId) (v : W32)
  | threadTimerMatch (t : Instant) (tid : Tid)
  | engineFault (t : Instant) (e : EngineId) (pc : W32)
  | spillwayCommit (t : Instant)
  | spillwayExpiry (t : Instant) (i : Fin 256)
  -- groom engine instructions (07_microcode.md R185): thread `tid` issues the instruction
  | add (tid : Tid) (o : ROps)
  | sub (tid : Tid) (o : ROps)
  | and (tid : Tid) (o : ROps)
  | or (tid : Tid) (o : ROps)
  | xor (tid : Tid) (o : ROps)
  | shl (tid : Tid) (o : ROps)
  | shr (tid : Tid) (o : ROps)
  | sar (tid : Tid) (o : ROps)
  | min (tid : Tid) (o : ROps)
  | max (tid : Tid) (o : ROps)
  | cmp (tid : Tid) (o : ROps)
  | tadd (tid : Tid) (o : ROps)
  | tsub (tid : Tid) (o : ROps)
  | mul (tid : Tid) (o : ROps)
  | divu (tid : Tid) (o : ROps)
  | remu (tid : Tid) (o : ROps)
  | addi (tid : Tid) (o : IOps)
  | andi (tid : Tid) (o : IOps)
  | ori (tid : Tid) (o : IOps)
  | xori (tid : Tid) (o : IOps)
  | shli (tid : Tid) (o : IOps)
  | shri (tid : Tid) (o : IOps)
  | sari (tid : Tid) (o : IOps)
  | cmpi (tid : Tid) (o : IOps)
  | movi (tid : Tid) (o : IOps)
  | ldw (tid : Tid) (o : IOps)
  | ldd (tid : Tid) (o : IOps)
  | stw (tid : Tid) (o : IOps)
  | std (tid : Tid) (o : IOps)
  | fadd (tid : Tid) (o : ROps)
  | swap (tid : Tid) (o : ROps)
  | bcond (tid : Tid) (o : BOps)
  | call (tid : Tid) (o : JOps)
  | jr (tid : Tid) (o : ROps)
  | wait (tid : Tid) (o : SOps)
  | lsn (tid : Tid) (o : SOps)
  | ulsn (tid : Tid) (o : SOps)
  | timer (tid : Tid) (o : SOps)
  | timerx (tid : Tid) (o : SOps)
  | now (tid : Tid) (o : SOps)
  | sig (tid : Tid) (o : SOps)
  | dbf (tid : Tid) (o : SOps)
  | attn (tid : Tid) (o : SOps)
  | mfs (tid : Tid) (o : SOps)
  | trap (tid : Tid) (o : SOps)
  | carm (tid : Tid) (o : SOps)
  | cshd (tid : Tid) (o : SOps)
  | cdis (tid : Tid) (o : SOps)
  | cfrc (tid : Tid) (o : SOps)
  | clock (tid : Tid) (o : SOps)
  | ccap (tid : Tid) (o : SOps)
  | hact (tid : Tid) (o : SOps)
  | bpost (tid : Tid) (o : SOps)
  | bread (tid : Tid) (o : SOps)
  | back (tid : Tid) (o : SOps)
  | spw (tid : Tid) (o : SOps)
  | spc (tid : Tid) (o : SOps)
  | spx (tid : Tid) (o : SOps)
  | aconv (tid : Tid) (o : SOps)
  | tper (tid : Tid) (o : SOps)
  | tlast (tid : Tid) (o : SOps)
  -- harness actions and the power stage (08_power_harnesses.md)
  | harnessCommit (h : HarnessId)
  | harnessSafe (h : HarnessId)
  | harnessResume (h : HarnessId)
  | harnessPhase (h : HarnessId) (phases : BitVec 9)
  | harnessLevels (h : HarnessId) (levels : BitVec 28)
  | timedActionApply (t : Instant) (h : HarnessId)
  | peakEnd (t : Instant) (h : HarnessId) (m : Fin 4) (sense : Byte)
  | peakTimeout (t : Instant) (h : HarnessId) (m : Fin 4) (sense : Byte)
  | holdSwitchOff (t : Instant) (h : HarnessId) (m : Fin 4) (sense : Byte)
  | holdSwitchOn (t : Instant) (h : HarnessId) (m : Fin 4) (sense : Byte)
  | regulationHandover (t : Instant) (h : HarnessId)
  | deferCancel (t : Instant) (h : HarnessId) (m : Fin 4)
  | bankDeferReport (h : HarnessId) (m : Fin 4) (start : EvTime) (cycles : BitVec 24)
  | deadtimeEnd (t : Instant) (h : HarnessId) (phase : Fin 3)
  | powerFaultCut (t : Instant) (h : HarnessId) (code : Byte) (member : Byte) (sense : BitVec 10) (mv : W16)
  | linkSilence
  | chargePumpReady (t : Instant)
  | chargePumpTimeout (t : Instant) (mv : W32)
  | cpUndervoltage (t : Instant)
  -- motors and axes (09_motion.md)
  | catchWindowEnd (t : Instant) (h : HarnessId)
  | alignEnd (t : Instant) (h : HarnessId)
  | noSyncTimeout (t : Instant) (h : HarnessId)
  | commutationBlankingEnd (t : Instant) (h : HarnessId)
  | brakePeek (t : Instant) (h : HarnessId)
  | brakeTimeout (t : Instant) (h : HarnessId)
  | axisStepCounted (t : Instant) (h : HarnessId)
  -- gait trackers (10_gait.md)
  | gaitEdge (n : Fin 2)
  | gaitDeadline (t : Instant) (n : Fin 2)
  | gaitStall (t : Instant) (n : Fin 2)
  -- probes and the record (11_probes.md, 12_sealed_record.md)
  | probeStart (c : Fin 2)
  | chargeDone (t : Instant) (c : Fin 2)
  | dischargeTrip (t : Instant) (c : Fin 2)
  | dischargeTimeout (t : Instant) (c : Fin 2)
  | probeSlotComplete (p : Fin 16)
  | measIntervalBoundary (t : Instant)
  | decommissionErase
  -- host link (13_host_link.md): the bytes on SDI; `bad` = CSN cut a byte, or the host FIFO overran
  | statusFrame (sdi : List Byte) (bad : Bool)
  | statusPeek (sdi : List Byte)
  | readFrame (sdi : List Byte) (bad : Bool)
  | writeFrame (sdi : List Byte) (bad : Bool)
  | writeApply
  | claimFrame (sdi : List Byte) (bad : Bool)
  | completeFrame (sdi : List Byte) (bad : Bool)
  | doorbellFrame (sdi : List Byte) (bad : Bool)
  | replyRelease (mask : Byte)
  | farrierTakeRequest
  | hostWatchdogExpiry (t : Instant)
  | hwdToWrite (v : W32)
  | hostLostClear
  | muster (t : Instant)
  -- requests carried out by the Farrier (14_farrier_commands.md)
  | nop (q : Req)
  | identity (q : Req)
  | state (q : Req)
  | sleep (q : Req) (st : Byte) (flags : Byte) (mask : W16) (park : W32)
  | reset (q : Req) (word : W16)
  | resetReplyTimeout (t : Instant)
  | causeClear (q : Req) (bits : Byte)
  | progMsg (q : Req) (max : Byte)
  | timeGet (q : Req)
  | spread (q : Req) (setting : Byte)
  | anchor (q : Req) (secs : W32) (ms : W16) (source : Byte) (reserved : Byte) (unc : W16)
  | drift (q : Req) (source : Byte) (reserved : BitVec 24) (ppm : W32)
  | newEpoch (q : Req) (word : W16)
  | chOpen (q : Req) (lch : Byte) (reserved : BitVec 24) (ctrl : W32) (act : W32) (prd : W32) (cnt : W32)
  | chClose (q : Req) (lch : Byte)
  | chCfg (q : Req) (lch : Byte) (reserved : BitVec 24) (ctrl : W32) (act : W32)
  | chWrite (q : Req) (lch : Byte) (reg : Byte) (flags : Byte) (reserved : Byte) (value : EvTime)
  | chCtl (q : Req) (lch : Byte) (op : Byte)
  | chRead (q : Req) (lch : Byte) (flags : Byte)
  | tioSet (q : Req) (pin : Byte) (outSel : Byte) (flags : Byte)
  | hOpen (q : Req) (h : Byte) (kind : Byte) (hsd : Byte) (reserved : Byte) (mch : W32) (grp : W64) (mls : W16)
  | hClose (q : Req) (h : Byte)
  | hCfg (q : Req) (h : Byte) (sec : Byte) (reserved : W16) (w0 : W32) (w1 : W32) (w2 : W32)
  | hAct (q : Req) (h : Byte) (reserved : BitVec 24) (word : W32)
  | hStatus (q : Req) (h : Byte)
  | hClear (q : Req) (h : Byte) (reserved : BitVec 24) (mask : W32)
  | hRide (q : Req) (h : Byte) (v : Byte)
  | progUpload (q : Req) (off : W32) (data : List Byte)
  | progOpen (q : Req) (source : Byte) (res1 : BitVec 24) (off : W32) (chMask : W64) (hMask : W16) (res2 : W16) (bMask : W64)
  | progClose (q : Req) (p : Byte)
  | progDoorbell (q : Req) (p : Byte) (idx : Byte) (reserved : W16) (word : W32)
  | threadInfo (q : Req) (tid : Byte)
  | headroom (q : Req) (v : W16)
  | sdWrite (q : Req) (p : Byte) (reserved : Byte) (off : W16) (data : List Byte)
  | sdRead (q : Req) (p : Byte) (reserved : Byte) (off : W16) (len : Byte)
  | gtOpen (q : Req) (n : Byte) (reserved : BitVec 24) (words : Vector W32 11)
  | gtTune (q : Req) (n : Byte) (flags : Byte) (missMax : Byte) (reserved : Byte) (noise : W16) (tol : W16)
  | gtClose (q : Req) (n : Byte)
  | gtStatus (q : Req) (n : Byte)
  | motOpen (q : Req) (h : Byte) (p : Byte)
  | motParam (q : Req) (h : Byte) (id : Byte) (reserved : W16) (v : W32)
  | motStart (q : Req) (h : Byte)
  | motStop (q : Req) (h : Byte) (mode : Byte)
  | axisMove (q : Req) (h : Byte) (reserved : BitVec 24) (target : W32)
  | axisHome (q : Req) (h : Byte) (reserved : BitVec 24) (pos : W32)
  | motStatus (q : Req) (h : Byte)
  | prbSched (q : Req) (measInt : W32) (c0 : ConvBlk) (c1 : ConvBlk) (topen : W16) (tshort : W16)
  | prbCoef (q : Req) (p : Byte) (reserved : BitVec 24) (a : W64) (b : W64) (c3 : W64) (off : W32)
  | prbRead (q : Req) (p : Byte)
  | prbStop (q : Req)
  | recRead (q : Req) (flags : Byte) (count : Byte) (epoch : W16) (seq : W32)
  | recAck (q : Req) (epoch : W16) (reserved : W16) (seq : W32)
  | recEvent (q : Req) (kind : Byte) (source : Byte) (flags : W16) (value : W32)
  | recProvision (q : Req) (key : List Byte)
  | recDecommission (q : Req) (word : W16)
  | recStatus (q : Req)
  | bOpen (q : Req) (b : Byte) (floor : Byte) (ceil : Byte) (policy : Byte) (thresh : W16) (age : Byte) (reserved : Byte)
  | bClose (q : Req) (b : Byte)
  | bSet (q : Req) (b : Byte) (reserved : Byte) (thresh : W16) (age : Byte) (ceil : Byte)
  | healthSum (q : Req)
  | healthDet (q : Req) (cls : Byte) (idx : Byte)
  | injOpen1 (q : Req) (word : W32)
  | injOpen2 (q : Req) (word : W16)
  | injFire (q : Req) (cls : Byte) (idx : Byte) (reserved : W16) (par : W32)
  | injClose (q : Req)
  | calRead (q : Req) (off : W16) (len : Byte)
  | calWrite (q : Req) (off : W16) (len : Byte) (res1 : Byte) (word : W16) (res2 : W16) (data : List Byte)
  | calProc (q : Req) (proc : Byte)
  | calProcDone (m0 : W32) (m1 : W32) (m2 : W32) (m3 : W32)
  | tagRead (q : Req) (lch : Byte)
  | tagWrite (q : Req) (lch : Byte) (sec : Byte) (reserved : W16) (data : List Byte)
  | patchData (q : Req) (off : W32) (data : List Byte)
  | patchRun (q : Req)
  | bootContinue (q : Req)
  -- interrupt target F (15_interrupts.md)
  | claimFRead (eligAtRef : Bool)
  | completeFWrite (id : Byte)
  -- resets and supplies (16_reset_power.md)
  | poReset
  | boReset
  | pinReset (widthNs : Nat)
  | wdgReset (t : Instant)
  | wdgWarning (t : Instant)
  | wdtService (v : Byte)
  | clkReset
  | lockReset
  | swrstWrite (v : W32)
  | resetRelease (t : Instant) (tide : TideCnt) (xtalOk : Bool) (parity : Bool)
  | vbatLoss
  | vbatReturn
  | reservoirLoss
  -- health (17_health.md)
  | sramScrub (retained : Bool) (errs : List (Byte × BitVec 24 × Bool))
  | frameRepairDone (f : Fin 128) (words : List W32)
  | monitorSample (t : Instant) (m : MonIn)
  | unitFailure (t : Instant) (u : UnitId) (chk : BitVec 5)
  | migrationResume (t : Instant) (l : Lch)
  | tapsMeasure (t : Instant) (i : Fin 70) (taps : BitVec 6)
  | unitInjWrite (u : UnitId) (v : BitVec 3)
  -- debug port (18_debug.md)
  | tapReset
  | extest
  | idcode
  | samplePreload (v : BitVec 147)
  | clamp
  | highz
  | bypass
  | dbgReg (v : BitVec 48)
  | dbgMem (v : BitVec 66)
  | dbgMemDone
  | fuse (v : BitVec 24)
  | fuseBlowDone
  | haltF
  | resumeF
  | stepF
  | dbgrst
  | walkEnter (t : Instant) (tide : TideCnt)
  | walkExit
  | haltEng (e : EngineId)
  | resumeEng (e : EngineId)
  | haltT (tid : Tid)
  | resumeT (tid : Tid)
  | stepT (tid : Tid)
  | coarseTideEdge (pads : BitVec 40) (padZ : BitVec 40)
  | unitRegisterEccCorrection (t : Instant) (u : UnitId)
  | correctedErrorWindowEnd (t : Instant)
deriving DecidableEq, Repr

end Sys2Proof
end

