-- ==== Sys2Proof/Machine/State.lean ====
section
/-! DEFINITION. The state of the block: every register, FIFO, buffer, counter, mode and pin the spec gives it, and the
queue of waiting commands. INVENTORY.md, State, lists each field with its rule and its reset value. -/

namespace Sys2Proof.Machine

/-- Addressed memory: (address, byte) pairs, addresses strictly rising, no entry equal to what an unlisted address
reads as (0; log entry 5). -/
abbrev Mem := List Host.Cell

/-- State of a physical channel unit (05_ostler.md R105). -/
inductive UState where
  | free
  | held
  | retired
deriving DecidableEq, Repr

/-- State of a thread (05_ostler.md R109). -/
inductive TState where
  | free
  | wait
  | ready
  | stall
  | halt
  | stopped
deriving DecidableEq, Repr

/-- What a STALL waits for (05_ostler.md R109): a page (an index of the thread's image), a post, room in an arm crossing, or
nothing. -/
inductive Stall where
  | none
  | page (p : BitVec 12)
  | post
  | arm
deriving DecidableEq, Repr

/-- State of a harness (08_power_harnesses.md R190). -/
inductive HState where
  | idle
  | run
  | safe
  | fault
deriving DecidableEq, Repr

/-- State of a gait tracker (10_gait.md). -/
inductive GState where
  | off
  | seek
  | half
  | prov
  | sync
  | hold
deriving DecidableEq, Repr

/-- The shipped motion program open on a harness (09_motion.md R214). -/
inductive MotProg where
  | none
  | bridge
  | axis
deriving DecidableEq, Repr

/-- Power state and reset phase (16_reset_power.md R357, R362, R370 to R372; 18_debug.md R412). -/
inductive Phase where
  /-- A reset is held: from assertion to 200 µs after the last source deasserts. -/
  | held
  /-- Boot step 7, waiting for the boot-wait commands (R320). -/
  | bootWait
  /-- The Farrier is halted before the muster of boot step 8 (R414). -/
  | bootHalt
  /-- RUN. -/
  | run
  /-- The sleep-entry ladder has begun and the tide pair is not yet latched. -/
  | sleepEntry
  | sleep
  | deep
  /-- Wake ladder, before PLL lock. -/
  | wakePll
  /-- Wake ladder, PLL locked, waiting for the TIDE edge. -/
  | wakeLocked
  /-- Wake ladder, DT reseeded, domain clocks not yet released. -/
  | wakeReseeded
  /-- Walk mode (R412). -/
  | walk
deriving DecidableEq, Repr

/-- The calibration area at its nominal values (17_health.md R394; DESIGN CHOICE, log entry 6). -/
def calNominal : Mem :=
  [(0x000, 0x01), (0x010, 0xA0), (0x012, 0xA0), (0x014, 0x10), (0x015, 0x27), (0x018, 0x10), (0x019, 0x27),
   (0x058, 16), (0x059, 140), (0x05A, 150)]

/-- Reset values of tracker words 0x00 to 0x28 (10_gait.md R255). -/
def gtCfgReset : Vector (BitVec 32) 11 :=
  #v[0, 0, 0x00FA01F4, 0x000100FA, 0, 0, 0x000401F4, 0, 0, 0, 0]

/-- The actions of one FAB cycle of a unit, or of one tide edge (04_channels.md R86) -/
structure ActCyc where
  /-- The FAB cycle, as the event time of its fines over 8 (04_channels.md R86). -/
  cyc : BitVec 48
  /-- The fine at which the last of the actions fell (04_channels.md R86). -/
  fall : BitVec 48
  /-- LEVEL before the first of them (04_channels.md R86). -/
  lv : Bool
  /-- High-impedance before the first of them (04_channels.md R94). -/
  hz : Bool
  /-- More actions fall in this cycle, so the transition is not yet made (04_channels.md R86). -/
  wait : Bool
  /-- FORCE drove the output in this cycle, after every match of it (04_channels.md, "When things meet"). -/
  forced : Bool
deriving DecidableEq, Repr

/-- `ActCyc` at reset (INVENTORY.md, State). -/
def ActCyc.reset : ActCyc where
  cyc := 0
  fall := 0
  lv := false
  hz := false
  wait := false
  forced := false

/-- Sealed record entry, 32 bytes (12_sealed_record.md R272) -/
structure Entry where
  /-- SEQ (12_sealed_record.md R272). -/
  seq : BitVec 32
  /-- EPOCH (12_sealed_record.md R272). -/
  epoch : BitVec 16
  /-- KIND (12_sealed_record.md R272). -/
  kind : BitVec 8
  /-- SOURCE (12_sealed_record.md R272). -/
  source : BitVec 8
  /-- DT (12_sealed_record.md R272). -/
  dt : BitVec 64
  /-- VALUE (12_sealed_record.md R272). -/
  value : BitVec 32
  /-- UNC (12_sealed_record.md R272). -/
  unc : BitVec 16
  /-- FLAGS (12_sealed_record.md R272). -/
  flags : BitVec 16
  /-- TAG, byte 24 in the low bits (12_sealed_record.md R272). -/
  tag : BitVec 64
  /-- Word reads uncorrectable (17_health.md R379). -/
  damaged : Bool
deriving DecidableEq, Repr

/-- `Entry` at reset (INVENTORY.md, State). -/
def Entry.reset : Entry where
  seq := 0
  epoch := 0
  kind := 0
  source := 0
  dt := 0
  value := 0
  unc := 0
  flags := 0
  tag := 0
  damaged := false

/-- Clock and timebase block 0x4200_0000 (02_time.md R50, R23-R49) -/
structure Timebase where
  /-- Spread setting SSC (02_time.md R23/R50). -/
  ssc : BitVec 2
  /-- Spread setting waiting for modulation step 0 (02_time.md R23). -/
  sscPend : Option (BitVec 2)
  /-- DT at which that setting was written (02_time.md R23). -/
  sscAt : BitVec 64
  /-- DT of a modulation step 0; SSC_STEP is derived from it (02_time.md R23). -/
  sscOrigin : BitVec 64
  /-- Fraction of the accumulator at that step 0 (02_time.md R24). -/
  sscFrac : BitVec 32
  /-- PLL_LOCK (02_time.md R50). -/
  pllLock : Bool
  /-- REF_BRC (02_time.md R46/R50). -/
  refBrc : Bool
  /-- DISC (02_time.md R47/R50). -/
  disc : Bool
  /-- COARSE: DT advances on the tide source (02_time.md R32/R50). -/
  coarse : Bool
  /-- Accumulator, integer ticks (02_time.md R24/R50). -/
  dt : BitVec 64
  /-- Accumulator, 32-bit fraction (02_time.md R24). -/
  frac : BitVec 32
  /-- DT_HI as latched (02_time.md R50). -/
  dtHi : BitVec 32
  /-- FINE as latched (02_time.md R50). -/
  fineL : BitVec 2
  /-- Per-cycle increment while disciplined, 32.32 ticks (02_time.md R47). -/
  discInc : BitVec 64
  /-- TERR_MEAS (02_time.md R50). -/
  terrMeas : BitVec 32
  /-- TRCERR_MEAS (02_time.md R50). -/
  trcMeas : BitVec 32
  /-- XTAL_FAIL flag (02_time.md R46/R50). -/
  xtalFailF : Bool
  /-- PLL_UNLOCK flag (02_time.md R48/R50). -/
  pllUnlockF : Bool
  /-- TERR_RANGE flag (02_time.md R29/R50). -/
  terrRange : Bool
  /-- TERR_REJ (02_time.md R29/R50). -/
  terrRej : BitVec 8
  /-- Rejections in a row, as the hardware counts them (02_time.md R29). -/
  rejRun : BitVec 8
  /-- The crystal has been measured inside ±500 ppm since it last stopped (02_time.md R39). -/
  xtalGood : Bool
  /-- Last 8 crystal measurements (02_time.md R27). -/
  terrHist : List (BitVec 32)
  /-- Last 8 TRC measurements (02_time.md R27). -/
  trcHist : List (BitVec 32)
  /-- The once-per-second tide-pair refresh runs (02_time.md R448). -/
  refreshOn : Bool
  /-- Tide count of the next refresh (02_time.md R448). -/
  refreshAt : BitVec 48
  /-- Entries that a wake owes: the GAP of the reseed edge, a TIME_SOURCE ahead of it (02_time.md R35). -/
  gapDue : List Entry
  /-- DT of the last TIME_SOURCE change (12_sealed_record.md R273). -/
  srcSince : BitVec 64
  /-- DT of the last change of the root source (12_sealed_record.md R273). -/
  rootSince : BitVec 64
  /-- DT at which DT left ROOT for the tide source (12_sealed_record.md R273). -/
  coarseFrom : BitVec 64
  /-- The last entry on the root source was BRC disciplined (02_time.md R47). -/
  onBrc : Bool
  /-- Uncertainty gathered since the last TIME_SOURCE entry, in 10^-18 s (02_time.md R449). -/
  unc : Nat
  /-- DT at which the present span on the tide source began (02_time.md R449). -/
  coarseAt : BitVec 64
  /-- EPOCH_RUN (02_time.md R50). -/
  epochRun : BitVec 16
  /-- Crystal drift allowance, ppm (02_time.md R37). -/
  allowX : BitVec 32
  /-- TRC drift allowance, ppm (02_time.md R37). -/
  allowT : BitVec 32
  /-- Crystal allowance of the interval since the tide pair (02_time.md R37). -/
  pairX : BitVec 32
  /-- TRC allowance of that interval (02_time.md R37). -/
  pairT : BitVec 32
  /-- Crystal allowance of the span of R449 under way (02_time.md R37). -/
  spanX : BitVec 32
  /-- TRC allowance of that span (02_time.md R37). -/
  spanT : BitVec 32
deriving DecidableEq, Repr

/-- `Timebase` at reset (INVENTORY.md, State). -/
def Timebase.reset : Timebase where
  ssc := 0
  sscPend := none
  sscAt := 0
  sscOrigin := 0
  sscFrac := 0
  pllLock := false
  refBrc := false
  disc := false
  coarse := false
  dt := 0
  frac := 0
  dtHi := 0
  fineL := 0
  discInc := 0x100000000
  terrMeas := 0
  trcMeas := 0
  xtalFailF := false
  pllUnlockF := false
  terrRange := false
  terrRej := 0
  rejRun := 0
  xtalGood := false
  terrHist := []
  trcHist := []
  refreshOn := false
  refreshAt := 0
  gapDue := []
  srcSince := 0
  rootSince := 0
  coarseFrom := 0
  onBrc := false
  unc := 0
  coarseAt := 0
  epochRun := 0
  allowX := 20
  allowT := 3000
  pairX := 20
  pairT := 3000
  spanX := 20
  spanT := 3000

/-- Reservoir block 0x5000_0000 (02_time.md R50, 15 R354, 16 R376) -/
structure Reservoir where
  /-- VRES is held (16_reset_power.md R367). -/
  powered : Bool
  /-- Tide counter (02_time.md R50). -/
  tide : BitVec 48
  /-- TIDE_CNT_HI as latched (02_time.md R50). -/
  tideHiL : BitVec 16
  /-- TP_DT (02_time.md R50). -/
  tpDt : BitVec 64
  /-- TP_TIDE (02_time.md R50). -/
  tpTide : BitVec 48
  /-- TP_VALID (02_time.md R50). -/
  tpValid : Bool
  /-- TP_SLEEP (02_time.md R50). -/
  tpSleep : Bool
  /-- TP_SRC, 1 = TRC (02_time.md R50). -/
  tpSrc : Bool
  /-- Crystal error stored when the pair was latched (02_time.md R30). -/
  tpErrX : BitVec 32
  /-- TRC error stored when the pair was latched (02_time.md R30). -/
  tpErrT : BitVec 32
  /-- Tide counter or tide pair shows a parity error (02_time.md R31). -/
  parityBad : Bool
  /-- TIDE_ON_TRC (02_time.md R50). -/
  onTrc : Bool
  /-- TIDE_FAIL_R (02_time.md R50). -/
  tideFail : Bool
  /-- TRC_FAIL_R (02_time.md R50). -/
  trcFail : Bool
  /-- CHG_TIDE (02_time.md R50). -/
  chgTide : BitVec 48
  /-- CHG_VALID (02_time.md R50). -/
  chgValid : Bool
  /-- TALARM (02_time.md R50). -/
  talarm : BitVec 48
  /-- TALARM_EN (02_time.md R50). -/
  talarmEn : Bool
  /-- WK_WAKE, WK_TALARM, WK_VBAT, WK_TIO (15_interrupts.md R354). -/
  wk : BitVec 11
  /-- ARM bits (15_interrupts.md R354). -/
  arm : BitVec 11
  /-- TIO_EDGE (15_interrupts.md R354). -/
  tioEdge : BitVec 16
  /-- DEEP_FLAG (16_reset_power.md R376). -/
  deepFlag : Bool
  /-- VRES_SRC (16_reset_power.md R376). -/
  vresSrc : Bool
  /-- RES_LOST (16_reset_power.md R376). -/
  resLost : Bool
  /-- VBAK_OK (16_reset_power.md R376). -/
  vbakOk : Bool
  /-- Backup registers 0 to 31 (16_reset_power.md R368/R376). -/
  backup : Vector (BitVec 32) 32
  /-- Retirement marks of units (16_reset_power.md R369). -/
  unitMarks : BitVec 68
  /-- Retirement marks of engines (16_reset_power.md R369). -/
  engMarks : BitVec 8
  /-- Retirement marks of the converters (17_health.md R385/R390). -/
  convMarks : BitVec 2
deriving DecidableEq, Repr

/-- `Reservoir` at reset (INVENTORY.md, State). -/
def Reservoir.reset : Reservoir where
  powered := true
  tide := 0
  tideHiL := 0
  tpDt := 0
  tpTide := 0
  tpValid := false
  tpSleep := false
  tpSrc := false
  tpErrX := 0
  tpErrT := 0
  parityBad := false
  onTrc := false
  tideFail := false
  trcFail := false
  chgTide := 0
  chgValid := false
  talarm := 0
  talarmEn := false
  wk := 0
  arm := 0
  tioEdge := 0x5555
  deepFlag := false
  vresSrc := false
  resLost := true
  vbakOk := false
  backup := Vector.replicate 32 0
  unitMarks := 0
  engMarks := 0
  convMarks := 0

/-- NV block and fuses (16 R359/R375, 17 R381/R394, 12 R278, 04 R103) -/
structure NvBlock where
  /-- NV epoch counter (02_time.md R43/R44). -/
  epoch : BitVec 16
  /-- Record key, none while erased (12_sealed_record.md R278). -/
  key : Option (List Byte)
  /-- Device serial (12_sealed_record.md R275). -/
  serial : BitVec 64
  /-- Calibration area (17_health.md R394). -/
  cal : Mem
  /-- Tag area, 64 bytes a logical channel (04_channels.md R100/R103). -/
  tags : Mem
  /-- Calibration area holds an unreadable word (17_health.md R381). -/
  calBad : Option (BitVec 16)
  /-- Tag areas that read uncorrectable (17_health.md R381). -/
  tagBad : BitVec 64
  /-- Epoch counter reads uncorrectable (17_health.md R381). -/
  epochBad : Option (BitVec 16)
  /-- Key area reads uncorrectable (17_health.md R381). -/
  keyBad : Option (BitVec 16)
  /-- The unreadable word of area 0 to 3 is an injected mark (17_health.md R392). -/
  badInj : BitVec 4
  /-- Areas 0 to 3 whose writes do not read back correctly (17_health.md R381). -/
  worn : BitVec 4
  /-- FUSE_MAP as blown (16_reset_power.md R359/R375). -/
  fuseMap : BitVec 14
  /-- MAP_LOCK as blown (16_reset_power.md R359/R375). -/
  mapLock : Bool
  /-- BOOT_SRC as blown (16_reset_power.md R359/R375). -/
  bootSrc : Bool
  /-- DBG_LOCK as blown (18_debug.md R415/R416). -/
  dbgLock : Bool
deriving DecidableEq, Repr

/-- `NvBlock` at reset (INVENTORY.md, State). -/
def NvBlock.reset : NvBlock where
  epoch := 0
  key := none
  serial := 0
  cal := calNominal
  tags := []
  calBad := none
  tagBad := 0
  epochBad := none
  keyBad := none
  badInj := 0
  worn := 0
  fuseMap := 0
  mapLock := false
  bootSrc := false
  dbgLock := false

/-- Fuse shadow (16_reset_power.md R359) -/
structure FuseShadow where
  /-- Level map in force (16_reset_power.md R359). -/
  map : BitVec 14
  /-- MAP_LOCK in force (16_reset_power.md R359). -/
  mapLock : Bool
  /-- Boot source in force (16_reset_power.md R359). -/
  bootSrc : Bool
  /-- Debug lock in force (from reset assertion until boot step 3) (18_debug.md R416). -/
  dbgLock : Bool
deriving DecidableEq, Repr

/-- `FuseShadow` at reset (INVENTORY.md, State). -/
def FuseShadow.reset : FuseShadow where
  map := 0
  mapLock := false
  bootSrc := false
  dbgLock := true

/-- Calibration values in use (17_health.md R394/R395) -/
structure CalUse where
  /-- TIDE_TRIM, nominal (17_health.md R394). -/
  tideTrim : BitVec 32
  /-- TRC_TRIM (17_health.md R394). -/
  trcTrim : BitVec 32
  /-- BRC_TRIM (17_health.md R394). -/
  brcTrim : BitVec 32
  /-- OFS0, OFS1 (17_health.md R394). -/
  ofs : Vector (BitVec 16) 2
  /-- R_ON0, R_ON1, mOhm (17_health.md R394). -/
  rOn : Vector (BitVec 32) 2
  /-- R_REF0, R_REF1, mOhm (17_health.md R394). -/
  rRef : Vector (BitVec 32) 2
  /-- ISG0 to ISG11 (17_health.md R394). -/
  isg : Vector (BitVec 32) 12
  /-- DTEMP_OFS0, DTEMP_OFS1 (17_health.md R394). -/
  dtOfs : Vector (BitVec 16) 2
  /-- CORR_THR (17_health.md R394). -/
  corrThr : BitVec 8
  /-- TEMP_WARN (17_health.md R394). -/
  tempWarn : BitVec 8
  /-- TEMP_SHUT (17_health.md R394). -/
  tempShut : BitVec 8
deriving DecidableEq, Repr

/-- `CalUse` at reset (INVENTORY.md, State). -/
def CalUse.reset : CalUse where
  tideTrim := 0
  trcTrim := 0
  brcTrim := 0
  ofs := Vector.replicate 2 160
  rOn := Vector.replicate 2 10000
  rRef := Vector.replicate 2 0
  isg := Vector.replicate 12 0
  dtOfs := Vector.replicate 2 0
  corrThr := 16
  tempWarn := 140
  tempShut := 150

/-- Transition waiting in the input filter (04_channels.md R90) -/
structure InCand where
  /-- New level, after INV_IN (04_channels.md R90). -/
  level : Bool
  /-- Stamp of the transition that began the run (04_channels.md R90). -/
  stamp : BitVec 48
  /-- Stamped at tide resolution (04_channels.md R98). -/
  coarse : Bool
deriving DecidableEq, Repr

/-- `InCand` at reset (INVENTORY.md, State). -/
def InCand.reset : InCand where
  level := false
  stamp := 0
  coarse := false

/-- Capture side of a channel unit (04_channels.md R90-R93, R101) -/
structure ChanCap where
  /-- CAPR (04_channels.md R101). -/
  capR : BitVec 48
  /-- CAPF (04_channels.md R101). -/
  capF : BitVec 48
  /-- CAPR_HI as latched (04_channels.md R93). -/
  capRHiL : BitVec 16
  /-- CAPF_HI as latched (04_channels.md R93). -/
  capFHiL : BitVec 16
  /-- PORG_HI as latched (04_channels.md R101). -/
  porgHiL : BitVec 16
  /-- PW (04_channels.md R101). -/
  pw : BitVec 32
  /-- PRDM (04_channels.md R101). -/
  prdm : BitVec 32
  /-- FULL_R (04_channels.md R101). -/
  fullR : Bool
  /-- FULL_F (04_channels.md R101). -/
  fullF : Bool
  /-- IN, filtered input level (04_channels.md R101). -/
  inn : Bool
  /-- Selected input ahead of INV_IN (04_channels.md R71/R90). -/
  raw : Bool
  /-- Transition waiting in the filter (04_channels.md R90). -/
  cand : Option InCand
  /-- The last transition, with the run and REJ before it: a second one in its FAB cycle cancels it (04_channels.md R90). -/
  undo : Option (BitVec 66 × Option InCand × BitVec 8)
  /-- Previous rise, paired mode (04_channels.md R92). -/
  prevRise : Option (BitVec 48)
  /-- A rise has been seen since enable (04_channels.md R92). -/
  gotRise : Bool
  /-- The rise of this pair computed a PRDM (05_ostler.md R166). -/
  prdmNew : Bool
  /-- Next capture record carries UNCERTAIN (17_health.md R387). -/
  uncertain : Bool
  /-- REJ (04_channels.md R101). -/
  rej : BitVec 8
  /-- OVRCNT (04_channels.md R101). -/
  ovrcnt : BitVec 8
deriving DecidableEq, Repr

/-- `ChanCap` at reset (INVENTORY.md, State). -/
def ChanCap.reset : ChanCap where
  capR := 0
  capF := 0
  capRHiL := 0
  capFHiL := 0
  porgHiL := 0
  pw := 0
  prdm := 0
  fullR := false
  fullF := false
  inn := false
  raw := false
  cand := none
  undo := none
  prevRise := none
  gotRise := false
  prdmNew := false
  uncertain := false
  rej := 0
  ovrcnt := 0

/-- Health registers of a unit (17_health.md R398) -/
structure UnitHealth where
  /-- CHK (17_health.md R398). -/
  chk : BitVec 5
  /-- INJ_MARK (17_health.md R398). -/
  injMark : Bool
  /-- CE_CNT (17_health.md R398). -/
  ceCnt : BitVec 8
  /-- CE_HOUR (17_health.md R398). -/
  ceHour : BitVec 8
  /-- DT at which the CE_HOUR window began (17_health.md R384). -/
  ceStart : BitVec 64
  /-- TAPS (17_health.md R398). -/
  taps : BitVec 6
deriving DecidableEq, Repr

/-- `UnitHealth` at reset (INVENTORY.md, State). -/
def UnitHealth.reset : UnitHealth where
  chk := 0
  injMark := false
  ceCnt := 0
  ceHour := 0
  ceStart := 0
  taps := 0

/-- Physical channel unit n at 0x2000_0000 + 0x100 n (04_channels.md R101; 17_health.md R398) -/
structure ChanUnit where
  /-- Word 0x00: EN MODE UPD LOCK SLEEP_RUN CAPM EDGE INV_IN SAFE FILT INSEL (04_channels.md R101). -/
  ctrl : BitVec 32
  /-- Word 0x04: actions, notifies, BASIN (04_channels.md R101). -/
  act : BitVec 32
  /-- Compare A (04_channels.md R101). -/
  cmpA : BitVec 48
  /-- Compare B (04_channels.md R101). -/
  cmpB : BitVec 48
  /-- CMPA_LO staged (04_channels.md R75). -/
  cmpALo : BitVec 32
  /-- CMPB_LO staged (04_channels.md R75). -/
  cmpBLo : BitVec 32
  /-- Shadow A (04_channels.md R101). -/
  shA : BitVec 48
  /-- Shadow B (04_channels.md R101). -/
  shB : BitVec 48
  /-- SHA_LO staged (04_channels.md R82). -/
  shALo : BitVec 32
  /-- SHB_LO staged (04_channels.md R82). -/
  shBLo : BitVec 32
  /-- PRD (04_channels.md R101). -/
  prd : BitVec 32
  /-- PRD_SH (04_channels.md R101). -/
  prdSh : BitVec 32
  /-- PRD in force during the pass (04_channels.md R79). -/
  prdRun : BitVec 32
  /-- CNT, the stopped position while EN is 0 (04_channels.md R101). -/
  cnt : BitVec 32
  /-- Period origin PORG (04_channels.md R79/R101). -/
  porg : BitVec 48
  /-- ARM_A (04_channels.md R101). -/
  armA : Bool
  /-- ARM_B (04_channels.md R101). -/
  armB : Bool
  /-- Apply edge of the DISARM that cleared ARM_A (04_channels.md R77). -/
  disA : Option (BitVec 66)
  /-- Apply edge of the DISARM that cleared ARM_B (04_channels.md R77). -/
  disB : Option (BitVec 66)
  /-- Compare A has become effective (04_channels.md R76). -/
  effA : Bool
  /-- Compare B has become effective (04_channels.md R76). -/
  effB : Bool
  /-- When compare A becomes effective (04_channels.md R76). -/
  effTA : BitVec 48
  /-- When compare B becomes effective (04_channels.md R76). -/
  effTB : BitVec 48
  /-- Local crossings of A up to this event time have matched or were passed over (04_channels.md R80/R81). -/
  doneA : BitVec 48
  /-- The same for B (04_channels.md R80/R81). -/
  doneB : BitVec 48
  /-- The last FAB cycle in which actions fell (04_channels.md R86). -/
  lastAct : Option ActCyc
  /-- Until that instant the output still shows an earlier level and impedance (04_channels.md R87). -/
  outOld : Option (BitVec 66 × Bool × Bool)
  /-- ACT_P of the coming boundary has acted ahead of it, under a negative trim (04_channels.md R87). -/
  pDone : Bool
  /-- SHV_A (04_channels.md R101). -/
  shvA : Bool
  /-- SHV_B (04_channels.md R101). -/
  shvB : Bool
  /-- SHV_P (04_channels.md R101). -/
  shvP : Bool
  /-- Apply edge of the write that set SHV_A (04_channels.md R84). -/
  shEA : BitVec 66
  /-- Apply edge of the write that set SHV_B (04_channels.md R84). -/
  shEB : BitVec 66
  /-- Apply edge of the write that set SHV_P (04_channels.md R84). -/
  shEP : BitVec 66
  /-- DIR (04_channels.md R101). -/
  dir : Bool
  /-- LEVEL (04_channels.md R101). -/
  level : Bool
  /-- Output stands at the high-impedance safe level (04_channels.md R94). -/
  hiz : Bool
  /-- SAFE_HELD (04_channels.md R101). -/
  safeHeld : Bool
  /-- Word 0x50: MATCH_A MATCH_B MATCH_P CAP_R CAP_F PAIR OVR LATE NARROW CFG_ERR SAT (04_channels.md R101). -/
  flags : BitVec 11
  /-- Capture side (04_channels.md R101). -/
  cap : ChanCap
  /-- TRIM_RISE (04_channels.md R101). -/
  trimRise : BitVec 10
  /-- TRIM_FALL (04_channels.md R101). -/
  trimFall : BitVec 10
  /-- CTRIM_RISE (04_channels.md R101). -/
  ctrimRise : BitVec 10
  /-- CTRIM_FALL (04_channels.md R101). -/
  ctrimFall : BitVec 10
  /-- LCH (04_channels.md R101). -/
  lch : BitVec 6
  /-- HELD (04_channels.md R101). -/
  held : Bool
  /-- USTATE (05_ostler.md R135). -/
  ust : UState
  /-- Health registers (17_health.md R398). -/
  hl : UnitHealth
deriving DecidableEq, Repr

/-- `ChanUnit` at reset (INVENTORY.md, State). -/
def ChanUnit.reset : ChanUnit where
  ctrl := 0x3F000000
  act := 0
  cmpA := 0
  cmpB := 0
  cmpALo := 0
  cmpBLo := 0
  shA := 0
  shB := 0
  shALo := 0
  shBLo := 0
  prd := 0
  prdSh := 0
  prdRun := 0
  cnt := 0
  porg := 0
  armA := false
  armB := false
  disA := none
  disB := none
  effA := true
  effB := true
  effTA := 0
  effTB := 0
  doneA := 0
  doneB := 0
  lastAct := none
  outOld := none
  pDone := false
  shvA := false
  shvB := false
  shvP := false
  shEA := 0
  shEB := 0
  shEP := 0
  dir := false
  level := false
  hiz := false
  safeHeld := false
  flags := 0
  cap := ChanCap.reset
  trimRise := 0
  trimFall := 0
  ctrimRise := 0
  ctrimFall := 0
  lch := 0
  held := false
  ust := .free
  hl := UnitHealth.reset

/-- Event in an event crossing (03_crossings.md R53) -/
structure XEv where
  /-- Logical channel of the event (03_crossings.md R53). -/
  lch : BitVec 6
  /-- 0 match A, 1 match B, 2 boundary, 3 rise, 4 fall, 5 pair (07_microcode.md R160). -/
  what : BitVec 3
  /-- Time recorded (03_crossings.md R63). -/
  stamp : BitVec 48
  /-- CAPF of a completed pair (06_spillway.md R141). -/
  capf : BitVec 48
  /-- PW of a pair; counter period of a boundary (07_microcode.md R160). -/
  pw : BitVec 32
  /-- PRDM, when the rise of the pair computed one (07_microcode.md R166). -/
  prdm : Option (BitVec 32)
  /-- Basin of a notify 0b11 (04_channels.md R88). -/
  post : Option (BitVec 6)
  /-- FLAGS of the record (05_ostler.md R130). -/
  rflags : BitVec 8
  /-- IN of SEC_CH latched with the capture (10_gait.md R451). -/
  secIn : BitVec 2
  /-- IN of DIR_CH latched with the capture (10_gait.md R451). -/
  dirIn : BitVec 2
  /-- Instant at which it entered the FIFO (03_crossings.md R53). -/
  at_ : BitVec 66
deriving DecidableEq, Repr

/-- `XEv` at reset (INVENTORY.md, State). -/
def XEv.reset : XEv where
  lch := 0
  what := 0
  stamp := 0
  capf := 0
  pw := 0
  prdm := none
  post := none
  rflags := 0
  secIn := 0
  dirIn := 0
  at_ := 0

/-- Event crossings X0 to X69 (03_crossings.md R53/R54) -/
structure Crossing where
  /-- Source-side FIFO (03_crossings.md R53). -/
  fifo : List XEv
  /-- OVR_CNT (03_crossings.md R54). -/
  ovrCnt : BitVec 8
  /-- OVR_FLAG (03_crossings.md R54). -/
  ovrFlag : Bool
  /-- In a run of drops (03_crossings.md R54). -/
  inRun : Bool
  /-- Drops while ENG was gated, counted when the clocks are released (03_crossings.md R65). -/
  late : Nat
deriving DecidableEq, Repr

/-- `Crossing` at reset (INVENTORY.md, State). -/
def Crossing.reset : Crossing where
  fifo := []
  ovrCnt := 0
  ovrFlag := false
  inRun := false
  late := 0

/-- Operands of an H_OPEN waiting for the charge pump (14_farrier_commands.md R326) -/
structure HOpenReq where
  /-- Mailbox (14_farrier_commands.md R326). -/
  mb : BitVec 3
  /-- TAG (14_farrier_commands.md R305). -/
  tag : BitVec 8
  /-- Harness (14_farrier_commands.md R326). -/
  h : BitVec 4
  /-- KIND (14_farrier_commands.md R326). -/
  kind : BitVec 8
  /-- HSD (14_farrier_commands.md R326). -/
  hsd : BitVec 8
  /-- MCH (14_farrier_commands.md R326). -/
  mch : BitVec 32
  /-- Group mask (14_farrier_commands.md R326). -/
  grp : BitVec 64
  /-- MLS (14_farrier_commands.md R326). -/
  mls : BitVec 16
deriving DecidableEq, Repr

/-- `HOpenReq` at reset (INVENTORY.md, State). -/
def HOpenReq.reset : HOpenReq where
  mb := 0
  tag := 0
  h := 0
  kind := 0
  hsd := 0
  mch := 0
  grp := 0
  mls := 0

/-- An H_CFG whose writes cross to the P-die (14_farrier_commands.md R308) -/
structure CfgReply where
  /-- Mailbox (14_farrier_commands.md R326). -/
  mb : BitVec 3
  /-- TAG (14_farrier_commands.md R305). -/
  tag : BitVec 8
  /-- Writes in the link's queue up to its last one (03_crossings.md R57). -/
  left : Nat
  /-- One of its three writes was refused or lost (14_farrier_commands.md R308). -/
  bad : Bool
deriving DecidableEq, Repr

/-- `CfgReply` at reset (INVENTORY.md, State). -/
def CfgReply.reset : CfgReply where
  mb := 0
  tag := 0
  left := 0
  bad := false

/-- Die-to-die link (03_crossings.md R57-R59) -/
structure LinkBlk where
  /-- LINK_FAULT (03_crossings.md R58). -/
  fault : Bool
  /-- LINK_RETRY (03_crossings.md R58). -/
  retry : BitVec 8
  /-- Failures of the frame now on the link (03_crossings.md R58). -/
  tries : Nat
  /-- They are of the write at the head of the queue (03_crossings.md R58). -/
  tryOwn : Bool
  /-- Register writes on their way to the P-die (03_crossings.md R57). -/
  queue : List (BitVec 32 × BitVec 32)
  /-- H_CFG whose writes are on their way (14_farrier_commands.md R308). -/
  cfgReply : Option CfgReply
  /-- High-side gates on (08_power_harnesses.md R193/R211). -/
  hg : BitVec 6
  /-- Low-side gates on (08_power_harnesses.md R193/R211). -/
  lg : BitVec 12
  /-- Drivers waiting for DEADT (HG0 to 5, LG0 to 11) (08_power_harnesses.md R205). -/
  deadOn : BitVec 18
  /-- When each of them was asked to turn on (08_power_harnesses.md R205). -/
  dueAt : Vector (BitVec 48) 18
  /-- When each driver last turned on (08_power_harnesses.md R203, R207). -/
  onAt : Vector (BitVec 48) 18
  /-- Charge pump running (08_power_harnesses.md R194). -/
  cpRun : Bool
  /-- Start of the charge pump (08_power_harnesses.md R194). -/
  cpAt : BitVec 48
  /-- VCP - VBAT has exceeded 8 V (08_power_harnesses.md R194). -/
  cpReady : Bool
  /-- H_OPEN waiting for the charge pump (08_power_harnesses.md R194). -/
  cpOpen : Option HOpenReq
  /-- Link silence in force (08_power_harnesses.md R210). -/
  silent : Bool
deriving DecidableEq, Repr

/-- `LinkBlk` at reset (INVENTORY.md, State). -/
def LinkBlk.reset : LinkBlk where
  fault := false
  retry := 0
  tries := 0
  tryOwn := false
  queue := []
  cfgReply := none
  hg := 0
  lg := 0
  deadOn := 0
  dueAt := Vector.replicate 18 0
  onAt := Vector.replicate 18 0
  cpRun := false
  cpAt := 0
  cpReady := false
  cpOpen := none
  silent := false

/-- Member or phase section of a harness (08_power_harnesses.md R213) -/
structure Member where
  /-- MMODE, IPEAK, IHOLD_HI, IHOLD_LO (08_power_harnesses.md R213). -/
  w0 : BitVec 32
  /-- IOC, IOPEN, TPEAK_MAX (400) (08_power_harnesses.md R213). -/
  w1 : BitVec 32
  /-- TMIN_ON, TMIN_OFF (10) (08_power_harnesses.md R213). -/
  w2 : BitVec 32
  /-- LEVELS waiting for the next start (08_power_harnesses.md R191). -/
  lvl : Option (BitVec 24)
  /-- Requested start of the window (08_power_harnesses.md R200). -/
  req : BitVec 48
  /-- Regulating driver off (hold or BRAKE chop) (08_power_harnesses.md R196). -/
  off : Bool
  /-- Start of the window (08_power_harnesses.md R196). -/
  start : BitVec 48
  /-- Last switching of its regulating driver (08_power_harnesses.md R196). -/
  sw : BitVec 48
  /-- Length of the last window, 0 once it is reported open (08_power_harnesses.md R207). -/
  winLen : BitVec 48
deriving DecidableEq, Repr

/-- `Member` at reset (INVENTORY.md, State). -/
def Member.reset : Member where
  w0 := 0
  w1 := 0x01900000
  w2 := 0x0A0A
  lvl := none
  req := 0
  off := false
  start := 0
  sw := 0
  winLen := 0

/-- Bridge or axis program on a harness (09_motion.md) -/
structure Motion where
  /-- Which shipped program is open (09_motion.md R214). -/
  prog : MotProg
  /-- Parameters (defaults written at MOT_OPEN) (09_motion.md R229/R230). -/
  par : Vector (BitVec 32) 22
  /-- State as MOT_STATUS reports it (14_farrier_commands.md R329). -/
  st : BitVec 8
  /-- Measured speed (14_farrier_commands.md R329). -/
  speed : BitVec 32
  /-- Counted position (09_motion.md R225). -/
  pos : BitVec 32
  /-- Axis target (09_motion.md R226). -/
  target : BitVec 32
  /-- Axis direction, 1 = reverse (09_motion.md R224). -/
  dirRev : Bool
  /-- The reversal under way is an overshoot (09_motion.md R226). -/
  overshoot : Bool
  /-- A step is armed and not yet counted (09_motion.md R225). -/
  armed : Bool
  /-- Axis stop: 0 none, 1 soft, 2 hard (09_motion.md R227). -/
  stopping : BitVec 2
  /-- Duty in force, in 0.001 % (14_farrier_commands.md R329). -/
  duty : BitVec 32
  /-- Speed when the stop command was taken (09_motion.md R228). -/
  cmdSpeed : BitVec 32
  /-- Sum of e since RUN began (09_motion.md R221). -/
  sumE : Int
  /-- Interval between the last two crossings (09_motion.md R220). -/
  t60 : BitVec 32
  /-- Stamp of the last crossing (09_motion.md R220). -/
  lastX : BitVec 48
  /-- Commutation step, 0 to 5 (09_motion.md R220). -/
  cstep : BitVec 3
  /-- Consecutive crossings in time (09_motion.md R219). -/
  syncRun : BitVec 8
  /-- Event time at which the ramp began (09_motion.md R219). -/
  rampAt : BitVec 48
  /-- Consecutive commutation misses (09_motion.md R220). -/
  misses : BitVec 8
  /-- Braking on the way to a stop (not a start) (09_motion.md R222). -/
  brakeDir : Bool
  /-- Beginning of the catch window, the alignment, or the last peek of a braking (09_motion.md R216, R219, R222). -/
  at_ : BitVec 48
  /-- Crossings of the catch window or peek, stamp and phase, newest first (09_motion.md R216). -/
  xs : List (BitVec 48 × BitVec 2)
  /-- Speed of a motor that is caught and synchronises at its next crossing (09_motion.md R218). -/
  caught : Option (BitVec 32)
  /-- Start of braking (09_motion.md R222). -/
  brakeAt : BitVec 48
  /-- A peek is under way (09_motion.md R222). -/
  peek : Bool
  /-- The last commutation (09_motion.md R220). -/
  commAt : BitVec 48
  /-- Commutation: 0 its entry is not written, 1 it waits for the crossing, 2 confirmed, 3 its write was refused (09_motion.md R220). -/
  comm : BitVec 2
  /-- Commutations since the last crossing (09_motion.md R220). -/
  behind : BitVec 8
  /-- Axis: square of the speed at the end of the armed step (09_motion.md R224). -/
  vsq : Nat
  /-- Axis: acceleration in the armed step (09_motion.md R224). -/
  acc : Int
  /-- Axis: rising edge of the armed step (09_motion.md R224). -/
  rise : BitVec 48
  /-- Axis: falling edge of the armed or last step (09_motion.md R224). -/
  fall : BitVec 48
  /-- Mailbox and TAG of a pending MOT_START (14_farrier_commands.md R310). -/
  startMb : Option (BitVec 3 × BitVec 8)
deriving DecidableEq, Repr

/-- `Motion` at reset (INVENTORY.md, State). -/
def Motion.reset : Motion where
  prog := .none
  par := Vector.replicate 22 0
  st := 0
  speed := 0
  pos := 0
  target := 0
  dirRev := false
  overshoot := false
  armed := false
  stopping := 0
  duty := 0
  cmdSpeed := 0
  sumE := 0
  t60 := 0
  lastX := 0
  cstep := 0
  syncRun := 0
  rampAt := 0
  misses := 0
  brakeDir := false
  at_ := 0
  xs := []
  caught := none
  brakeAt := 0
  peek := false
  commAt := 0
  comm := 0
  behind := 0
  vsq := 0
  acc := 0
  rise := 0
  fall := 0
  startMb := none

/-- Harness h at 0x2100_0000 + 0x100 h (08_power_harnesses.md R213) -/
structure Harness where
  /-- KIND (08_power_harnesses.md R213). -/
  kind : BitVec 3
  /-- HSTATE (08_power_harnesses.md R190/R213). -/
  hstate : HState
  /-- RIDE_L2 (08_power_harnesses.md R213). -/
  rideL2 : Bool
  /-- HSD (08_power_harnesses.md R213). -/
  hsd : BitVec 4
  /-- MCH (08_power_harnesses.md R213). -/
  mch : BitVec 32
  /-- GRP_LO, GRP_HI (08_power_harnesses.md R213). -/
  grp : BitVec 64
  /-- MLS (08_power_harnesses.md R213). -/
  mls : BitVec 16
  /-- DEFER (50), DEADT (80) (08_power_harnesses.md R213). -/
  w14 : BitVec 32
  /-- BANK_OC, TBLANK (20), PSN_REF (08_power_harnesses.md R213). -/
  w18 : BitVec 32
  /-- Gate currents, VDS_TH (4) (08_power_harnesses.md R213). -/
  w1C : BitVec 32
  /-- Member or phase sections (08_power_harnesses.md R213). -/
  mem : Vector Member 4
  /-- Word 0x60: faults, LATE, ACT_ERR, CFG_ERR (08_power_harnesses.md R213). -/
  flt : BitVec 32
  /-- PHASE (08_power_harnesses.md R213). -/
  phase : BitVec 9
  /-- REG_LS (08_power_harnesses.md R213). -/
  regLs : Bool
  /-- End of the last overlap while the low side still regulates (08_power_harnesses.md R197). -/
  ovEnd : Option (BitVec 48)
  /-- PEAK (08_power_harnesses.md R213). -/
  peak : BitVec 4
  /-- WIN (08_power_harnesses.md R213). -/
  win : BitVec 4
  /-- DEFERRED (08_power_harnesses.md R213). -/
  defd : BitVec 4
  /-- DEFER_CNT (08_power_harnesses.md R213). -/
  deferCnt : BitVec 16
  /-- CANCEL_CNT (08_power_harnesses.md R213). -/
  cancelCnt : BitVec 16
  /-- OPEN_CNT (08_power_harnesses.md R213). -/
  openCnt : BitVec 8
  /-- ACT_TIME (08_power_harnesses.md R213). -/
  actTime : BitVec 48
  /-- ACT_PEND (08_power_harnesses.md R213). -/
  actPend : Bool
  /-- ACT_WORD (08_power_harnesses.md R213). -/
  actWord : BitVec 32
  /-- Event time at which the timed action becomes effective (08_power_harnesses.md R192). -/
  actEff : BitVec 48
  /-- The P-die has cut the gates by itself and its flag has not arrived yet (08_power_harnesses.md R207/R210). -/
  cut : Bool
  /-- Fault flag on its way from the P-die: code, member, sense (08_power_harnesses.md R207). -/
  flag : Option (BitVec 8 × BitVec 8 × BitVec 10)
  /-- Trackers that have put the harness in SAFE (10_gait.md R247). -/
  safedBy : BitVec 2
  /-- Motion program of the harness (09_motion.md R214-R230). -/
  mot : Motion
deriving DecidableEq, Repr

/-- `Harness` at reset (INVENTORY.md, State). -/
def Harness.reset : Harness where
  kind := 0
  hstate := .idle
  rideL2 := false
  hsd := 0
  mch := 0
  grp := 0
  mls := 0xFFFF
  w14 := 0x00500032
  w18 := 0x00140000
  w1C := 0x00040000
  mem := Vector.replicate 4 Member.reset
  flt := 0
  phase := 0
  regLs := false
  ovEnd := none
  peak := 0
  win := 0
  defd := 0
  deferCnt := 0
  cancelCnt := 0
  openCnt := 0
  actTime := 0
  actPend := false
  actWord := 0
  actEff := 0
  cut := false
  flag := none
  safedBy := 0
  mot := Motion.reset

/-- Event of a thread queue (07_microcode.md R160) -/
structure Ev where
  /-- KIND (07_microcode.md R160). -/
  kind : BitVec 8
  /-- SRC (07_microcode.md R160). -/
  src : BitVec 8
  /-- ARG (07_microcode.md R160). -/
  arg : BitVec 16
  /-- DATA (07_microcode.md R160). -/
  data : BitVec 32
  /-- Event time (07_microcode.md R160). -/
  time : BitVec 48
deriving DecidableEq, Repr

/-- `Ev` at reset (INVENTORY.md, State). -/
def Ev.reset : Ev where
  kind := 0
  src := 0
  arg := 0
  data := 0
  time := 0

/-- Context of a thread at 0x1200_0000 + 0x800 t (07_microcode.md R187) -/
structure Ctx where
  /-- G0 to g15 (07_microcode.md R153/R187). -/
  g : Vector (BitVec 64) 16
  /-- PC (07_microcode.md R187). -/
  pc : BitVec 19
  /-- Z (07_microcode.md R187). -/
  z : Bool
  /-- N (07_microcode.md R187). -/
  n : Bool
  /-- C (07_microcode.md R187). -/
  c : Bool
  /-- V (07_microcode.md R187). -/
  v : Bool
  /-- F (07_microcode.md R187). -/
  f : Bool
  /-- TH (07_microcode.md R187). -/
  th : Bool
  /-- TCAUSE (07_microcode.md R187). -/
  tcause : BitVec 16
  /-- TPC (07_microcode.md R187). -/
  tpc : BitVec 19
  /-- Thread-local memory (07_microcode.md R187). -/
  tlm : Mem
deriving DecidableEq, Repr

/-- `Ctx` at reset (INVENTORY.md, State). -/
def Ctx.reset : Ctx where
  g := Vector.replicate 16 0
  pc := 0
  z := false
  n := false
  c := false
  v := false
  f := false
  th := false
  tcause := 0
  tpc := 0
  tlm := []

/-- A write inside an arm crossing (07_microcode.md R165) -/
structure ArmW where
  /-- It goes to a harness, else to a logical channel (07_microcode.md R165). -/
  har : Bool
  /-- Number of the harness or the logical channel (07_microcode.md R165). -/
  tgt : BitVec 8
  /-- Which channel write (07_microcode.md R164). -/
  op : BitVec 8
  /-- The value, or the action word (07_microcode.md R164, R167). -/
  v : BitVec 48
deriving DecidableEq, Repr

/-- `ArmW` at reset (INVENTORY.md, State). -/
def ArmW.reset : ArmW where
  har := false
  tgt := 0
  op := 0
  v := 0

/-- The arm crossings (03_crossings.md R55; 07_microcode.md R165) -/
structure ArmBlk where
  /-- X70 to X77, one for each engine, of 4 entries each, oldest first (03_crossings.md R55). -/
  q : Vector (List ArmW) 8
  /-- Instant of the last write that left one of them or X78 (07_microcode.md R165). -/
  at_ : BitVec 66
  /-- Channel, register and crossing of the writes applied in its FAB cycle (07_microcode.md R165). -/
  top : List (BitVec 8 × BitVec 8 × BitVec 4)
deriving DecidableEq, Repr

/-- `ArmBlk` at reset (INVENTORY.md, State). -/
def ArmBlk.reset : ArmBlk where
  q := Vector.replicate 8 []
  at_ := 0
  top := []

/-- Thread t, table at 0x2500_2000 + 16 t (05_ostler.md R135) -/
structure Thread where
  /-- STATE (05_ostler.md R109/R135). -/
  st : TState
  /-- CLASS (05_ostler.md R135). -/
  rt : Bool
  /-- PRIO (05_ostler.md R135). -/
  prio : BitVec 4
  /-- SLOT (05_ostler.md R135). -/
  slot : BitVec 6
  /-- PROG (05_ostler.md R135). -/
  prog : BitVec 4
  /-- ON_OVR (05_ostler.md R135). -/
  onOvr : Bool
  /-- LOAD (05_ostler.md R135). -/
  load : BitVec 10
  /-- BUDGET (05_ostler.md R135). -/
  budget : BitVec 16
  /-- Event queue (05_ostler.md R111/R135). -/
  evq : List Ev
  /-- EVQ_LOSS (05_ostler.md R135). -/
  evqLoss : BitVec 8
  /-- DLN_CNT (05_ostler.md R135). -/
  dlnCnt : BitVec 8
  /-- LAST_CYC (05_ostler.md R135). -/
  lastCyc : BitVec 16
  /-- MAX_CYC (05_ostler.md R135). -/
  maxCyc : BitVec 16
  /-- Context (07_microcode.md R187). -/
  ctx : Ctx
  /-- The thread has executed a wait and not yet taken its event (07_microcode.md R160, 18_debug.md R410). -/
  waiting : Bool
  /-- Register pair of the wait the thread is in (07_microcode.md R160). -/
  waitRd : BitVec 4
  /-- Thread timer (07_microcode.md R162). -/
  timer : Option (BitVec 48)
  /-- Tooth subscriptions (07_microcode.md R161). -/
  subT : BitVec 2
  /-- Basin subscriptions (07_microcode.md R161). -/
  subB : BitVec 64
  /-- ENG cycles of the activation, none outside one (05_ostler.md R114). -/
  cyc : Option Nat
  /-- Engine cycle from which it can issue again (05_ostler.md R109). -/
  busy : Nat
  /-- The overrun of this activation has been reported (05_ostler.md R114). -/
  ovrDone : Bool
  /-- EVQ_OVERFLOW posted for this activation (05_ostler.md R111). -/
  lossDone : Bool
  /-- Halt request on the thread (18_debug.md R410). -/
  haltReq : Bool
  /-- STEP_T: halt again after one instruction (18_debug.md R410). -/
  stepping : Bool
  /-- The next instruction passes its breakpoint: the thread was resumed there (18_debug.md "Worked through"). -/
  bpSkip : Bool
  /-- The last instruction of the image has completed and its trap is due (07_microcode.md R158). -/
  fell : Bool
  /-- What a STALL waits for (05_ostler.md R109). -/
  stallOn : Stall
  /-- Post waiting under the stall policy (05_ostler.md R127). -/
  stallPost : Option (BitVec 6 × BitVec 128)
  /-- Write that waits for room in the arm crossing (03_crossings.md R55). -/
  stallArm : Option ArmW
deriving DecidableEq, Repr

/-- `Thread` at reset (INVENTORY.md, State). -/
def Thread.reset : Thread where
  st := .free
  rt := false
  prio := 0
  slot := 0
  prog := 0
  onOvr := false
  load := 0
  budget := 0
  evq := []
  evqLoss := 0
  dlnCnt := 0
  lastCyc := 0
  maxCyc := 0
  ctx := Ctx.reset
  waiting := false
  waitRd := 0
  timer := none
  subT := 0
  subB := 0
  cyc := none
  busy := 0
  ovrDone := false
  lossDone := false
  haltReq := false
  stepping := false
  bpSkip := false
  fell := false
  stallOn := .none
  stallPost := none
  stallArm := none

/-- Groom engine e (05_ostler.md R135, 18_debug.md R418) -/
structure Engine where
  /-- RT_LOAD (05_ostler.md R135). -/
  rtLoad : BitVec 11
  /-- THREADS (05_ostler.md R135). -/
  threads : BitVec 4
  /-- ESTATE retired (05_ostler.md R135). -/
  retired : Bool
  /-- ESTATE dozing (05_ostler.md R113/R135). -/
  doze : Bool
  /-- HALT_ENG in force (18_debug.md R410/R418). -/
  halted : Bool
  /-- Retired by an injection (17_health.md R393). -/
  inj : Bool
  /-- CAUSE (18_debug.md R418). -/
  cause : BitVec 3
  /-- Engine cycle of the next issue (05_ostler.md R110). -/
  clk : Nat
  /-- Engine cycle at the instant below (05_ostler.md R110). -/
  clk0 : Nat
  /-- Instant from which device time counts engine cycles (02_time.md, clock table). -/
  at_ : BitVec 66
  /-- Hardware thread that last issued, by rank: class above PRIO (05_ostler.md R110). -/
  lastHw : Vector (BitVec 3) 32
  /-- Breakpoints (18_debug.md R418). -/
  bp : Vector (BitVec 32) 4
  /-- Watchpoints (18_debug.md R418). -/
  wp : Vector (BitVec 32) 2
deriving DecidableEq, Repr

/-- `Engine` at reset (INVENTORY.md, State). -/
def Engine.reset : Engine where
  rtLoad := 0
  threads := 0
  retired := false
  doze := false
  halted := false
  inj := false
  cause := 0
  clk := 0
  clk0 := 0
  at_ := 0
  lastHw := Vector.replicate 32 7
  bp := Vector.replicate 4 0
  wp := Vector.replicate 2 0

/-- Thread-table entry of an image (07_microcode.md R177) -/
structure ThrEnt where
  /-- START (07_microcode.md R177). -/
  start : BitVec 19
  /-- RESTART (07_microcode.md R177). -/
  restart : BitVec 19
  /-- CLASS (07_microcode.md R177). -/
  rt : Bool
  /-- PRIO (07_microcode.md R177). -/
  prio : BitVec 4
  /-- LOAD (07_microcode.md R177). -/
  load : BitVec 10
  /-- BUDGET (07_microcode.md R177). -/
  budget : BitVec 16
  /-- TFLAGS bit 0 (07_microcode.md R177). -/
  onOvr : Bool
  /-- TID given at placement (07_microcode.md R177). -/
  tid : BitVec 6
deriving DecidableEq, Repr

/-- `ThrEnt` at reset (INVENTORY.md, State). -/
def ThrEnt.reset : ThrEnt where
  start := 0
  restart := 0
  rt := false
  prio := 0
  load := 0
  budget := 0
  onOvr := false
  tid := 0

/-- Open program p (07_microcode.md R181) -/
structure Prog where
  /-- Program open (07_microcode.md R181). -/
  open_ : Bool
  /-- Image came from the staging area (05_ostler.md R115). -/
  staged : Bool
  /-- Flash offset of page 0 (07_microcode.md R181). -/
  flashOff : BitVec 32
  /-- PAGES (07_microcode.md R176). -/
  pages : BitVec 16
  /-- TRAP_ENTRY (07_microcode.md R176). -/
  trapEntry : BitVec 32
  /-- PCRC of each page (07_microcode.md R178). -/
  pcrc : List (BitVec 32)
  /-- Pin class of each page (07_microcode.md R178). -/
  pinc : List (BitVec 8)
  /-- Thread table (07_microcode.md R177). -/
  tab : List ThrEnt
  /-- Channels bound (14_farrier_commands.md R327). -/
  chMask : BitVec 64
  /-- Harnesses bound (14_farrier_commands.md R327). -/
  hMask : BitVec 16
  /-- Basins bound (14_farrier_commands.md R327). -/
  bMask : BitVec 64
  /-- SD_SIZE (07_microcode.md R176). -/
  sdSize : BitVec 32
  /-- Shared-data block (07_microcode.md R155/R156). -/
  sd : Mem
  /-- First 64-bit word of its block in engine shared data (07_microcode.md R157). -/
  sdAt : Nat
  /-- Shipped motion program (09_motion.md R214). -/
  shipped : Bool
  /-- Harness of a shipped program (09_motion.md R214). -/
  har : BitVec 4
deriving DecidableEq, Repr

/-- `Prog` at reset (INVENTORY.md, State). -/
def Prog.reset : Prog where
  open_ := false
  staged := false
  flashOff := 0
  pages := 0
  trapEntry := 0xFFFFFFFF
  pcrc := []
  pinc := []
  tab := []
  chMask := 0
  hMask := 0
  bMask := 0
  sdSize := 0
  sd := []
  sdAt := 0
  shipped := false
  har := 0

/-- Instruction-store frame f (05_ostler.md R115/R135) -/
structure Frame where
  /-- Frame taken (05_ostler.md R115). -/
  used : Bool
  /-- PAGE (05_ostler.md R135). -/
  page : BitVec 12
  /-- PROG (05_ostler.md R135). -/
  prog : BitVec 4
  /-- VALID (05_ostler.md R135). -/
  valid : Bool
  /-- PIN (05_ostler.md R135). -/
  pin : Bool
  /-- PREF (05_ostler.md R135). -/
  pref : Bool
  /-- CRC mismatches of the fill under way (05_ostler.md R119). -/
  tries : BitVec 2
  /-- When the page was last executed (05_ostler.md R118). -/
  lastX : Nat
  /-- Contents of the frame (05_ostler.md R115). -/
  words : List (BitVec 32)
  /-- Repair fill under way (17_health.md R379). -/
  repair : Bool
deriving DecidableEq, Repr

/-- `Frame` at reset (INVENTORY.md, State). -/
def Frame.reset : Frame where
  used := false
  page := 0
  prog := 0
  valid := false
  pin := false
  pref := false
  tries := 0
  lastX := 0
  words := []
  repair := false

/-- Basin b, descriptor at 0x2500_1000 + 16 b (05_ostler.md R135/R136) -/
structure Basin where
  /-- FLOOR (05_ostler.md R135). -/
  floor : BitVec 7
  /-- CEIL (05_ostler.md R135). -/
  ceil : BitVec 7
  /-- POLICY (05_ostler.md R135). -/
  policy : BitVec 2
  /-- BOPEN (05_ostler.md R135). -/
  open_ : Bool
  /-- THRESH (05_ostler.md R135). -/
  thresh : BitVec 13
  /-- AGE (05_ostler.md R135). -/
  age : BitVec 8
  /-- WR_CNT (05_ostler.md R136). -/
  wrCnt : BitVec 32
  /-- RD_CNT (05_ostler.md R136). -/
  rdCnt : BitVec 32
  /-- Pages of the ring, the write page first, in the order the writer will take them (05_ostler.md R122). -/
  ring : List (BitVec 8)
  /-- OVF (05_ostler.md R136). -/
  ovf : Bool
  /-- RD_ERR (05_ostler.md R136). -/
  rdErr : Bool
  /-- DROP (05_ostler.md R136). -/
  drop : BitVec 16
  /-- DISC (05_ostler.md R136). -/
  disc : BitVec 16
  /-- Records dropped in the episode (05_ostler.md R128/R129). -/
  epi : BitVec 32
  /-- Threshold source asserted (05_ostler.md R126). -/
  thrOn : Bool
  /-- The oldest unread record has waited AGE ms (05_ostler.md R126). -/
  aged : Bool
  /-- DT at which each unread record was stored, oldest first (05_ostler.md R126). -/
  arr : List (BitVec 64)
deriving DecidableEq, Repr

/-- `Basin` at reset (INVENTORY.md, State). -/
def Basin.reset : Basin where
  floor := 0
  ceil := 0
  policy := 0
  open_ := false
  thresh := 0
  age := 0
  wrCnt := 0
  rdCnt := 0
  ring := []
  ovf := false
  rdErr := false
  drop := 0
  disc := 0
  epi := 0
  thrOn := false
  aged := false
  arr := []

/-- Capture mirror of a logical channel (07_microcode.md R166) -/
structure Mirror where
  /-- CAPR, CAPF, PW, PRDM (07_microcode.md R166). -/
  val : Vector (BitVec 48) 4
  /-- Fresh bits (07_microcode.md R166). -/
  fresh : BitVec 4
deriving DecidableEq, Repr

/-- `Mirror` at reset (INVENTORY.md, State). -/
def Mirror.reset : Mirror where
  val := Vector.replicate 4 0
  fresh := 0

/-- Register write held for a migration (07_microcode.md R165) -/
structure HeldW where
  /-- Register: as writeChanOp numbers it (07_microcode.md R165). -/
  off : BitVec 8
  /-- Value (07_microcode.md R165). -/
  v : BitVec 48
deriving DecidableEq, Repr

/-- `HeldW` at reset (INVENTORY.md, State). -/
def HeldW.reset : HeldW where
  off := 0
  v := 0

/-- Logical-channel map 0x2500_0100 + 4 l (05_ostler.md R135) -/
structure LMap where
  /-- PCH (05_ostler.md R135). -/
  pch : BitVec 7
  /-- OPEN (05_ostler.md R135). -/
  open_ : Bool
  /-- TID (05_ostler.md R135). -/
  tid : BitVec 6
  /-- TBIND (05_ostler.md R135). -/
  tbind : Bool
  /-- Capture mirror (07_microcode.md R166). -/
  mir : Mirror
  /-- Migration under way: start of the faulty cycle (17_health.md R386). -/
  mig : Option (BitVec 48)
  /-- Unit taken for the migration (17_health.md R386). -/
  migTo : BitVec 7
  /-- The migration was caused by an injection (17_health.md R393). -/
  migInj : Bool
  /-- The failed unit as it stood before the faulty cycle (17_health.md R386). -/
  snap : Option ChanUnit
  /-- The crossbar's copy of SAFE, driven while no unit holds the channel (17_health.md R386/R388). -/
  xsafe : Option (BitVec 2)
  /-- Writes held for the migration (07_microcode.md R165). -/
  heldW : List HeldW
deriving DecidableEq, Repr

/-- `LMap` at reset (INVENTORY.md, State). -/
def LMap.reset : LMap where
  pch := 0x7F
  open_ := false
  tid := 0
  tbind := false
  mir := Mirror.reset
  mig := none
  migTo := 0x7F
  migInj := false
  snap := none
  xsafe := none
  heldW := []

/-- Ostler registers 0x2500_0000 (05_ostler.md R135) -/
structure Ostler where
  /-- HEADROOM (05_ostler.md R135). -/
  headroom : BitVec 10
  /-- PF_CNT (05_ostler.md R135). -/
  pfCnt : BitVec 16
  /-- FILL_ERR (05_ostler.md R135). -/
  fillErr : BitVec 8
  /-- Pool pages free (05_ostler.md R121). -/
  pageFree : BitVec 256
  /-- Fills waiting: TID and page (05_ostler.md R117). -/
  fillQ : List (BitVec 6 × BitVec 12)
  /-- Order of execution, for least recently executed (05_ostler.md R118). -/
  execClk : Nat
  /-- Records not stored in B63 (05_ostler.md R129). -/
  lostB63 : BitVec 32
  /-- Crossing served last (05_ostler.md R112). -/
  dispFrom : BitVec 7
  /-- Instant of the last dispatch (05_ostler.md R112). -/
  dispAt : BitVec 66
  /-- Crossings served in its ENG cycle (05_ostler.md R112). -/
  dispSeen : List (BitVec 7)
deriving DecidableEq, Repr

/-- `Ostler` at reset (INVENTORY.md, State). -/
def Ostler.reset : Ostler where
  headroom := 200
  pfCnt := 0
  fillErr := 0
  pageFree := BitVec.allOnes 256
  fillQ := []
  execClk := 0
  lostB63 := 0
  dispFrom := 0
  dispAt := 0
  dispSeen := []

/-- Spillway entry i at 0x2400_1000 + 32 i (06_spillway.md R151) -/
structure SpwEnt where
  /-- TIME (06_spillway.md R151). -/
  time : BitVec 48
  /-- TKIND (06_spillway.md R151). -/
  tkind : BitVec 8
  /-- TGT (06_spillway.md R151). -/
  tgt : BitVec 8
  /-- CKIND (06_spillway.md R151). -/
  ckind : BitVec 8
  /-- CSRC (06_spillway.md R151). -/
  csrc : BitVec 8
  /-- CARG (06_spillway.md R151). -/
  carg : BitVec 16
  /-- EXPIRY (06_spillway.md R151). -/
  expiry : BitVec 48
  /-- FLAGS bit 0 (06_spillway.md R151). -/
  trel : Bool
  /-- FLAGS bit 7 (06_spillway.md R151). -/
  valid : Bool
  /-- OWNER (06_spillway.md R151). -/
  owner : BitVec 8
  /-- HACT (06_spillway.md R151). -/
  hact : BitVec 32
  /-- GEN (06_spillway.md R151). -/
  gen : BitVec 8
  /-- Confirmed, waiting for X78 or a migration (06_spillway.md R142). -/
  conf : Bool
deriving DecidableEq, Repr

/-- `SpwEnt` at reset (INVENTORY.md, State). -/
def SpwEnt.reset : SpwEnt where
  time := 0
  tkind := 0
  tgt := 0
  ckind := 0
  csrc := 0
  carg := 0
  expiry := 0
  trel := false
  valid := false
  owner := 0
  hact := 0
  gen := 0
  conf := false

/-- Spillway 0x2400_0000 (06_spillway.md R152) -/
structure Spillway where
  /-- Entries (06_spillway.md R151). -/
  ent : Vector SpwEnt 256
  /-- Confirmed entries in the order in which they enter X78 (06_spillway.md R145). -/
  x78 : List (BitVec 8)
  /-- Instant at which an entry last entered X78 (06_spillway.md R145). -/
  x78At : Option (BitVec 66)
  /-- Instant of the last confirmation (06_spillway.md R145). -/
  confAt : BitVec 66
  /-- Entries confirmed in its ENG cycle (06_spillway.md R145). -/
  confGrp : List (BitVec 8)
  /-- CONFIRMED (06_spillway.md R152). -/
  confirmed : BitVec 16
  /-- LATE (06_spillway.md R152). -/
  late : BitVec 16
  /-- EXPIRED (06_spillway.md R152). -/
  expired : BitVec 16
  /-- SYNC (06_spillway.md R152). -/
  sync : BitVec 16
  /-- TARGET (06_spillway.md R152). -/
  target : BitVec 16
  /-- CONFLICT (06_spillway.md R152). -/
  conflict : BitVec 16
  /-- WITHDRAWN (06_spillway.md R152). -/
  withdrawn : BitVec 16
  /-- RESET (06_spillway.md R152). -/
  rstDisc : BitVec 16
  /-- REFUSED (06_spillway.md R152). -/
  refused : BitVec 16
  /-- LATE_FLAG (06_spillway.md R152). -/
  lateFlag : Bool
deriving DecidableEq, Repr

/-- `Spillway` at reset (INVENTORY.md, State). -/
def Spillway.reset : Spillway where
  ent := Vector.replicate 256 SpwEnt.reset
  x78 := []
  x78At := none
  confAt := 0
  confGrp := []
  confirmed := 0
  late := 0
  expired := 0
  sync := 0
  target := 0
  conflict := 0
  withdrawn := 0
  rstDisc := 0
  refused := 0
  lateFlag := false

/-- Gait tracker n at 0x2200_0000 + 0x100 n (10_gait.md R255) -/
structure Tracker where
  /-- Words 0x00 to 0x28 (10_gait.md R255). -/
  cfg : Vector (BitVec 32) 11
  /-- GSTATE (10_gait.md R255). -/
  gs : GState
  /-- IDX (10_gait.md R255). -/
  idx : BitVec 16
  /-- LAST (10_gait.md R255). -/
  last : BitVec 48
  /-- DT at the last accepted edge, none before the first: the 1 s of a sleep command (10_gait.md R254). -/
  heard : Option (BitVec 64)
  /-- LAST_HI as latched (10_gait.md R255). -/
  lastHiL : BitVec 16
  /-- P, the last tooth period; LAST_PER reads it saturated at 32 bits (10_gait.md R255). -/
  per : BitVec 48
  /-- GAINED, LOST, STALL, REVERSE, CFG_ERR, HOLD_F (10_gait.md R255). -/
  flags : BitVec 6
  /-- LOSS_RSN (10_gait.md R255). -/
  rsn : BitVec 4
  /-- NOISE_CNT (10_gait.md R255). -/
  noiseCnt : BitVec 16
  /-- MISSED_CNT (10_gait.md R255). -/
  missedCnt : BitVec 16
  /-- LOSS_CNT (10_gait.md R255). -/
  lossCnt : BitVec 16
  /-- 128-period window, newest first (07_microcode.md R173, 10_gait.md R243). -/
  win : List (BitVec 48)
  /-- PROV waits for its first edge (10_gait.md R243). -/
  first : Bool
  /-- A period has been measured since entry (10_gait.md R237). -/
  gotPer : Bool
  /-- A tooth has been accepted since sync was gained (07_microcode.md R173). -/
  gotTooth : Bool
  /-- The extra tooth of this gap has been accepted (10_gait.md R234). -/
  exSeen : Bool
  /-- Stamp of the tooth before the extra tooth (10_gait.md R233). -/
  exAt : BitVec 48
  /-- State left at entry to HOLD (10_gait.md R238). -/
  holdFrom : GState
  /-- HOLD was entered under the strict rules (10_gait.md R238). -/
  holdStrict : Bool
  /-- Edges seen in SEEK or HALF, newest first: stamp and PW (10_gait.md R240). -/
  hist : List (BitVec 48 × BitVec 32)
  /-- Wheel captures that the Ostler has handed over (10_gait.md R232). -/
  inbox : List XEv
  /-- A reference has been passed since entry, so that the pulses counted are a whole revolution's (10_gait.md R241). -/
  refOk : Bool
  /-- Secondary pulses since the previous reference (10_gait.md R241). -/
  pulses : BitVec 8
  /-- AUTO_REARM is due at the next muster (10_gait.md R247). -/
  rearm : Bool
deriving DecidableEq, Repr

/-- `Tracker` at reset (INVENTORY.md, State). -/
def Tracker.reset : Tracker where
  cfg := gtCfgReset
  gs := .off
  idx := 0xFFFF
  last := 0
  heard := none
  lastHiL := 0
  per := 0
  flags := 0
  rsn := 0
  noiseCnt := 0
  missedCnt := 0
  lossCnt := 0
  win := []
  first := false
  gotPer := false
  gotTooth := false
  exSeen := false
  exAt := 0
  holdFrom := .off
  holdStrict := false
  hist := []
  inbox := []
  refOk := false
  pulses := 0
  rearm := false

/-- Probe converter c at 0x2300_0000 + 0x80 c (11_probes.md R271) -/
structure Conv where
  /-- BUSY (11_probes.md R271). -/
  busy : Bool
  /-- REF_SEL (reset c) (11_probes.md R271). -/
  refSel : Bool
  /-- AVG (11_probes.md R271). -/
  avg : BitVec 3
  /-- NSLOT (11_probes.md R271). -/
  nslot : BitVec 3
  /-- CFG_ERR (11_probes.md R271). -/
  cfgErr : Bool
  /-- CHG (11_probes.md R271). -/
  chg : BitVec 10
  /-- TSHORT (11_probes.md R271). -/
  tshort : BitVec 32
  /-- TOPEN (11_probes.md R271). -/
  topen : BitVec 32
  /-- OFS (11_probes.md R271). -/
  ofs : BitVec 16
  /-- PRB of each slot (11_probes.md R271). -/
  slots : Vector (BitVec 3) 8
  /-- Slot under way (11_probes.md R259). -/
  slot : BitVec 4
  /-- Pairs done in the slot (11_probes.md R259). -/
  pair : BitVec 5
  /-- The discharge of the pair is the probe's (11_probes.md R259). -/
  onPrb : Bool
  /-- A discharge (not a charge) is under way (11_probes.md R259). -/
  dis : Bool
  /-- Start of the charge (11_probes.md R259). -/
  tc : BitVec 48
  /-- Start of the discharge (11_probes.md R259). -/
  t0 : BitVec 48
  /-- Reference times summed so far (11_probes.md R259). -/
  sumRef : BitVec 40
  /-- Probe times summed so far (11_probes.md R259). -/
  sumPrb : BitVec 40
  /-- The reference was open or short in this run (11_probes.md R262). -/
  refBad : Bool
  /-- The probe was open in this slot (11_probes.md R262). -/
  prbOpen : Bool
  /-- The probe was short in this slot (11_probes.md R262). -/
  prbShort : Bool
  /-- Converter failed (17_health.md R385). -/
  failed : Bool
deriving DecidableEq, Repr

/-- `Conv` at reset (INVENTORY.md, State). -/
def Conv.reset : Conv where
  busy := false
  refSel := false
  avg := 0
  nslot := 0
  cfgErr := false
  chg := 100
  tshort := 12800
  topen := 128000000
  ofs := 0
  slots := Vector.replicate 8 0
  slot := 0
  pair := 0
  onPrb := false
  dis := false
  tc := 0
  t0 := 0
  sumRef := 0
  sumPrb := 0
  refBad := false
  prbOpen := false
  prbShort := false
  failed := false

/-- Probe p results at 0x2300_0200 + 0x20 p, and its coefficients (11_probes.md R264/R271) -/
structure Probe where
  /-- T_REF (11_probes.md R271). -/
  tRef : BitVec 40
  /-- T_PRB (11_probes.md R271). -/
  tPrb : BitVec 40
  /-- T_REF_HI as latched (11_probes.md R271). -/
  tRefHiL : BitVec 8
  /-- T_PRB_HI as latched (11_probes.md R271). -/
  tPrbHiL : BitVec 8
  /-- RATIO (11_probes.md R271). -/
  ratio : BitVec 32
  /-- FULL (11_probes.md R271). -/
  full : Bool
  /-- OVR, OPEN, SHORT, REF (11_probes.md R271). -/
  flags : BitVec 4
  /-- Last result was a RANGE fault (11_probes.md R264). -/
  range : Bool
  /-- Outcome of the slot not yet taken: 0 a ratio, 1 OPEN, 2 SHORT, 3 REF (11_probes.md R262). -/
  res : BitVec 2
  /-- Reference that the latest result was measured with: 0 PREF0, 1 PREF1 (11_probes.md R258, R264). -/
  ref : Bool
  /-- A slot completed and the Farrier has not taken it (11_probes.md R259). -/
  done : Bool
  /-- The latest result is valid (14_farrier_commands.md R330). -/
  valid : Bool
  /-- Latest m degC (14_farrier_commands.md R330). -/
  mC : BitVec 32
  /-- DT at which the last probe discharge tripped (11_probes.md R265). -/
  dt : BitVec 64
  /-- Injected for the next slot: 1 open, 2 short (17_health.md R377). -/
  inj : BitVec 2
  /-- Fault already in the record: 0 none, 1 OPEN, 2 SHORT, 3 REF, 4 RANGE (11_probes.md R263). -/
  faulty : BitVec 3
  /-- Coefficient a, binary64 (retained) (11_probes.md R264/R267). -/
  ca : BitVec 64
  /-- Coefficient b (11_probes.md R264/R267). -/
  cb : BitVec 64
  /-- Coefficient c3 (11_probes.md R264/R267). -/
  cc : BitVec 64
  /-- OFFSET_MC (11_probes.md R264/R267). -/
  off : BitVec 32
deriving DecidableEq, Repr

/-- `Probe` at reset (INVENTORY.md, State). -/
def Probe.reset : Probe where
  tRef := 0
  tPrb := 0
  tRefHiL := 0
  tPrbHiL := 0
  ratio := 0
  full := false
  flags := 0
  range := false
  res := 0
  ref := false
  done := false
  valid := false
  mC := 0
  dt := 0
  inj := 0
  faulty := 0
  ca := 0
  cb := 0
  cc := 0
  off := 0

/-- Converter block of a schedule (14_farrier_commands.md R330) -/
structure ConvSched where
  /-- NSLOT, 0 unused (14_farrier_commands.md R330). -/
  nslot : BitVec 8
  /-- AVG code (14_farrier_commands.md R330). -/
  avg : BitVec 8
  /-- CHG (14_farrier_commands.md R330). -/
  chg : BitVec 16
  /-- REF_SEL (14_farrier_commands.md R330). -/
  refSel : BitVec 8
  /-- Probe of each slot (14_farrier_commands.md R330). -/
  prbs : Vector (BitVec 8) 8
deriving DecidableEq, Repr

/-- `ConvSched` at reset (INVENTORY.md, State). -/
def ConvSched.reset : ConvSched where
  nslot := 0
  avg := 0
  chg := 0
  refSel := 0
  prbs := Vector.replicate 8 0

/-- Probe schedule in retained memory (11_probes.md R266/R267) -/
structure Sched where
  /-- MEAS_INT, s, as configured (11_probes.md R266). -/
  measInt : BitVec 32
  /-- Converter 0 (14_farrier_commands.md R330). -/
  c0 : ConvSched
  /-- Converter 1 (14_farrier_commands.md R330). -/
  c1 : ConvSched
  /-- TOPEN, us (14_farrier_commands.md R330). -/
  topen : BitVec 32
  /-- TSHORT, ns (14_farrier_commands.md R330). -/
  tshort : BitVec 32
deriving DecidableEq, Repr

/-- `Sched` at reset (INVENTORY.md, State). -/
def Sched.reset : Sched where
  measInt := 0
  c0 := ConvSched.reset
  c1 := ConvSched.reset
  topen := 0
  tshort := 0

/-- Probe schedule state (11_probes.md R266-R269) -/
structure ProbeSys where
  /-- Schedule in retained memory (11_probes.md R267). -/
  sched : Option Sched
  /-- Schedule that waits for the run in progress (11_probes.md "Schedule loaded during a run"). -/
  pendSched : Option Sched
  /-- DT from which boundaries are counted (11_probes.md R266). -/
  base : BitVec 64
  /-- MEAS_INT in force, s (11_probes.md R267, 12 R282). -/
  intv : BitVec 32
  /-- PARK_INT in force, s; 0 without park (11_probes.md R268). -/
  parkInt : BitVec 32
  /-- PARK_INT as configured (11_probes.md R268). -/
  parkCfg : BitVec 32
  /-- Tide count of the last park alarm (11_probes.md R268). -/
  parkAlarm : BitVec 48
  /-- Park state is DEEP (11_probes.md R268). -/
  parkDeep : Bool
  /-- Wake mask of the park cycle (11_probes.md R268). -/
  parkMask : BitVec 11
  /-- The schedule run of a park wake is under way (11_probes.md R268). -/
  parkRun : Bool
  /-- Probe results overwritten and not yet stated by a LOSS entry (12_sealed_record.md R273). -/
  lostN : BitVec 16
  /-- DT of the first of them (12_sealed_record.md R273). -/
  lostFirst : BitVec 64
  /-- DT of the last of them (12_sealed_record.md R273). -/
  lostLast : BitVec 64
  /-- Park wakes missed (11_probes.md R269). -/
  missed : BitVec 16
  /-- DT of the first missed park wake of a LOSS that waits for space (12_sealed_record.md R283). -/
  missedFirst : BitVec 64
  /-- Span of the missed park wakes, ms (12_sealed_record.md R283). -/
  missedMs : BitVec 32
  /-- The LOSS entry of missed park wakes waits for space (12_sealed_record.md R283). -/
  missedDue : Bool
deriving DecidableEq, Repr

/-- `ProbeSys` at reset (INVENTORY.md, State). -/
def ProbeSys.reset : ProbeSys where
  sched := none
  pendSched := none
  base := 0
  intv := 0
  parkInt := 0
  parkCfg := 0
  parkAlarm := 0
  parkDeep := false
  parkMask := 0
  parkRun := false
  lostN := 0
  lostFirst := 0
  lostLast := 0
  missed := 0
  missedFirst := 0
  missedMs := 0
  missedDue := false

/-- Record queue and header in retained memory (12_sealed_record.md R280/R286) -/
structure RecordQ where
  /-- Entries held, oldest first (12_sealed_record.md R280). -/
  q : List Entry
  /-- HEAD_EPOCH (12_sealed_record.md R286). -/
  headEpoch : BitVec 16
  /-- HEAD_SEQ (12_sealed_record.md R286). -/
  headSeq : BitVec 32
  /-- Epoch of the last committed entry (12_sealed_record.md R276). -/
  epoch : BitVec 16
  /-- Next SEQ of the epoch (12_sealed_record.md R276). -/
  seq : BitVec 32
  /-- LAST_TAG (12_sealed_record.md R286). -/
  lastTag : BitVec 64
  /-- DT field of the last entry committed, when that is a GAP (02_time.md R448). -/
  gapDt : Option (BitVec 64)
  /-- LOSS_PEND: 0 none, 1 measurements, 2 other kinds also (12_sealed_record.md R286). -/
  lossPend : BitVec 8
  /-- LOSS_CNT (12_sealed_record.md R286). -/
  lossCnt : BitVec 16
  /-- LOSS_FIRST_DT (12_sealed_record.md R286). -/
  lossFirst : BitVec 64
  /-- DT of the last lost entry (12_sealed_record.md R283). -/
  lossLast : BitVec 64
  /-- RATE_STEP (12_sealed_record.md R286). -/
  rateStep : BitVec 8
  /-- Record writing enabled (12_sealed_record.md R278). -/
  enabled : Bool
  /-- Pending REC_DECOMMISSION: mailbox, TAG (12_sealed_record.md R279). -/
  decom : Option (BitVec 3 × BitVec 8)
  /-- REC_DECOMMISSION refuses further record writing (12_sealed_record.md R279). -/
  shut : Bool
  /-- Epoch start under way: cause, entries that follow it (02_time.md R43). -/
  epochPend : Option (BitVec 8 × List Entry)
  /-- Mailbox, TAG and CMD answered at the epoch start (14_farrier_commands.md R324/R331). -/
  epochMb : Option (BitVec 3 × BitVec 8 × BitVec 8)
  /-- TIME_SOURCE entries of changes that came while the Farrier did not run (02_time.md R49, 01_system.md R19). -/
  due : List Entry
  /-- Queue header reads uncorrectable (17_health.md R379). -/
  hdrBad : Bool
deriving DecidableEq, Repr

/-- `RecordQ` at reset (INVENTORY.md, State). -/
def RecordQ.reset : RecordQ where
  q := []
  headEpoch := 0
  headSeq := 0
  epoch := 0
  seq := 0
  lastTag := 0
  gapDt := none
  lossPend := 0
  lossCnt := 0
  lossFirst := 0
  lossLast := 0
  rateStep := 0
  enabled := false
  decom := none
  shut := false
  epochPend := none
  epochMb := none
  due := []
  hdrBad := false

/-- Host interface 0x00_0000 (13_host_link.md R304) -/
structure HostIf where
  /-- CRC_ERR (13_host_link.md R304). -/
  crcErr : Bool
  /-- ADDR_ERR (13_host_link.md R304). -/
  addrErr : Bool
  /-- DB_ERR (13_host_link.md R304). -/
  dbErr : Bool
  /-- MB_ERR (13_host_link.md R304). -/
  mbErr : Bool
  /-- HOST_LOST (13_host_link.md R304). -/
  hostLost : Bool
  /-- An expiry that the Farrier has still to report, and whether it was injected (13_host_link.md R301). -/
  hwdPost : Option Bool
  /-- CRC_CNT (13_host_link.md R304). -/
  crcCnt : BitVec 8
  /-- ATTN_EN (13_host_link.md R304). -/
  attnEn : BitVec 5
  /-- REQ_BUSY (13_host_link.md R304). -/
  reqBusy : BitVec 8
  /-- REPLY_RDY (13_host_link.md R304). -/
  replyRdy : BitVec 8
  /-- HWD_TO (13_host_link.md R304). -/
  hwdTo : BitVec 8
  /-- HWD_ACT (13_host_link.md R304). -/
  hwdAct : Bool
  /-- DT at which the host watchdog was last restarted (13_host_link.md R301). -/
  hwdAt : BitVec 64
  /-- MUSTER_SEQ (13_host_link.md R304). -/
  musterSeq : BitVec 32
  /-- BASIN_MASK (13_host_link.md R304). -/
  basinMask : BitVec 64
  /-- Mailboxes, keyed by host address (13_host_link.md R297). -/
  mb : Mem
  /-- PENDING mailboxes in doorbell order, not yet taken (14_farrier_commands.md R309). -/
  order : List (BitVec 3)
  /-- PENDING mailboxes whose request has been taken (deferred) (13_host_link.md R299). -/
  taken : BitVec 8
  /-- Checked writes waiting to be applied (13_host_link.md R293). -/
  stage : List (BitVec 24 × List Byte)
  /-- Bytes the last frame returned on SDO (13_host_link.md R288). -/
  sdo : List Byte
  /-- Status word latched by the last frame (13_host_link.md R294). -/
  snap : BitVec 16
  /-- Target H had an eligible source at that snapshot (15_interrupts.md R342). -/
  snapElig : Bool
  /-- Injected: the next frame is discarded (17_health.md R377). -/
  badNext : Bool
deriving DecidableEq, Repr

/-- `HostIf` at reset (INVENTORY.md, State). -/
def HostIf.reset : HostIf where
  crcErr := false
  addrErr := false
  dbErr := false
  mbErr := false
  hostLost := false
  hwdPost := none
  crcCnt := 0
  attnEn := 0x1F
  reqBusy := 0
  replyRdy := 0
  hwdTo := 0
  hwdAct := false
  hwdAt := 0
  musterSeq := 0
  basinMask := 0
  mb := []
  order := []
  taken := 0
  stage := []
  sdo := []
  snap := 0xFFFF
  snapElig := false
  badNext := false

/-- Interrupt controller 0x4000_0000 (15_interrupts.md R353) -/
structure Irq where
  /-- EN_F (15_interrupts.md R353). -/
  enF : BitVec 256
  /-- EN_H (15_interrupts.md R353). -/
  enH : BitVec 256
  /-- PRI_F (15_interrupts.md R353). -/
  pri : Vector (BitVec 4) 256
  /-- LAT_F (15_interrupts.md R353). -/
  latF : BitVec 256
  /-- LAT_H (15_interrupts.md R353). -/
  latH : BitVec 256
  /-- ACT_F (15_interrupts.md R353). -/
  actF : BitVec 256
  /-- ACT_H (15_interrupts.md R353). -/
  actH : BitVec 256
  /-- LOSS (15_interrupts.md R353). -/
  loss : Vector (BitVec 8) 256
  /-- GATE_F (15_interrupts.md R353). -/
  gateF : Bool
  /-- GATE_H (15_interrupts.md R353). -/
  gateH : Bool
  /-- GW (15_interrupts.md R353). -/
  gw : BitVec 3
  /-- CLAIM_F (15_interrupts.md R353). -/
  claimF : BitVec 8
  /-- CLAIM_H (15_interrupts.md R353). -/
  claimH : BitVec 8
  /-- ACTIVE_H (15_interrupts.md R353). -/
  activeH : BitVec 8
  /-- CLAIM_ORDER (15_interrupts.md R353). -/
  claimOrder : Bool
  /-- CERR_F (15_interrupts.md R353). -/
  cerrF : Bool
  /-- CERR_H (15_interrupts.md R353). -/
  cerrH : Bool
deriving DecidableEq, Repr

/-- `Irq` at reset (INVENTORY.md, State). -/
def Irq.reset : Irq where
  enF := 0
  enH := 0
  pri := Vector.replicate 256 0
  latF := 0
  latH := 0
  actF := 0
  actH := 0
  loss := Vector.replicate 256 0
  gateF := false
  gateH := false
  gw := 0
  claimF := 0
  claimH := 0
  activeH := 0
  claimOrder := false
  cerrF := false
  cerrH := false

/-- Management-table entry of a logical channel (14_farrier_commands.md R316) -/
structure TabCh where
  /-- OPEN (14_farrier_commands.md R316). -/
  open_ : Bool
  /-- PCH (14_farrier_commands.md R316). -/
  pch : BitVec 7
  /-- The unit is HELD with this LCH (14_farrier_commands.md R316). -/
  held : Bool
  /-- EN (14_farrier_commands.md R316). -/
  en : Bool
  /-- MODE (14_farrier_commands.md R316). -/
  mode : BitVec 2
  /-- SAFE_HELD (14_farrier_commands.md R316). -/
  safeHeld : Bool
deriving DecidableEq, Repr

/-- `TabCh` at reset (INVENTORY.md, State). -/
def TabCh.reset : TabCh where
  open_ := false
  pch := 0x7F
  held := false
  en := false
  mode := 0
  safeHeld := false

/-- Management-table entry of a harness (14_farrier_commands.md R316) -/
structure TabHar where
  /-- KIND (14_farrier_commands.md R316). -/
  kind : BitVec 3
  /-- HSTATE (14_farrier_commands.md R316). -/
  hstate : HState
deriving DecidableEq, Repr

/-- `TabHar` at reset (INVENTORY.md, State). -/
def TabHar.reset : TabHar where
  kind := 0
  hstate := .idle

/-- Management-table entry of a thread (14_farrier_commands.md R316) -/
structure TabThr where
  /-- STATE class: FREE, STOPPED or running (as WAIT) (14_farrier_commands.md R316). -/
  st : TState
  /-- SLOT (14_farrier_commands.md R316). -/
  slot : BitVec 6
  /-- PROG (14_farrier_commands.md R316). -/
  prog : BitVec 4
deriving DecidableEq, Repr

/-- `TabThr` at reset (INVENTORY.md, State). -/
def TabThr.reset : TabThr where
  st := .free
  slot := 0
  prog := 0

/-- Management-table entry of a basin (14_farrier_commands.md R316) -/
structure TabBas where
  /-- BOPEN (14_farrier_commands.md R316). -/
  open_ : Bool
  /-- FLOOR (14_farrier_commands.md R316). -/
  floor : BitVec 7
  /-- CEIL (14_farrier_commands.md R316). -/
  ceil : BitVec 7
  /-- POLICY (14_farrier_commands.md R316). -/
  policy : BitVec 2
  /-- THRESH (14_farrier_commands.md R316). -/
  thresh : BitVec 13
  /-- AGE (14_farrier_commands.md R316). -/
  age : BitVec 8
deriving DecidableEq, Repr

/-- `TabBas` at reset (INVENTORY.md, State). -/
def TabBas.reset : TabBas where
  open_ := false
  floor := 0
  ceil := 0
  policy := 0
  thresh := 0
  age := 0

/-- The Farrier core and its firmware state (14_farrier_commands.md; 17_health.md R382; 18_debug.md R408) -/
structure Farrier where
  /-- F_HALTED (18_debug.md R418). -/
  halted : Bool
  /-- F_CAUSE (18_debug.md R418). -/
  fcause : BitVec 3
  /-- The Farrier runs (not in reset, not in an L2 restart) (13_host_link.md R303). -/
  running : Bool
  /-- Table of channels (14_farrier_commands.md R316). -/
  tabCh : Vector TabCh 64
  /-- Table of harnesses (14_farrier_commands.md R316). -/
  tabHar : Vector TabHar 16
  /-- Table of threads (14_farrier_commands.md R316). -/
  tabThr : Vector TabThr 64
  /-- Table of basins (14_farrier_commands.md R316). -/
  tabBas : Vector TabBas 64
  /-- Program-message queue: time, TID, word (07_microcode.md R163). -/
  msgs : List (BitVec 48 × BitVec 6 × BitVec 32)
  /-- Staging area (14_farrier_commands.md R327). -/
  staging : Mem
  /-- Patch image received during the boot wait (14_farrier_commands.md R334). -/
  patchBuf : Mem
  /-- Farrier RAM that a patch body occupies (14_farrier_commands.md R319). -/
  ram : Mem
  /-- Patch level in force (14_farrier_commands.md R322). -/
  patchLevel : BitVec 16
  /-- Patch rejected at boot (14_farrier_commands.md R322). -/
  patchRej : Bool
  /-- A RESET reply waits for its release (14_farrier_commands.md R323). -/
  rstPend : Bool
  /-- Mailbox of that reply (14_farrier_commands.md R323). -/
  rstMb : BitVec 3
  /-- DT at which that reply was written (14_farrier_commands.md R323). -/
  rstAt : BitVec 64
  /-- An accepted SLEEP: 1 SLEEP, 2 DEEP (16_reset_power.md R371). -/
  sleepPend : Option (BitVec 2)
  /-- DT of the last watchdog service (17_health.md R382). -/
  wdtAt : BitVec 64
  /-- DT at which the watchdog stopped, none while it counts (17_health.md R382). -/
  wdtStop : Option (BitVec 64)
  /-- Source 218 raised since the last service (17_health.md R382). -/
  wdtWarned : Bool
  /-- Millisecond of DT of the last muster (14_farrier_commands.md R315). -/
  musterMs : BitVec 64
  /-- INJ_OPEN (17_health.md R399). -/
  injOpen : Bool
  /-- Nonce given, with the DT of the reply (14_farrier_commands.md R333). -/
  nonce : Option (BitVec 16 × BitVec 64)
  /-- Reply held for a migration: channel, mailbox, command, TAG, payload (07_microcode.md R165). -/
  migReply : Option (BitVec 6 × BitVec 3 × BitVec 8 × BitVec 8 × List Byte)
  /-- CAL_PROC pending: procedure, mailbox, TAG (14_farrier_commands.md R310). -/
  calProc : Option (BitVec 8 × BitVec 3 × BitVec 8)
  /-- Contents of the board's flash (14_farrier_commands.md R320). -/
  flash : Mem
  /-- Free-value counter (no spec register) (the model). -/
  free : Nat
deriving DecidableEq, Repr

/-- `Farrier` at reset (INVENTORY.md, State). -/
def Farrier.reset : Farrier where
  halted := false
  fcause := 0
  running := false
  tabCh := Vector.replicate 64 TabCh.reset
  tabHar := Vector.replicate 16 TabHar.reset
  tabThr := Vector.replicate 64 TabThr.reset
  tabBas := Vector.replicate 64 TabBas.reset
  msgs := []
  staging := []
  patchBuf := []
  ram := []
  patchLevel := 0
  patchRej := false
  rstPend := false
  rstMb := 0
  rstAt := 0
  sleepPend := none
  wdtAt := 0
  wdtStop := none
  wdtWarned := false
  musterMs := 0
  injOpen := false
  nonce := none
  migReply := none
  calProc := none
  flash := []
  free := 0

/-- Detector report (17_health.md R400) -/
structure Det where
  /-- Detector class (17_health.md R400). -/
  cls : BitVec 8
  /-- Index (17_health.md R400). -/
  idx : BitVec 8
  /-- EVENTS (17_health.md R400). -/
  events : BitVec 32
  /-- STATE (17_health.md R400). -/
  st : BitVec 32
  /-- LAST_DT (17_health.md R400). -/
  lastDt : BitVec 64
  /-- LAST (17_health.md R400). -/
  last : BitVec 32
deriving DecidableEq, Repr

/-- `Det` at reset (INVENTORY.md, State). -/
def Det.reset : Det where
  cls := 0
  idx := 0
  events := 0
  st := 0
  lastDt := 0
  last := 0

/-- Entry of the corrected-error table (17_health.md R380) -/
structure CorrEnt where
  /-- Memory (17_health.md R380). -/
  mem : BitVec 8
  /-- Word index (17_health.md R380). -/
  word : BitVec 24
  /-- Corrected errors in the window (17_health.md R380). -/
  cnt : BitVec 8
  /-- DT of the first error (17_health.md R380). -/
  start : BitVec 64
deriving DecidableEq, Repr

/-- `CorrEnt` at reset (INVENTORY.md, State). -/
def CorrEnt.reset : CorrEnt where
  mem := 0
  word := 0
  cnt := 0
  start := 0

/-- Health and injection block 0x4300_0000 (17_health.md R399) -/
structure Health where
  /-- REPLACE_CAUSE (17_health.md R390/R399). -/
  cause : BitVec 32
  /-- Cause bits set only by injection (17_health.md R393). -/
  causeInj : BitVec 32
  /-- SRAM_CE (17_health.md R399). -/
  ce : Vector (BitVec 16) 8
  /-- SRAM_UE (17_health.md R399). -/
  ue : Vector (BitVec 16) 8
  /-- MB_BAD (17_health.md R399). -/
  mbBad : Vector (BitVec 8) 8
  /-- DTEMP0, DTEMP1 (17_health.md R399). -/
  dtemp : Vector (BitVec 12) 2
  /-- Corrected-error table (17_health.md R380). -/
  corr : List CorrEnt
  /-- Words that read with an error: memory, word, double-bit, injected (17_health.md R379/R392). -/
  marks : List (BitVec 8 × BitVec 24 × Bool × Bool)
  /-- Mailboxes whose next request is refused (17_health.md R377). -/
  mbInj : BitVec 8
  /-- Threads whose next activation counts as an overrun (17_health.md R377). -/
  dlnInj : BitVec 64
  /-- Injected: servicing stops (17_health.md R377). -/
  wdtInj : Bool
  /-- Signed degrees added to each die, and the DT until which (17_health.md R377). -/
  tempInj : Vector (BitVec 32 × BitVec 64) 2
  /-- DT until which an injected supply trip is held, by index (17_health.md R377). -/
  supInj : Vector (BitVec 64) 5
  /-- DT at which a held failure of XTAL, PLL, tide crystal or TRC ends (17_health.md R377). -/
  clkInj : Vector (BitVec 64) 4
  /-- Detector reports (17_health.md R400). -/
  det : List Det
  /-- TEMP_WARN reported per die (17_health.md R383). -/
  warned : BitVec 2
  /-- Temperature trip in force (17_health.md R383). -/
  tempTrip : Bool
  /-- VBAT-high trip in force (17_health.md R383). -/
  vbatTrip : Bool
  /-- DT since which VBAT has stayed below 42 V (17_health.md R383). -/
  vbatSince : Option (BitVec 64)
  /-- Report-only supply conditions present, by index (17_health.md R383). -/
  monTrip : BitVec 5
deriving DecidableEq, Repr

/-- `Health` at reset (INVENTORY.md, State). -/
def Health.reset : Health where
  cause := 0
  causeInj := 0
  ce := Vector.replicate 8 0
  ue := Vector.replicate 8 0
  mbBad := Vector.replicate 8 0
  dtemp := Vector.replicate 2 0
  corr := []
  marks := []
  mbInj := 0
  dlnInj := 0
  wdtInj := false
  tempInj := Vector.replicate 2 (0, 0)
  supInj := Vector.replicate 5 0
  clkInj := Vector.replicate 4 0
  det := []
  warned := 0
  tempTrip := false
  vbatTrip := false
  vbatSince := none
  monTrip := 0

/-- Reset and power block 0x4100_0000, power state (16_reset_power.md R375) -/
structure Power where
  /-- CAUSE (16_reset_power.md R375). -/
  cause : BitVec 8
  /-- LAST_LEVEL (16_reset_power.md R375). -/
  lastLevel : BitVec 2
  /-- WAKE_BOOT (16_reset_power.md R375). -/
  wakeBoot : Bool
  /-- LIMP (16_reset_power.md R375). -/
  limp : Bool
  /-- BOOT_STEP (16_reset_power.md R375). -/
  bootStep : BitVec 4
  /-- Power state (16_reset_power.md R357/R370). -/
  phase : Phase
  /-- Level of the reset in progress, 0 deepest (16_reset_power.md R357). -/
  level : BitVec 2
  /-- An L2 restart waits for RESUME_F (HALT_ON_RST) (16_reset_power.md R366). -/
  restart : Bool
  /-- XTAL failed during boot: source 190 at step 8 (16_reset_power.md R364). -/
  clkSrc190 : Bool
  /-- VBAT present (16_reset_power.md R367). -/
  vbat : Bool
deriving DecidableEq, Repr

/-- `Power` at reset (INVENTORY.md, State). -/
def Power.reset : Power where
  cause := 0
  lastLevel := 0
  wakeBoot := false
  limp := false
  bootStep := 0
  phase := .held
  level := 0
  restart := false
  clkSrc190 := false
  vbat := true

/-- Debug port (18_debug.md R418) -/
structure Debug where
  /-- Instruction register: IDCODE (18_debug.md R401). -/
  ir : BitVec 5
  /-- Boundary register (18_debug.md R403). -/
  bsr : BitVec 147
  /-- Value the selected data register captures (18_debug.md R405/R406). -/
  tdo : BitVec 147
  /-- Value latched by the previous DBG_REG read (18_debug.md R405). -/
  regLatch : BitVec 32
  /-- DBG_MEM address (18_debug.md R406). -/
  memAddr : BitVec 32
  /-- DBG_MEM data (18_debug.md R406). -/
  memData : BitVec 32
  /-- DBG_MEM access is a write (18_debug.md R406). -/
  memWr : Bool
  /-- ERR (18_debug.md R406). -/
  memErr : Bool
  /-- BUSY (18_debug.md R406). -/
  memBusy : Bool
  /-- WALK_ERR (18_debug.md R418). -/
  walkErr : Bool
  /-- FUSE_BUSY (18_debug.md R418). -/
  fuseBusy : Bool
  /-- FUSE_ERR (18_debug.md R418). -/
  fuseErr : Bool
  /-- Fuse being blown (18_debug.md R415). -/
  fuseIdx : BitVec 8
  /-- HALT_ON_RST (18_debug.md R418). -/
  haltOnRst : Bool
  /-- F_PC (18_debug.md R418). -/
  fPc : BitVec 32
  /-- F_BP (18_debug.md R418). -/
  fBp : Vector (BitVec 32) 4
  /-- F_WP (18_debug.md R418). -/
  fWp : Vector (BitVec 32) 2
  /-- KIND, IGN (18_debug.md R418). -/
  fWpK : Vector (BitVec 8) 2
  /-- DT at which walk mode was entered (18_debug.md R413). -/
  walkAt : BitVec 64
  /-- Power state walk mode was entered from (18_debug.md R412). -/
  walkFrom : Phase
  /-- Walk mode was left and the clocks are not released yet (18_debug.md R413). -/
  walkDone : Bool
deriving DecidableEq, Repr

/-- `Debug` at reset (INVENTORY.md, State). -/
def Debug.reset : Debug where
  ir := 1
  bsr := 0
  tdo := 0
  regLatch := 0
  memAddr := 0
  memData := 0
  memWr := false
  memErr := false
  memBusy := false
  walkErr := false
  fuseBusy := false
  fuseErr := false
  fuseIdx := 0
  haltOnRst := false
  fPc := 0
  fBp := Vector.replicate 4 0
  fWp := Vector.replicate 2 0
  fWpK := Vector.replicate 2 0
  walkAt := 0
  walkFrom := .run
  walkDone := false

/-- Both converters at reset: REF_SEL of converter c is c (11_probes.md R271). -/
def convReset : Vector Conv 2 :=
  #v[Conv.reset, { Conv.reset with refSel := true }]

/-- The whole block -/
structure State where
  /-- Timebase (the model). -/
  tb : Timebase
  /-- Reservoir (the model). -/
  rsv : Reservoir
  /-- NV block and fuses (the model). -/
  nv : NvBlock
  /-- Fuse shadow (the model). -/
  fsh : FuseShadow
  /-- Calibration in use (the model). -/
  cal : CalUse
  /-- PCH0 to PCH67 (the model). -/
  units : Vector ChanUnit 68
  /-- TIO control words (04_channels.md R102). -/
  tio : Vector (BitVec 32) 40
  /-- Levels the board gives the TIO pads (04_channels.md R450). -/
  pad : BitVec 40
  /-- TIO pins that the board does not drive (04_channels.md R450). -/
  padZ : BitVec 40
  /-- Phase-sense comparator outputs (08_power_harnesses.md R206). -/
  psn : BitVec 6
  /-- Event crossings (the model). -/
  xing : Vector Crossing 70
  /-- Arm crossings X70 to X77 (03_crossings.md R51, R55). -/
  arm : ArmBlk
  /-- Link and P-die gates (the model). -/
  link : LinkBlk
  /-- H0 to H15 (the model). -/
  har : Vector Harness 16
  /-- Threads by TID (the model). -/
  thr : Vector Thread 64
  /-- GE0 to GE7 (the model). -/
  eng : Vector Engine 8
  /-- Programs (the model). -/
  prog : Vector Prog 16
  /-- Instruction frames (the model). -/
  frm : Vector Frame 128
  /-- B0 to B63 (the model). -/
  bas : Vector Basin 64
  /-- Basin memory, byte 0x400 p + 16 slot (05_ostler.md R136). -/
  bmem : Mem
  /-- Logical-channel map (the model). -/
  lmap : Vector LMap 64
  /-- Ostler registers (the model). -/
  ost : Ostler
  /-- Spillway (the model). -/
  spw : Spillway
  /-- GT0, GT1 (the model). -/
  gt : Vector Tracker 2
  /-- Probe converters (the model). -/
  conv : Vector Conv 2
  /-- Probes (the model). -/
  prb : Vector Probe 16
  /-- Probe schedule (the model). -/
  ps : ProbeSys
  /-- Sealed record (the model). -/
  rcd : RecordQ
  /-- Host interface (the model). -/
  host : HostIf
  /-- Interrupt controller (the model). -/
  irq : Irq
  /-- Farrier (the model). -/
  far : Farrier
  /-- Health block (the model). -/
  hlt : Health
  /-- Reset and power (the model). -/
  pwr : Power
  /-- Debug port (the model). -/
  dbg : Debug
  /-- Commands waiting, first in first out (the model's queue). -/
  pending : List Instr
deriving DecidableEq, Repr

/-- The one way the block stops with a fault. -/
inductive Fault where
  /-- Raised by REGISTER_WRITE, RC_FIELD_READ and LO_WORD_LATCH_READ when the address names no register of any
  register table of the spec: such an address does not exist. It is on the safe side: the run ends. -/
  | noRegister (addr : BitVec 32)
deriving DecidableEq, Repr

/-- Why a command is refused. -/
inductive Refusal where
  /-- Answered by an arm of `exec` whose command has no meaning in the model yet; on the safe side. -/
  | notModelled (mnemonic : String)
deriving DecidableEq, Repr

/-- The machine right after reset: every field at the value of its "Cleared by" column or of the log (INVENTORY.md, State). -/
def State.reset : State where
  tb := Timebase.reset
  rsv := Reservoir.reset
  nv := NvBlock.reset
  fsh := FuseShadow.reset
  cal := CalUse.reset
  units := Vector.replicate 68 ChanUnit.reset
  tio := Vector.replicate 40 0x37F
  pad := BitVec.allOnes 40
  padZ := 0
  psn := 0
  xing := Vector.replicate 70 Crossing.reset
  arm := ArmBlk.reset
  link := LinkBlk.reset
  har := Vector.replicate 16 Harness.reset
  thr := Vector.replicate 64 Thread.reset
  eng := Vector.replicate 8 Engine.reset
  prog := Vector.replicate 16 Prog.reset
  frm := Vector.replicate 128 Frame.reset
  bas := Vector.replicate 64 Basin.reset
  bmem := []
  lmap := Vector.replicate 64 LMap.reset
  ost := Ostler.reset
  spw := Spillway.reset
  gt := Vector.replicate 2 Tracker.reset
  conv := convReset
  prb := Vector.replicate 16 Probe.reset
  ps := ProbeSys.reset
  rcd := RecordQ.reset
  host := HostIf.reset
  irq := Irq.reset
  far := Farrier.reset
  hlt := Health.reset
  pwr := Power.reset
  dbg := Debug.reset
  pending := []

end Sys2Proof.Machine
end

