-- ==== Sys2Proof/Machine/Bits.lean ====
section
/-! DEFINITION. Bit fields, byte order, saturating counts, the passed test, the CRCs and addressed memory: the small
operations every other file of the machine uses. -/

namespace Sys2Proof.Machine

/-! ### Bit fields (00_scope.md R6) -/

/-- Field `len` bits long from bit `lo`. -/
def fld {w : Nat} (v : BitVec w) (lo len : Nat) : BitVec len := v.extractLsb' lo len

/-- `v` with the field of `len` bits from bit `lo` set to `x`. -/
def setFld {w : Nat} (v : BitVec w) (lo len : Nat) (x : BitVec len) : BitVec w :=
  (v &&& ~~~((BitVec.allOnes len).zeroExtend w <<< lo)) ||| (x.zeroExtend w <<< lo)

/-- Bit `i` of `v`. -/
def bit {w : Nat} (v : BitVec w) (i : Nat) : Bool := v.getLsbD i

/-- `v` with bit `i` set to `b`. -/
def setBit {w : Nat} (v : BitVec w) (i : Nat) (b : Bool) : BitVec w :=
  bif b then v ||| (1#w <<< i) else v &&& ~~~(1#w <<< i)

/-- A Bool as a bit vector of width `w`. -/
def b2v (w : Nat) (b : Bool) : BitVec w := bif b then 1#w else 0#w

/-! ### Saturating counts (R14) -/

/-- Saturating increment. -/
def satInc {w : Nat} (v : BitVec w) : BitVec w := if v = BitVec.allOnes w then v else v + 1#w

/-- Saturating addition of a natural number. -/
def satAdd {w : Nat} (v : BitVec w) (n : Nat) : BitVec w :=
  if v.toNat + n < 2 ^ w then BitVec.ofNat w (v.toNat + n) else BitVec.allOnes w

/-- A natural number saturating at the width. -/
def satNat (w : Nat) (n : Nat) : BitVec w := if n < 2 ^ w then BitVec.ofNat w n else BitVec.allOnes w

/-- A signed value saturating at ±(2^(w−1) − 1). -/
def satInt (w : Nat) (i : Int) : BitVec w :=
  let m : Int := 2 ^ (w - 1) - 1
  BitVec.ofInt w (if i > m then m else if i < -m then -m else i)

/-! ### Event time (02_time.md R25) -/

/-- A compare value is passed when (now − C) mod 2^48 < 2^47. -/
def passed (now c : EvTime) : Bool := (now - c).toNat < 2 ^ 47

/-- Signed distance a − b on the event-time circle. -/
def evDiff (a b : EvTime) : Int := (a - b).toInt

/-- The largest number of at most `bits` bits whose `k`-th power does not exceed `n`. -/
def iroot (k bits n : Nat) : Nat :=
  (List.range bits).foldr (fun i r => if (r + 2 ^ i) ^ k ≤ n then r + 2 ^ i else r) 0

/-- Round a quotient of naturals to nearest, halves up (R4). -/
def roundDiv (a b : Nat) : Nat := if b = 0 then 0 else (2 * a + b) / (2 * b)

/-- Round a quotient up. -/
def ceilDiv (a b : Nat) : Nat := if b = 0 then 0 else (a + b - 1) / b

/-! ### Bytes (00_scope.md R5) -/

/-- The `n` low bytes of `v`, least significant first. -/
def leBytes : Nat → Nat → List Byte
  | 0, _ => []
  | n + 1, v => BitVec.ofNat 8 v :: leBytes n (v / 256)

/-- The number a little-endian byte string spells. -/
def ofLe : List Byte → Nat
  | [] => 0
  | b :: r => b.toNat + 256 * ofLe r

/-- The number a most-significant-first byte string spells. -/
def ofBe (l : List Byte) : Nat := ofLe l.reverse

/-- Little-endian field of `n` bytes from byte `off` of a byte string; missing bytes read as 0. -/
def leAt (l : List Byte) (off n : Nat) : Nat := ofLe ((l.drop off).take n)

/-- Byte `i` of a byte string, 0 where it is shorter. -/
def byteAt (l : List Byte) (i : Nat) : Byte := l.getD i 0

/-! ### CRCs (13_host_link.md R289, 07_microcode.md R179) -/

/-- One bit of CRC-8, polynomial 0x1D. -/
def crc8Bit (c : Byte) : Byte := bif bit c 7 then (c <<< 1) ^^^ 0x1D#8 else c <<< 1

/-- One byte of CRC-8. -/
def crc8Byte (c b : Byte) : Byte :=
  crc8Bit (crc8Bit (crc8Bit (crc8Bit (crc8Bit (crc8Bit (crc8Bit (crc8Bit (c ^^^ b))))))))

/-- CRC-8 with initial value `i` and final XOR `x`. -/
def crc8With (i x : Byte) (l : List Byte) : Byte := l.foldl crc8Byte i ^^^ x

/-- The link's CRC-8: initial value 0xFF, final XOR 0xFF (R289). -/
def crc8 (l : List Byte) : Byte := crc8With 0xFF#8 0xFF#8 l

/-- One bit of the reflected CRC-32 of IEEE 802.3. -/
def crc32Bit (c : W32) : W32 := bif bit c 0 then (c >>> 1) ^^^ 0xEDB88320#32 else c >>> 1

/-- One byte of CRC-32. -/
def crc32Byte (c : W32) (b : Byte) : W32 :=
  crc32Bit (crc32Bit (crc32Bit (crc32Bit (crc32Bit (crc32Bit (crc32Bit (crc32Bit (c ^^^ b.zeroExtend 32))))))))

/-- CRC-32 of R179. -/
def crc32 (l : List Byte) : W32 := l.foldl crc32Byte 0xFFFFFFFF#32 ^^^ 0xFFFFFFFF#32

/-! ### Addressed memory -/

/-- What an unlisted address reads as (log entry 5). -/
def memDefault : Byte := 0

/-- The byte at address `a`. -/
def memGet : Mem → Nat → Byte
  | [], _ => memDefault
  | (k, b) :: r, a => if k = a then b else memGet r a

/-- Write byte `v` at address `a`, keeping the canonical form. -/
def memSet : Mem → Nat → Byte → Mem
  | [], a, v => if v = memDefault then [] else [(a, v)]
  | (k, b) :: r, a, v =>
    if a < k then (if v = memDefault then (k, b) :: r else (a, v) :: (k, b) :: r)
    else if a = k then (if v = memDefault then r else (a, v) :: r)
    else (k, b) :: memSet r a v

/-- Every address of `m` lies above `a`, and the rest of the canonical form holds. -/
def memWfFrom (a : Nat) : Mem → Bool
  | [] => true
  | (k, b) :: r => decide (a ≤ k) && decide (b ≠ memDefault) && memWfFrom (k + 1) r

/-- The canonical form: addresses strictly rising, no entry that an unlisted address would read as. -/
def Memory.wf (m : Mem) : Bool := memWfFrom 0 m

/-- Write a byte string from address `a`. -/
def memPut : Mem → Nat → List Byte → Mem
  | m, _, [] => m
  | m, a, b :: r => memPut (memSet m a b) (a + 1) r

/-- The `n` bytes from address `a`. -/
def memBytes (m : Mem) (a : Nat) : Nat → List Byte
  | 0 => []
  | n + 1 => memGet m a :: memBytes m (a + 1) n

/-- Little-endian read of `n` bytes. -/
def memLe (m : Mem) (a n : Nat) : Nat := ofLe (memBytes m a n)

/-- Little-endian write of `n` bytes. -/
def memPutLe (m : Mem) (a n v : Nat) : Mem := memPut m a (leBytes n v)

/-- Remove every byte from address `lo` up to, not including, `hi`. -/
def memClear (m : Mem) (lo hi : Nat) : Mem := m.filter fun c => !(decide (lo ≤ c.1) && decide (c.1 < hi))

/-! ### Vectors of like things -/

/-- Change element `i` of a vector. -/
def vmod {α : Type} {n : Nat} (v : Vector α n) (i : Fin n) (f : α → α) : Vector α n := v.set i (f v[i])

/-- A natural number as an index, when it is one. -/
def idx? (n i : Nat) : Option (Fin n) := if h : i < n then some ⟨i, h⟩ else none

/-- A bit vector of width `w` as an index of a 2^w family. -/
def bvFin {w : Nat} (n : Nat) (h : n = 2 ^ w) (v : BitVec w) : Fin n := ⟨v.toNat, h ▸ v.isLt⟩

end Sys2Proof.Machine
end

