-- ==== Sys2Proof/Decode.lean ====
section
/-! DEFINITION. Decoding. spec/opcode_table.json gives its rows no bits, so no word spells a command there
(`decodeTableWord`). The instructions of the groom engines do have words (07_microcode.md R184, R185): `decodeGroom`
reads one, `groomWord` writes one. STEP_T fetches through `decodeGroom`. -/

namespace Sys2Proof

open Sys2Proof.Machine (fld bit b2v)

/-- The command a word spells by the table's bits: the table gives none of its rows any bits. -/
def decodeTableWord (_nbits _w : Nat) : Option Instr := none

/-- Operand fields of an R-format word (R184). -/
def rOps (w : W32) : ROps := ⟨fld w 22 4, fld w 18 4, fld w 14 4, fld w 6 8⟩

/-- Operand fields of an I-format word. -/
def iOps (w : W32) : IOps := ⟨fld w 22 4, fld w 18 4, fld w 0 18⟩

/-- Operand fields of a B-format word. -/
def bOps (w : W32) : BOps := ⟨fld w 22 4, fld w 0 22⟩

/-- Operand fields of a J-format word. -/
def jOps (w : W32) : JOps := ⟨fld w 22 4, fld w 0 22⟩

/-- Operand fields of an S-format word. -/
def sOps (w : W32) : SOps := ⟨fld w 22 4, fld w 18 4, fld w 14 4, fld w 8 6, bit w 7, bit w 6, fld w 0 6⟩

/-- The instructions of OP 0x01, by FN (R185). -/
def decodeAlu (tid : Tid) (fn : BitVec 6) (o : ROps) : Option Instr :=
  match fn.toNat with
  | 0x00 => some (.add tid o)
  | 0x01 => some (.sub tid o)
  | 0x02 => some (.and tid o)
  | 0x03 => some (.or tid o)
  | 0x04 => some (.xor tid o)
  | 0x05 => some (.shl tid o)
  | 0x06 => some (.shr tid o)
  | 0x07 => some (.sar tid o)
  | 0x08 => some (.min tid o)
  | 0x09 => some (.max tid o)
  | 0x0A => some (.cmp tid o)
  | 0x0B => some (.tadd tid o)
  | 0x0C => some (.tsub tid o)
  | 0x0D => some (.mul tid o)
  | 0x0E => some (.divu tid o)
  | 0x0F => some (.remu tid o)
  | _ => none

/-- The instruction a word of an engine's instruction store spells, for thread `tid` (R184, R185); none for an OP or
FN value that R185 does not list. -/
def decodeGroom (tid : Tid) (w : W32) : Option Instr :=
  match (fld w 26 6).toNat with
  | 0x01 => decodeAlu tid (fld w 0 6) (rOps w)
  | 0x02 => some (.addi tid (iOps w))
  | 0x03 => some (.andi tid (iOps w))
  | 0x04 => some (.ori tid (iOps w))
  | 0x05 => some (.xori tid (iOps w))
  | 0x06 => some (.shli tid (iOps w))
  | 0x07 => some (.shri tid (iOps w))
  | 0x08 => some (.sari tid (iOps w))
  | 0x09 => some (.cmpi tid (iOps w))
  | 0x0A => some (.movi tid (iOps w))
  | 0x10 => some (.ldw tid (iOps w))
  | 0x11 => some (.ldd tid (iOps w))
  | 0x12 => some (.stw tid (iOps w))
  | 0x13 => some (.std tid (iOps w))
  | 0x14 => if fld w 0 6 = 0#6 then some (.fadd tid (rOps w)) else if fld w 0 6 = 1#6 then some (.swap tid (rOps w)) else none
  | 0x18 => some (.bcond tid (bOps w))
  | 0x19 => some (.call tid (jOps w))
  | 0x1A => if fld w 0 6 = 0#6 then some (.jr tid (rOps w)) else none
  | 0x20 => some (.wait tid (sOps w))
  | 0x21 => if bit w 8 then some (.lsn tid (sOps w)) else some (.ulsn tid (sOps w))
  | 0x22 => if fld w 8 6 = 1#6 then some (.timerx tid (sOps w)) else some (.timer tid (sOps w))
  | 0x23 => some (.now tid (sOps w))
  | 0x24 => some (.sig tid (sOps w))
  | 0x25 => some (.dbf tid (sOps w))
  | 0x26 => some (.attn tid (sOps w))
  | 0x27 => some (.mfs tid (sOps w))
  | 0x28 => some (.trap tid (sOps w))
  | 0x30 => some (.carm tid (sOps w))
  | 0x31 => some (.cshd tid (sOps w))
  | 0x32 => some (.cdis tid (sOps w))
  | 0x33 => some (.cfrc tid (sOps w))
  | 0x34 => some (.clock tid (sOps w))
  | 0x35 => some (.ccap tid (sOps w))
  | 0x36 => some (.hact tid (sOps w))
  | 0x38 => some (.bpost tid (sOps w))
  | 0x39 => some (.bread tid (sOps w))
  | 0x3A => some (.back tid (sOps w))
  | 0x3B => some (.spw tid (sOps w))
  | 0x3C => if fld w 8 6 = 1#6 then some (.spx tid (sOps w)) else some (.spc tid (sOps w))
  | 0x3D => some (.aconv tid (sOps w))
  | 0x3E => if fld w 8 6 = 1#6 then some (.tlast tid (sOps w)) else some (.tper tid (sOps w))
  | _ => none

/-- An R-format word. -/
def rWord (op : BitVec 6) (o : ROps) (fn : BitVec 6) : W32 := op ++ o.rd ++ o.ra ++ o.rb ++ o.zero ++ fn

/-- An I-format word. -/
def iWord (op : BitVec 6) (o : IOps) : W32 := op ++ o.rd ++ o.ra ++ o.imm

/-- A B-format word. -/
def bWord (op : BitVec 6) (o : BOps) : W32 := op ++ o.cond ++ o.imm

/-- A J-format word. -/
def jWord (op : BitVec 6) (o : JOps) : W32 := op ++ o.rd ++ o.imm

/-- An S-format word. -/
def sWord (op : BitVec 6) (o : SOps) : W32 := op ++ o.rd ++ o.ra ++ o.rb ++ o.sub ++ b2v 1 o.x ++ b2v 1 o.zero ++ o.k

/-- The word of an engine instruction (R184, R185); none for a command that is no engine instruction. -/
def groomWord (i : Instr) : Option W32 :=
  match i with
  | .add _ o => some (rWord 0x01#6 o 0x00#6)
  | .sub _ o => some (rWord 0x01#6 o 0x01#6)
  | .and _ o => some (rWord 0x01#6 o 0x02#6)
  | .or _ o => some (rWord 0x01#6 o 0x03#6)
  | .xor _ o => some (rWord 0x01#6 o 0x04#6)
  | .shl _ o => some (rWord 0x01#6 o 0x05#6)
  | .shr _ o => some (rWord 0x01#6 o 0x06#6)
  | .sar _ o => some (rWord 0x01#6 o 0x07#6)
  | .min _ o => some (rWord 0x01#6 o 0x08#6)
  | .max _ o => some (rWord 0x01#6 o 0x09#6)
  | .cmp _ o => some (rWord 0x01#6 o 0x0A#6)
  | .tadd _ o => some (rWord 0x01#6 o 0x0B#6)
  | .tsub _ o => some (rWord 0x01#6 o 0x0C#6)
  | .mul _ o => some (rWord 0x01#6 o 0x0D#6)
  | .divu _ o => some (rWord 0x01#6 o 0x0E#6)
  | .remu _ o => some (rWord 0x01#6 o 0x0F#6)
  | .addi _ o => some (iWord 0x02#6 o)
  | .andi _ o => some (iWord 0x03#6 o)
  | .ori _ o => some (iWord 0x04#6 o)
  | .xori _ o => some (iWord 0x05#6 o)
  | .shli _ o => some (iWord 0x06#6 o)
  | .shri _ o => some (iWord 0x07#6 o)
  | .sari _ o => some (iWord 0x08#6 o)
  | .cmpi _ o => some (iWord 0x09#6 o)
  | .movi _ o => some (iWord 0x0A#6 o)
  | .ldw _ o => some (iWord 0x10#6 o)
  | .ldd _ o => some (iWord 0x11#6 o)
  | .stw _ o => some (iWord 0x12#6 o)
  | .std _ o => some (iWord 0x13#6 o)
  | .fadd _ o => some (rWord 0x14#6 o 0#6)
  | .swap _ o => some (rWord 0x14#6 o 1#6)
  | .bcond _ o => some (bWord 0x18#6 o)
  | .call _ o => some (jWord 0x19#6 o)
  | .jr _ o => some (rWord 0x1A#6 o 0#6)
  | .wait _ o => some (sWord 0x20#6 o)
  | .now _ o => some (sWord 0x23#6 o)
  | .sig _ o => some (sWord 0x24#6 o)
  | .dbf _ o => some (sWord 0x25#6 o)
  | .attn _ o => some (sWord 0x26#6 o)
  | .mfs _ o => some (sWord 0x27#6 o)
  | .trap _ o => some (sWord 0x28#6 o)
  | .carm _ o => some (sWord 0x30#6 o)
  | .cshd _ o => some (sWord 0x31#6 o)
  | .cdis _ o => some (sWord 0x32#6 o)
  | .cfrc _ o => some (sWord 0x33#6 o)
  | .clock _ o => some (sWord 0x34#6 o)
  | .ccap _ o => some (sWord 0x35#6 o)
  | .hact _ o => some (sWord 0x36#6 o)
  | .bpost _ o => some (sWord 0x38#6 o)
  | .bread _ o => some (sWord 0x39#6 o)
  | .back _ o => some (sWord 0x3A#6 o)
  | .spw _ o => some (sWord 0x3B#6 o)
  | .aconv _ o => some (sWord 0x3D#6 o)
  | .lsn _ o => some (sWord 0x21#6 o)
  | .ulsn _ o => some (sWord 0x21#6 o)
  | .timer _ o => some (sWord 0x22#6 o)
  | .timerx _ o => some (sWord 0x22#6 o)
  | .spc _ o => some (sWord 0x3C#6 o)
  | .spx _ o => some (sWord 0x3C#6 o)
  | .tper _ o => some (sWord 0x3E#6 o)
  | .tlast _ o => some (sWord 0x3E#6 o)
  | _ => none

/-- Whether the SUB field of a shared OP is the instruction's own: bit 0 of `lsn` and `ulsn`, and the value 1 of the
second instruction of 0x22, 0x3C and 0x3E (R185). -/
def groomSubOk (i : Instr) : Bool :=
  match i with
  | .lsn _ o => bit o.sub 0
  | .ulsn _ o => !bit o.sub 0
  | .timer _ o => o.sub != 1#6
  | .timerx _ o => o.sub == 1#6
  | .spc _ o => o.sub != 1#6
  | .spx _ o => o.sub == 1#6
  | .tper _ o => o.sub != 1#6
  | .tlast _ o => o.sub == 1#6
  | _ => true

/-- The thread that issues an engine instruction. -/
def groomTid (i : Instr) : Option Tid :=
  match i with
  | .add t _ => some t
  | .sub t _ => some t
  | .and t _ => some t
  | .or t _ => some t
  | .xor t _ => some t
  | .shl t _ => some t
  | .shr t _ => some t
  | .sar t _ => some t
  | .min t _ => some t
  | .max t _ => some t
  | .cmp t _ => some t
  | .tadd t _ => some t
  | .tsub t _ => some t
  | .mul t _ => some t
  | .divu t _ => some t
  | .remu t _ => some t
  | .addi t _ => some t
  | .andi t _ => some t
  | .ori t _ => some t
  | .xori t _ => some t
  | .shli t _ => some t
  | .shri t _ => some t
  | .sari t _ => some t
  | .cmpi t _ => some t
  | .movi t _ => some t
  | .ldw t _ => some t
  | .ldd t _ => some t
  | .stw t _ => some t
  | .std t _ => some t
  | .fadd t _ => some t
  | .swap t _ => some t
  | .bcond t _ => some t
  | .call t _ => some t
  | .jr t _ => some t
  | .wait t _ => some t
  | .now t _ => some t
  | .sig t _ => some t
  | .dbf t _ => some t
  | .attn t _ => some t
  | .mfs t _ => some t
  | .trap t _ => some t
  | .carm t _ => some t
  | .cshd t _ => some t
  | .cdis t _ => some t
  | .cfrc t _ => some t
  | .clock t _ => some t
  | .ccap t _ => some t
  | .hact t _ => some t
  | .bpost t _ => some t
  | .bread t _ => some t
  | .back t _ => some t
  | .spw t _ => some t
  | .aconv t _ => some t
  | .lsn t _ => some t
  | .ulsn t _ => some t
  | .timer t _ => some t
  | .timerx t _ => some t
  | .spc t _ => some t
  | .spx t _ => some t
  | .tper t _ => some t
  | .tlast t _ => some t
  | _ => none

end Sys2Proof
end

