-- ==== Sys2Proof/Config.lean ====
section
/-! DEFINITION. What the spec leaves open: free values, constants with no body. No proof can see a value of theirs;
each is applied to the free-value counter of the state (`far.free`) or to the operands it depends on (log entry 7). -/

namespace Sys2Proof.Config

/-- The injection nonce of INJ_OPEN1 (14_farrier_commands.md R333 states no rule for it). -/
opaque freeNonce : Nat → W16

/-- Whether a low pulse of 2 µs to 10 µs on RSTN raises PIN (16_reset_power.md R358: it may or may not). -/
opaque rstnRaises : Nat → Bool

/-- TAPS of an interpolator at boot step 5 (17_health.md R385 states only the range 24 to 63; used modulo 40 plus 24). -/
opaque bootTaps : Nat → Nat

/-- The Farrier's PC while it is halted (18_debug.md R418; the firmware's code is not described). -/
opaque farrierPc : Nat → W32

/-- Whether the fixed-point increment 64 / N of R24 is rounded up in its 32-bit fraction, by N in units of 0.0008
(02_time.md speaks of the fraction quantisation and names no rounding). -/
opaque incRoundsUp : Nat → Bool

/-- A word of the internal map that the Farrier's firmware uses and the spec does not lay out, by address and counter
(16_reset_power.md R369, 0x3440 to 0x37FF and 0x3810 to 0x3FFF; the Farrier RAM outside a patch body), and a word of the code of
a shipped motion program or a field of its thread table (09_motion.md R214), by number and counter. -/
opaque firmwareWord : Nat → Nat → W32

/-- Which of the free pool pages, free instruction frames or free places for shared data an allocation takes (05_ostler.md R115, R118,
R121 and R122, 07_microcode.md R157 name none): used modulo the number of candidates, by the free-value counter. -/
opaque pick : Nat → Nat

/-- A value that its 32-bit field cannot hold, where no rule says what the field shows (such as the counter period 2^32
in a BOUNDARY record, 05_ostler.md R131): by the value. -/
opaque noFit : Nat → W32

/-- The trim the Farrier computes for TRC from backup register 29 (02_time.md R28 states no formula). -/
opaque trcTrim : W32 → W32

/-- Whether a quotient of whole numbers is rounded up where no rule states its rounding (10_gait.md R236 and R237: P
after a recovery and the deadline; R256: the gap ratio; 11_probes.md R262: TSHORT in fines), by numerator and denominator. -/
opaque quotUp : Nat → Nat → Bool

/-- Whether the phase that a commutation step switches is in PWM_H, else PWM_C (09_motion.md speaks of "PWM" only), by step. -/
opaque commHigh : Nat → Bool

/-- The compare value that a bridge program writes for a duty, by the duty in 0.001 % and PRD (09_motion.md R221 names the duty; the
action words of the phase channels, and with them the value, are the program's own). -/
opaque dutyCmp : Nat → Nat → BitVec 48

/-- Whether an axis can stop from a speed within a distance when JERK is not 0 (09_motion.md R224 gives no formula), by
speed, DEC, JERK and distance. -/
opaque stopFits : Nat → Nat → Nat → Nat → Bool

/-- Bytes of engine shared data that programs can hold together (07_microcode.md R181 speaks of "the free shared data" and no
rule gives the size of the memory). -/
opaque sdTotal : Nat

/-- The level that a boundary-scan sample finds on a pin whose level the state does not hold (18_debug.md R403), by cell and
the counter of free choices. -/
opaque pinSample : Nat → Nat → Bool

end Sys2Proof.Config
end

