-- ==== Sys2Proof/Machine/Ops.lean ====
section
/-! DEFINITION. The shared operations over the state: updates of one block, time, the interrupt sources, basins and
their records, thread event queues, health reports, the spillway's discards and the event crossings. -/

namespace Sys2Proof.Machine

/-! ### Updates of one of many like blocks -/

def State.modUnit (s : State) (u : UnitId) (f : ChanUnit → ChanUnit) : State := { s with units := vmod s.units u f }
def State.modHar (s : State) (h : HarnessId) (f : Harness → Harness) : State := { s with har := vmod s.har h f }
def State.modThr (s : State) (t : Tid) (f : Thread → Thread) : State := { s with thr := vmod s.thr t f }
def State.modEng (s : State) (e : EngineId) (f : Engine → Engine) : State := { s with eng := vmod s.eng e f }
def State.modProg (s : State) (p : ProgId) (f : Prog → Prog) : State := { s with prog := vmod s.prog p f }
def State.modFrm (s : State) (i : Fin 128) (f : Frame → Frame) : State := { s with frm := vmod s.frm i f }
def State.modBas (s : State) (b : BasinId) (f : Basin → Basin) : State := { s with bas := vmod s.bas b f }
def State.modLMap (s : State) (l : Lch) (f : LMap → LMap) : State := { s with lmap := vmod s.lmap l f }
def State.modGt (s : State) (n : Fin 2) (f : Tracker → Tracker) : State := { s with gt := vmod s.gt n f }
def State.modConv (s : State) (c : Fin 2) (f : Conv → Conv) : State := { s with conv := vmod s.conv c f }
def State.modPrb (s : State) (p : Fin 16) (f : Probe → Probe) : State := { s with prb := vmod s.prb p f }
def State.modXing (s : State) (x : Fin 70) (f : Crossing → Crossing) : State := { s with xing := vmod s.xing x f }
def State.modSpw (s : State) (f : Spillway → Spillway) : State := { s with spw := f s.spw }
def State.modEnt (s : State) (i : Fin 256) (f : SpwEnt → SpwEnt) : State :=
  { s with spw := { s.spw with ent := vmod s.spw.ent i f } }

/-- Apply an update for each element of a list, in order. -/
def forEach {α : Type} (l : List α) (f : α → State → State) (s : State) : State := l.foldl (fun s a => f a s) s

/-- The indices 0 to n − 1. -/
def idxs (n : Nat) : List (Fin n) := List.finRange n

/-- The indices set in a mask. -/
def maskIdx (n : Nat) {w : Nat} (m : BitVec w) : List (Fin n) := (idxs n).filter fun i => bit m i.val

/-! ### Time (02_time.md R24, R25, R32) -/

/-- Now, as an instant. -/
def State.now (s : State) : Instant := s.tb.dt ++ fld s.tb.frac 30 2

/-- Now, as an event time (R25). -/
def State.nowEv (s : State) : EvTime := s.now.ev

/-- DT at a stamp of the recent past. -/
def stampDt (s : State) (stamp : EvTime) : W64 := s.tb.dt - ((s.nowEv - stamp) >>> 2).zeroExtend 64

/-- An injected failure of XTAL, the PLL, the tide crystal or TRC is held (17_health.md R377). -/
def State.clkHeld (s : State) (i : Fin 4) : Bool := decide (0 < (s.hlt.clkInj[i] - s.tb.dt).toInt)

/-- ROOT counts DT: in RUN, during the sleep-entry ladder before the latch, from the reseed of a wake on, while boot
waits, and during an L2 reset (R41); not while DT advances on the tide source. -/
def State.rootRuns (s : State) : Bool :=
  !s.tb.coarse &&
  match s.pwr.phase with
  | .run | .sleepEntry | .wakeReseeded | .bootWait | .bootHalt => true
  | .held => s.pwr.level == 2#2
  | _ => false

/-- Let time pass to the instant of an event; time never goes back (R24; log entry 4). -/
def advanceTo (t : Instant) (s : State) : State :=
  if s.rootRuns && decide (s.now.toNat < t.toNat) then
    { s with tb := { s.tb with dt := t.dt, frac := (t.truncate 2 : BitVec 2) ++ 0#30 } }
  else s

/-- Let the tide counter pass to the count of a tide edge, never back. -/
def tideTo (k : TideCnt) (s : State) : State :=
  if passed k s.rsv.tide then { s with rsv := { s.rsv with tide := k } } else s

/-- Elapsed ticks of `k` periods of one source, rounded half up (R30): the crystal's period is 390,625 / 8 ticks, TRC's
50,000 ticks; `e` is the source's error in ppb. -/
def tideTicks (trc : Bool) (e : W32) (k : Nat) : Nat :=
  let num : Int := (k : Int) * (if trc then 400000 else 390625) * (1000000000 + e.toInt)
  ((2 * num + 8000000000) / 16000000000).toNat

/-- Latch the tide pair at the present tide count (R448, sleep-entry step 3). -/
def latchPair (sleep : Bool) (s : State) : State :=
  { s with
    tb := { s.tb with pairX := s.tb.allowX, pairT := s.tb.allowT }
    rsv := { s.rsv with tpDt := s.tb.dt, tpTide := s.rsv.tide, tpValid := true, tpSleep := sleep,
                               tpSrc := s.rsv.onTrc, tpErrX := s.rsv.backup[28], tpErrT := s.rsv.backup[29] }
    rcd := { s.rcd with gapDt := none } }

/-- Two instants lie in one ENG cycle of 16 fines. -/
def sameEng (a b : Instant) : Bool := a >>> 4 == b >>> 4

/-- The engine's cycle count brought up to now: what its issues took, or what device time gave since the base (05_ostler.md R110).
A DT that was set back makes a new base. -/
def Engine.sync (g : Engine) (now : Instant) : Engine :=
  if now.toNat < g.at_.toNat then { g with clk0 := g.clk, at_ := now }
  else { g with clk := max g.clk (g.clk0 + (now.toNat - g.at_.toNat) / 16) }

/-- Cycles of ENG that device time passes while ENG is gated count for no engine. -/
def rebaseEngines (s : State) : State :=
  { s with eng := s.eng.map fun (g : Engine) => { g with clk0 := g.clk, at_ := s.now } }

/-! ### The Farrier watchdog (17_health.md R382) -/

/-- Ticks that the watchdog has counted since its last service. -/
def State.wdtTicks (s : State) : Nat := ((s.far.wdtStop.getD s.tb.dt) - s.far.wdtAt).toNat

/-- The watchdog stops: in SLEEP, and while the Farrier is halted. -/
def stopWdt (s : State) : State :=
  match s.far.wdtStop with
  | some _ => s
  | none => { s with far := { s.far with wdtStop := some s.tb.dt } }

/-- The watchdog counts on from where it stopped. -/
def goWdt (s : State) : State :=
  match s.far.wdtStop with
  | none => s
  | some d => { s with far := { s.far with wdtAt := s.far.wdtAt + (s.tb.dt - d), wdtStop := none } }

/-! ### Interrupt sources (15_interrupts.md) -/

/-- Latched sources (R335). -/
def irqLatched (i : Nat) : Bool :=
  decide (129 ≤ i ∧ i ≤ 136) || decide (173 ≤ i ∧ i ≤ 180) || i == 192 || i == 194 || i == 196 || i == 197 ||
  decide (200 ≤ i ∧ i ≤ 206) || decide (210 ≤ i ∧ i ≤ 223)

/-- A pulse of a latched source (R338, R339). -/
def pulse (i : Fin 256) (s : State) : State :=
  let q := s.irq
  let f := bit q.enF i; let h := bit q.enH i
  let tf := bit q.latF i || bit q.actF i; let th := bit q.latH i || bit q.actH i
  { s with irq := { q with
      latF := if f && !tf then setBit q.latF i true else q.latF
      latH := if h && !th then setBit q.latH i true else q.latH
      loss := if (f && tf) || (h && th) then vmod q.loss i satInc else q.loss } }

/-- The unit that the map gives a logical channel. -/
def unitOf (s : State) (l : Lch) : Option UnitId := idx? 68 s.lmap[l].pch.toNat

/-- The alert of a logical channel (04_channels.md R88). -/
def alertLevel (s : State) (l : Lch) : Bool :=
  match unitOf s l with
  | none => false
  | some u =>
    let c := s.units[u]
    let n (lo : Nat) : Bool := fld c.act lo 2 == 2#2
    c.held &&
    ((n 10 && bit c.flags 0) || (n 12 && bit c.flags 1) || (n 14 && bit c.flags 2) ||
     (n 16 && (bit c.flags 3 || bit c.flags 4 || bit c.flags 5)) || bit c.flags 6 || bit c.flags 9)

/-- The input of a level source; false for a latched source and for an ID never asserted (R335, R336). -/
def irqInput (s : State) (i : Nat) : Bool :=
  if i == 0 then false
  else if h : i ≤ 64 then s.bas[i - 1].thrOn
  else if h : i ≤ 128 then alertLevel s ⟨i - 65, by omega⟩
  else match i with
  | 137 => bit s.gt[0].flags 0 || bit s.gt[0].flags 2
  | 138 => bit s.gt[1].flags 0 || bit s.gt[1].flags 2
  | 139 => bit s.gt[0].flags 1 || bit s.gt[0].flags 3 || bit s.gt[0].flags 5
  | 140 => bit s.gt[1].flags 1 || bit s.gt[1].flags 3 || bit s.gt[1].flags 5
  | 190 => s.tb.xtalFailF
  | 191 => s.tb.pllUnlockF
  | 193 => s.rsv.trcFail
  | 195 => s.tb.terrRange
  | 207 => s.link.fault
  | 208 => s.spw.lateFlag
  | 209 => s.host.hostLost
  | 224 => bit s.rsv.wk 0
  | 225 => bit s.rsv.wk 1
  | 226 => bit s.rsv.wk 2
  | 227 => fld s.rsv.wk 3 8 != 0#8
  | _ =>
    match idx? 16 (i - 141), idx? 16 (i - 157) with
    | some h, _ => decide (141 ≤ i) && fld s.har[h].flt 0 22 != 0#22
    | none, some p => decide (157 ≤ i) && fld s.prb[p].flags 1 3 != 0#3
    | _, _ => false

/-- Pending at target F (R337, R338). -/
def pendF (s : State) (i : Nat) : Bool :=
  bit s.irq.enF i && !bit s.irq.actF i && (bif irqLatched i then bit s.irq.latF i else irqInput s i)

/-- Pending at target H. -/
def pendH (s : State) (i : Nat) : Bool :=
  bit s.irq.enH i && !bit s.irq.actH i && (bif irqLatched i then bit s.irq.latH i else irqInput s i)

/-! ### Free choices -/

/-- One element of a list that the spec does not say which (Config.pick), and the counter moved on. -/
def choose {α : Type} (l : List α) (d : α) (s : State) : α × State :=
  (l.getD (Config.pick s.far.free % l.length) d, { s with far := { s.far with free := s.far.free + 1 } })

/-- A quotient whose rounding no rule states (log entry 7). -/
def openDiv (a b : Nat) : Nat := a / b + (if a % b ≠ 0 ∧ Config.quotUp a b then 1 else 0)

/-! ### Basins (05_ostler.md R121 to R129, R136) -/

/-- Records stored and not consumed. -/
def Basin.occ (b : Basin) : Nat := (b.wrCnt - b.rdCnt).toNat

/-- The page the writer will take next holds unread records. -/
def Basin.nextUnread (b : Basin) : Bool :=
  decide (0 < b.occ) && decide (64 * b.ring.length ≤ b.occ + b.rdCnt.toNat % 64)

/-- Pages of the ring that hold unread records, the write page counted always. -/
def Basin.pagesNeeded (b : Basin) : Nat := max 1 ((b.occ + b.rdCnt.toNat % 64 + 63) / 64)

/-- Pool pages free. -/
def State.poolFree (s : State) : Nat := ((List.range 256).filter (bit s.ost.pageFree)).length

/-- Take a page from the pool. -/
def takePage (s : State) : Option (Byte × State) :=
  match (List.range 256).filter (bit s.ost.pageFree) with
  | [] => none
  | p :: r =>
    let (n, s) := choose (p :: r) p s
    some (BitVec.ofNat 8 n, { s with ost := { s.ost with pageFree := setBit s.ost.pageFree n false } })

/-- Give pages back to the pool. -/
def freePages (l : List Byte) (s : State) : State :=
  { s with ost := { s.ost with pageFree := l.foldl (fun m p => setBit m p.toNat true) s.ost.pageFree } }

/-- Return consumed pages to the pool while HELD exceeds FLOOR (R123). -/
def releasePages (b : BasinId) (s : State) : State :=
  let k := s.bas[b]
  let n := min (k.ring.length - k.pagesNeeded) (k.ring.length - k.floor.toNat)
  match k.ring with
  | [] => s
  | w :: rest => freePages (rest.take n) (s.modBas b fun k => { k with ring := w :: rest.drop n })

/-- Injected marks on words `lo` to `hi` of memory `m` go with a write to them (17_health.md R392). -/
def clearMarks (m : Byte) (lo hi : Nat) (s : State) : State :=
  { s with hlt := { s.hlt with
      marks := s.hlt.marks.filter fun k => !(k.1 == m && decide (lo ≤ k.2.1.toNat) && decide (k.2.1.toNat ≤ hi)) } }

/-- The 16 bytes of a record (R130). -/
def recBytes (r : Rec) (seq : Byte) : List Byte :=
  leBytes 6 r.time.toNat ++ [r.kind, r.src, r.flags, seq] ++ leBytes 2 r.aux.toNat ++ leBytes 4 r.data.toNat

/-- The oldest unread record has waited AGE ms (R126). -/
def Basin.old (k : Basin) (now : W64) : Bool :=
  k.age != 0 && match k.arr with | d :: _ => decide (1600000 * k.age.toNat ≤ (now - d).toNat) | [] => false

/-- The oldest `n` records leave the basin (R125, R127). -/
def Basin.consume (k : Basin) (n : Nat) (now : W64) : Basin :=
  let k := { k with rdCnt := k.rdCnt + BitVec.ofNat 32 n, arr := k.arr.drop n }
  { k with aged := k.aged && k.old now }

/-- Bring the writer to the slot of the next record (R122, R127): the state and, where a page was discarded by
overwrite, the number of records discarded; none when there is no room. -/
def makeRoom (b : BasinId) (s : State) : Option (State × Nat) :=
  let k := s.bas[b]
  if k.wrCnt.toNat % 64 ≠ 0 then some (s, 0)
  else if !k.nextUnread then some (s.modBas b fun k => { k with ring := k.ring.rotateLeft }, 0)
  else
    let grown := if decide (k.ring.length < k.ceil.toNat) && (decide (4 < s.poolFree) || b == 63) then takePage s else none
    match grown with
    | some (p, s) => some (s.modBas b fun k => { k with ring := p :: (k.ring.drop 1 ++ k.ring.take 1) }, 0)
    | none =>
      if k.policy = 1#2 then
        let n := 64 - k.rdCnt.toNat % 64
        some (s.modBas b fun k => { (k.consume n s.tb.dt) with disc := satAdd k.disc n, ring := k.ring.rotateLeft }, n)
      else none

/-- Write a record into the slot the writer stands at and count it (R124). -/
def storeRecord (b : BasinId) (r : Rec) (s : State) : State :=
  let k := s.bas[b]
  let slot := k.wrCnt.toNat % 64
  let page := (k.ring.headD 0).toNat
  let s := { s with bmem := memPut s.bmem (0x400 * page + 16 * slot) (recBytes r (k.wrCnt.truncate 8)) }
  clearMarks 4 (128 * page + 2 * slot) (128 * page + 2 * slot + 1) 
    (s.modBas b fun k => { k with wrCnt := k.wrCnt + 1, arr := k.arr ++ [s.tb.dt] })

/-- Whether the threshold source of a basin shall be asserted (R126). -/
def Basin.thrLevel (k : Basin) : Bool :=
  k.open_ && ((k.thresh != 0 && decide (k.thresh.toNat ≤ k.occ)) || (k.age != 0 && k.aged && decide (0 < k.occ)))

/-- A record that B63 cannot store is counted; the first of an episode sets OVF and raises source 203 (R129). -/
def loseB63 (s : State) : State :=
  let s1 := { s with ost := { s.ost with lostB63 := satInc s.ost.lostB63 } }
  let s2 := s1.modBas 63 fun k => { k with drop := satInc k.drop, ovf := true }
  if s.bas[63].ovf then s2 else pulse 203 s2

/-- Store a record in B63 where there is room. -/
def putB63 (r : Rec) (s : State) : State :=
  match makeRoom 63 s with
  | none => loseB63 s
  | some (s1, _) => storeRecord 63 r s1

/-- Post a record to B63 (R129, R132): a LOST record precedes the first that can be stored after a loss. DESIGN CHOICE (log entry
40): where the LOST record takes the only slot left, the record itself is lost and begins a new episode. -/
def postB63 (r : Rec) (s : State) : State :=
  let s :=
    if !s.bas[63].open_ then { s with ost := { s.ost with lostB63 := satInc s.ost.lostB63 } }
    else if s.ost.lostB63 = 0#32 then putB63 r s
    else match makeRoom 63 s with
      | none => loseB63 s
      | some (s1, _) =>
        let lost : Rec := { time := s1.nowEv, kind := 0x1C, src := 63, flags := 0, aux := 0, data := s1.ost.lostB63 }
        let s2 := storeRecord 63 lost s1
        putB63 r ({ s2 with ost := { s2.ost with lostB63 := 0 } }.modBas 63 fun k => { k with ovf := false })
  s.modBas 63 fun k => { k with thrOn := k.thrLevel }

/-- A system record with FLAGS 0 (R132). -/
def sysRec (time : EvTime) (kind src : Byte) (aux : W16) (data : W32) : Rec :=
  { time := time, kind := kind, src := src, flags := 0, aux := aux, data := data }

/-! ### Thread event queues (05_ostler.md R109, R111, 07_microcode.md R160) -/

/-- The engine of a slot. -/
def slotEng (slot : BitVec 6) : EngineId := ⟨slot.toNat / 8, by omega⟩

/-- Rank of a thread: class, then PRIO (05_ostler.md R107). -/
def Thread.rank (t : Thread) : Nat := (if t.rt then 16 else 0) + t.prio.toNat

/-- The threads that stall on something, higher rank and lower TID first. -/
def State.stalled (s : State) (why : Stall) : List Tid :=
  (List.range 32).reverse.flatMap fun r =>
    (idxs 64).filter fun t => s.thr[t].st == .stall && s.thr[t].stallOn == why && s.thr[t].rank == r

/-- The debugger holds a thread that would be READY in HALT: a request on it or on its engine, and no step under way
(18_debug.md R410). -/
def State.holdsThread (s : State) (tid : Tid) : Bool :=
  let t := s.thr[tid]
  (t.haltReq || s.eng[slotEng t.slot].halted) && !t.stepping

/-- READY, or HALT under the debugger. -/
def State.readyState (s : State) (tid : Tid) : TState := if s.holdsThread tid then .halt else .ready

/-- Write a register of a thread; g0 discards writes (R153). -/
def Ctx.setG (c : Ctx) (r : BitVec 4) (v : W64) : Ctx := if r = 0#4 then c else { c with g := c.g.set r.toNat v (by omega) }

/-- Read a register of a thread; g0 reads 0 (R153). -/
def Ctx.getG (c : Ctx) (r : BitVec 4) : W64 := if r = 0#4 then 0 else c.g[r.toNat]

/-- The descriptor of an event (R160). -/
def Ev.desc (e : Ev) : W64 := e.data ++ e.arg ++ e.src ++ e.kind

/-- A thread takes an event into its register pair: an activation begins, and the 2 cycles of the wait are its first (R114,
R160; the 15 cycles of 18_debug.md's worked example). -/
def Thread.take (t : Thread) (e : Ev) : Thread :=
  { t with ctx := (t.ctx.setG t.waitRd e.desc).setG (t.waitRd + 1) (e.time.zeroExtend 64), waiting := false,
           cyc := some 2, ovrDone := false, lossDone := false }

/-- A thread in WAIT with an event queued takes the oldest, and halts then if it was being stepped (18_debug.md R410). -/
def Thread.wake (t : Thread) : Thread :=
  match t.st, t.evq with
  | .wait, e :: r =>
    let t := { t with evq := r }.take e
    if t.stepping then { t with st := .halt, stepping := false } else { t with st := .ready }
  | _, _ => t

/-- An event enters a thread's queue, or is dropped at a full queue (R111). A FREE or STOPPED thread takes none. -/
def enqueue (tid : Tid) (e : Ev) (s : State) : State :=
  let t := s.thr[tid]
  match t.st with
  | .free | .stopped => s
  | _ =>
    if t.evq.length < 8 then
      let g := (s.eng[slotEng t.slot]).sync s.now
      let from_ := g.clk + (bif g.doze then 4 else 0)
      (s.modEng (slotEng t.slot) fun _ => g).modThr tid fun t =>
        { ({ t with evq := t.evq ++ [e] } : Thread).wake with busy := bif t.st == .wait then max t.busy from_ else t.busy }
    else
      let loss := satInc t.evqLoss
      let s := s.modThr tid fun t => { t with evqLoss := loss, lossDone := true }
      if t.lossDone then s else postB63 (sysRec s.nowEv 0x1B (BitVec.ofNat 8 tid.val) 0 (loss.zeroExtend 32)) s

/-- Bring the threshold source of a basin up to date; its subscribers get one event when it asserts (R126). -/
def thrEval (b : BasinId) (s : State) : State :=
  let k := s.bas[b]
  let s1 := s.modBas b fun k => { k with thrOn := k.thrLevel }
  if k.thrLevel && !k.thrOn then
    forEach ((idxs 64).filter fun t => bit s.thr[t].subB b.val)
      (fun t => enqueue t { kind := 3, src := BitVec.ofNat 8 b.val, arg := 0, data := BitVec.ofNat 32 k.occ, time := s.nowEv })
      s1
  else s1

/-- A BASIN_OVERFLOW record (R128). -/
def postOverflow (b : BasinId) (aux : W16) (n : Nat) (s : State) : State :=
  postB63 (sysRec s.nowEv 0x1A (BitVec.ofNat 8 b.val) aux (satNat 32 n)) s

/-- Count a record dropped by a basin other than B63 (R128). -/
def dropRecord (b : BasinId) (s : State) : State :=
  let k := s.bas[b]
  let s := s.modBas b fun k => { k with drop := satInc k.drop, ovf := true, epi := if k.ovf then satInc k.epi else 1 }
  if k.ovf then s else postOverflow b 0 0 (pulse 203 s)

/-- Post a record to a basin other than B63: the state, and whether it was stored. -/
def postTo (b : BasinId) (r : Rec) (s : State) : State × Bool :=
  if !s.bas[b].open_ then (s, true)
  else match makeRoom b s with
    | none => (dropRecord b s, false)
    | some (s, n) =>
      let s := storeRecord b r s
      let s := if n = 0 then s else postOverflow b 2 n s
      let k := s.bas[b]
      let s := if k.ovf then postOverflow b 1 k.epi.toNat (s.modBas b fun k => { k with ovf := false, epi := 0 }) else s
      (thrEval b s, true)

/-- Post a record to a basin by hardware: under the stall policy a record without room is dropped (R127). A post to a
basin that is not open is dropped and counted nowhere (04_channels.md R88). -/
def postBasin (b : BasinId) (r : Rec) (s : State) : State := if b = 63 then postB63 r s else (postTo b r s).1

/-! ### Health reports (17_health.md R378, R390, R400) -/

/-- The report of a detector event (R400): event code 4 marks the item failed, 6 a trip in force, 7 its end. -/
def detEvent (cls idx : Byte) (ev : Byte) (inj : Bool) (data : W32) (s : State) : State :=
  let d := (s.hlt.det.find? fun d => d.cls == cls && d.idx == idx).getD { Det.reset with cls := cls, idx := idx }
  let st := if ev = 4 then setBit d.st 0 true else if ev = 6 then setBit d.st 1 true else if ev = 7 then setBit d.st 1 false else d.st
  let d := { d with events := satInc d.events, st := setBit st 2 inj, lastDt := s.tb.dt, last := data }
  { s with hlt := { s.hlt with det := d :: s.hlt.det.filter fun d => !(d.cls == cls && d.idx == idx) } }

/-- Post a HEALTH record (R378) and keep its report. -/
def health (cls idx ev : Byte) (inj : Bool) (data : W32) (s : State) : State :=
  let s := detEvent cls idx ev inj data s
  postB63 (sysRec s.nowEv 0x20 cls ((ev ||| (bif inj then 0x80 else 0)) ++ idx) data) s

/-- Set a bit of the REPLACE cause mask (R390); a cause set only by injection is kept apart (R393). -/
def setCause (i : Nat) (inj : Bool) (s : State) : State :=
  let h := s.hlt
  let s1 := { s with hlt := { h with cause := setBit h.cause i true,
                                     causeInj := setBit h.causeInj i (inj && (!bit h.cause i || bit h.causeInj i)) } }
  if bit h.cause i then s1 else pulse 219 s1

/-! ### Spillway discards (06_spillway.md R146, R148, R152) -/

/-- Indices of the valid entries that satisfy a test. -/
def State.entries (s : State) (p : SpwEnt → Bool) : List (Fin 256) :=
  (idxs 256).filter fun i => s.spw.ent[i].valid && p s.spw.ent[i]

/-- Remove entries from the store and from the wait for X78. -/
def dropEntries (l : List (Fin 256)) (s : State) : State :=
  s.modSpw fun w => { w with
    ent := l.foldl (fun v i => vmod v i fun e => { e with valid := false, conf := false }) w.ent
    x78 := w.x78.filter fun i => !l.any fun j => j.val == i.toNat }

/-- Discard the unconfirmed entries that satisfy a test, counted as WITHDRAWN (R146). -/
def withdraw (p : SpwEnt → Bool) (s : State) : State :=
  let l := s.entries fun e => !e.conf && p e
  (dropEntries l s).modSpw fun w => { w with withdrawn := satAdd w.withdrawn l.length }

/-! ### Thread stop and release -/

/-- Stop a thread (05_ostler.md R109, R132): STOPPED, THREAD_STOP with the reason, source 204; its unconfirmed
entries are withdrawn (R146). -/
def stopThread (reason : W16) (tid : Tid) (s : State) : State :=
  let slot := s.thr[tid].slot
  let s := s.modThr tid fun t => { t with st := .stopped, stallOn := .none, stallPost := none, stallArm := none, cyc := none, waiting := false,
                                          stepping := false, timer := none }
  let s := withdraw (fun e => e.owner == BitVec.ofNat 8 tid.val) s
  let s := postB63 (sysRec s.nowEv 0x17 (BitVec.ofNat 8 tid.val) reason (slot.zeroExtend 32)) s
  let s := { s with far := { s.far with tabThr := vmod s.far.tabThr tid fun e => { e with st := .stopped } } }
  pulse 204 s

/-- Free a thread: its slot returns to its engine. -/
def freeThread (tid : Tid) (s : State) : State :=
  let t := s.thr[tid]
  if t.st = .free then s
  else
    let s := s.modEng (slotEng t.slot) fun e =>
      { e with threads := e.threads - 1, rtLoad := e.rtLoad - t.load.zeroExtend 11 }
    let s := { s with far := { s.far with tabThr := vmod s.far.tabThr tid fun _ => TabThr.reset } }
    s.modThr tid fun t => { Thread.reset with ctx := { Ctx.reset with tlm := t.ctx.tlm } }

/-! ### Event crossings (03_crossings.md R53, R54) -/

/-- ENG is gated in SLEEP and in walk mode, so that nothing leaves an event crossing (R65). -/
def State.engGated (s : State) : Bool :=
  match s.pwr.phase with
  | .sleep | .wakePll | .wakeLocked | .wakeReseeded | .walk => true
  | _ => false

/-- `n` events of one run are dropped at a full FIFO: each is counted, and the run is reported once. -/
def dropEvents (x : Fin 70) (n : Nat) (s : State) : State :=
  let c := s.xing[x]
  let cnt := satAdd c.ovrCnt n
  let s := s.modXing x fun c => { c with ovrCnt := cnt, ovrFlag := true, inRun := true, late := 0 }
  let s := detEvent 0x05 (BitVec.ofNat 8 x.val) 0 false (cnt.zeroExtend 32) s
  if c.inRun then s
  else pulse 206 (postB63 (sysRec s.nowEv 0x12 (BitVec.ofNat 8 x.val) 0 ((satInc c.ovrCnt).zeroExtend 32)) s)

/-- X68 and X69 end in SYS, which takes an event within 2 of its cycles of 32 fines, whatever the Farrier does (R53). -/
def Crossing.settle (c : Crossing) (x : Fin 70) (now : Instant) : Crossing :=
  if x.val < 68 then c else { c with fifo := c.fifo.filter fun e => decide (now.toNat < e.at_.toNat + 64) && decide (e.at_.toNat ≤ now.toNat) }

/-- An event enters a crossing, or is dropped at a full FIFO; a drop while ENG is gated is counted at the release of the
clocks (R65). -/
def pushEvent (x : Fin 70) (e : XEv) (s : State) : State :=
  let s := s.modXing x fun c => c.settle x s.now
  let c := s.xing[x]
  if c.fifo.length < 4 then s.modXing x fun c => { c with fifo := c.fifo ++ [{ e with at_ := s.now }], inRun := false }
  else if s.engGated then s.modXing x fun c => { c with late := c.late + 1 }
  else dropEvents x 1 s

/-- Drops while ENG was gated are counted (R65). -/
def countLate (s : State) : State :=
  forEach (idxs 70) (fun x s => if 0 < s.xing[x].late then dropEvents x s.xing[x].late s else s) s

end Sys2Proof.Machine
end

