-- ==== Sys2Proof/Machine/Gate.lean ====
section
/-! DEFINITION. Gates of the power harnesses: what a member channel's output and the harness state make of the pre-driver
gates, the windows of a bank and their deferral (08_power_harnesses.md R188, R193, R196 to R202, R204 to R206). -/

namespace Sys2Proof.Machine

/-- A bank or a bridge (power class). -/
def Harness.power (k : Harness) : Bool := k.kind == 1#3 || k.kind == 2#3

/-- The channel of member `m` of a bank, bridge or axis. -/
def Harness.memberCh (k : Harness) (m : Nat) : Option Lch :=
  if bit k.mch (8 * m + 7) then some (bvFin 64 rfl (fld k.mch (8 * m) 6)) else none

/-- The member channels of a harness of any kind. -/
def Harness.channels (k : Harness) : List Lch :=
  if k.kind = 0#3 then [] else if k.kind = 4#3 then maskIdx 64 k.grp else (List.range 4).filterMap k.memberCh

/-- The low-side driver of a member or phase: a bank's MLS, or the bridge's own. -/
def Harness.ls (k : Harness) (m : Nat) : Nat := if k.kind = 1#3 then (fld k.mls (4 * m) 4).toNat else k.hsd.toNat + m

/-- The high-side drivers of the harness. -/
def Harness.hss (k : Harness) : List Nat :=
  if k.kind = 1#3 then [k.hsd.toNat] else if k.kind = 2#3 then [k.hsd.toNat, k.hsd.toNat + 1, k.hsd.toNat + 2] else []

/-- The power harness and the member that a channel belongs to. -/
def powerMember (s : State) (l : Lch) : Option (HarnessId × Fin 4) :=
  (idxs 16).findSome? fun h =>
    let k := s.har[h]
    if k.power then ((idxs 4).find? fun m => k.memberCh m.val == some l).map fun m => (h, m) else none

/-- The channel drives a gate-command line (04_channels.md R70, R76). -/
def gateLine (s : State) (l : Lch) : Bool := (powerMember s l).isSome

/-- Phase state of phase `p` (R204). -/
def Harness.phaseOf (k : Harness) (p : Nat) : BitVec 3 := fld k.phase (3 * p) 3

/-- Gates may be on: not in SAFE or FAULT (R190). -/
def Harness.live (k : Harness) : Bool := k.hstate = .idle || k.hstate = .run

/-- A member's window is open and its start is not deferred. -/
def Harness.started (k : Harness) (m : Nat) : Bool := bit k.win m && !bit k.defd m

/-- Members whose windows have started. -/
def Harness.startedCount (k : Harness) : Nat := ((List.range 4).filter k.started).length

/-- The regulator holds member or phase `m` off (R196, R206). -/
def Harness.chopped (k : Harness) (m : Nat) : Bool := match idx? 4 m with | some m => k.mem[m].off | none => false

/-- The output level of a logical channel's unit. -/
def levelOf (s : State) (l : Option Lch) : Bool :=
  match l with
  | none => false
  | some l => match unitOf s l with | some u => s.units[u].level | none => false

/-- The drivers of a harness (HG0 to HG5 as 0 to 5, LG0 to LG11 as 6 to 17) and whether each shall be on; none while the
P-die has cut them (R207, R210). -/
def gateTargets (s : State) (k : Harness) : List (Nat × Bool) :=
  let up := k.live && !k.cut
  if k.kind = 1#3 then
    let hg := up && decide (0 < k.startedCount) && (k.regLs || !(List.range 4).any fun m => k.started m && k.chopped m)
    (k.hsd.toNat, hg) ::
      ((List.range 4).filter fun m => (k.memberCh m).isSome).map fun m =>
        (6 + k.ls m, up && k.started m && !(k.regLs && k.chopped m))
  else if k.kind = 2#3 then
    (List.range 3).flatMap fun p =>
      let lv := levelOf s (k.memberCh p)
      let (h, l) := match (k.phaseOf p).toNat with
        | 1 => (false, true)
        | 2 => (true, false)
        | 3 => (lv, !lv)
        | 4 => (lv, false)
        | 5 => (false, !k.chopped p)
        | _ => (false, false)
      [(k.hsd.toNat + p, up && h), (6 + k.hsd.toNat + p, up && l)]
  else []

/-- Switch one driver at a time; a driver that was off takes the time of its turn-on (R203). -/
def LinkBlk.drive (l : LinkBlk) (d : Nat) (on : Bool) (t : EvTime) : LinkBlk :=
  let l := match idx? 18 d with
    | some i => { l with onAt := if on && !(if d < 6 then bit l.hg d else bit l.lg (d - 6)) then l.onAt.set i t else l.onAt }
    | none => l
  if d < 6 then { l with hg := setBit l.hg d on, deadOn := setBit l.deadOn d false }
  else { l with lg := setBit l.lg (d - 6) on, deadOn := setBit l.deadOn d false }

/-- A driver is on. -/
def LinkBlk.isOn (l : LinkBlk) (d : Nat) : Bool := if d < 6 then bit l.hg d else bit l.lg (d - 6)

/-- The phase of a bridge that a driver serves. -/
def Harness.phaseDrv (k : Harness) (d : Nat) : Nat := (if d < 6 then d else d - 6) - k.hsd.toNat

/-- Bring the gates of a harness to what its windows, phases and channels ask (R197, R204). A bridge driver that turns
on waits for DEADT. `pulse` tells that a channel's edge asks for it: a driver that waited and is withdrawn by one had a pulse shorter
than DEADT, which sets NARROW on its phase channel (R205). -/
def regateBy (pulse : Bool) (h : HarnessId) (s : State) : State :=
  let k := s.har[h]
  forEach (gateTargets s k)
    (fun (d, on) s =>
      if !on then
        let s1 := { s with link := s.link.drive d false s.nowEv }
        let p := k.phaseDrv d
        if pulse && k.kind = 2#3 && bit s.link.deadOn d && (k.phaseOf p = 3#3 || k.phaseOf p = 4#3) then
          match (k.memberCh p).bind (unitOf s) with
          | some u => s1.modUnit u fun c => { c with flags := setBit c.flags 8 true }
          | none => s1
        else s1
      else if s.link.isOn d then s
      else if k.kind = 2#3 then
        if bit s.link.deadOn d then s
        else match idx? 18 d with
          | some i => { s with link := { s.link with deadOn := setBit s.link.deadOn d true, dueAt := s.link.dueAt.set i s.nowEv } }
          | none => s
      else { s with link := s.link.drive d true s.nowEv })
    s

/-- The same where no channel's edge asks for it. -/
def regate (h : HarnessId) (s : State) : State := regateBy false h s

/-- DEADT and TBLANK of a harness in fines (R205, R207). -/
def Harness.deadt (k : Harness) : Nat := 8 * (fld k.w14 16 12).toNat
def Harness.blank (k : Harness) : Nat := 320 * (fld k.w18 16 8).toNat

/-- Every window closed, every phase floating, no driver regulated off. -/
def Harness.idleGates (k : Harness) : Harness :=
  { k with win := 0, defd := 0, peak := 0, phase := 0, regLs := false, ovEnd := none
           mem := k.mem.map fun m => { m with off := false, winLen := 0 } }

/-- IDLE or RUN by the windows and phases (R190). -/
def Harness.settle (k : Harness) : Harness :=
  if k.live then { k with hstate := if k.win = 0 && k.phase = 0 then .idle else .run } else k

/-- Take up a LEVELS action that waits for the member's next start or phase switch (R191). -/
def Harness.takeLevels (k : Harness) (m : Fin 4) : Harness :=
  match k.mem[m].lvl with
  | none => k
  | some v => { k with mem := vmod k.mem m fun x => { x with w0 := setFld x.w0 8 24 v, lvl := none } }

/-- Begin a member's window on the gates: LEVELS that waits applies, and a peak-and-hold member begins its peak (R191,
R196); two windows together let the low sides regulate (R197). -/
def Harness.startMember (k : Harness) (m : Fin 4) (t : EvTime) : Harness :=
  let k := k.takeLevels m
  let k : Harness := { k with defd := setBit k.defd m.val false
                              mem := vmod k.mem m fun x => { x with off := false, start := t, sw := t, winLen := 0 } }
  let k : Harness := if fld k.mem[m].w0 0 2 = 1#2 then { k with peak := setBit k.peak m.val true } else k
  if decide (2 ≤ Harness.startedCount k) then { k with regLs := true, ovEnd := none } else k

/-- A peak has ended: the deferred member with the earliest request starts, ties to the lower number (R199, R200). -/
def Harness.startDeferred (k : Harness) (t : EvTime) : Harness :=
  if k.peak ≠ 0 then k
  else
    let pick : Option (Fin 4) := ((idxs 4).filter fun m => bit k.defd m.val).foldl
      (fun b m => match b with
        | none => some m
        | some j => if evDiff k.mem[m].req k.mem[j].req < 0 then some m else some j) none
    match pick with | some m => k.startMember m t | none => k

/-- A member's window has ended: its length is kept where it had started, and the end of an overlap; with no window left nothing
regulates (R197, R207). -/
def Harness.endMember (k : Harness) (m : Fin 4) (t : EvTime) : Harness :=
  let ran := k.started m.val
  let before := k.startedCount
  let k : Harness := { k with
    win := setBit k.win m.val false, defd := setBit k.defd m.val false, peak := setBit k.peak m.val false
    mem := vmod k.mem m fun x => { x with off := false, winLen := if ran then t - x.start else x.winLen } }
  if k.startedCount = 0 then { k with regLs := false, ovEnd := none }
  else if decide (2 ≤ before) && decide (k.startedCount < 2) then { k with ovEnd := some t } else k

/-- A member of a higher number that began its peak at the same P clock edge, 32 fines apart on event time: it gives way
to member `m` and is deferred (R200, DEDUCED). -/
def Harness.giveWay (k : Harness) (m : Fin 4) (t : EvTime) : Harness :=
  match (idxs 4).find? fun j => decide (m.val < j.val) && bit k.peak j.val && k.mem[j].req.toNat / 32 == t.toNat / 32 with
  | some j => { k with peak := setBit k.peak j.val false, defd := setBit k.defd j.val true }
  | none => k

/-- A member's output has gone high: its window starts, or is deferred (R196, R199, R200). -/
def windowOpen (h : HarnessId) (m : Fin 4) (t : EvTime) (s : State) : State :=
  let k := s.har[h]
  let k := { k with win := setBit k.win m.val true, mem := vmod k.mem m fun x => { x with req := t } }
  let ph : Bool := fld k.mem[m].w0 0 2 == 1#2
  let k := if ph then Harness.giveWay k m t else k
  let k := if ph && k.peak != 0 then { k with defd := setBit k.defd m.val true } else k.startMember m t
  regate h (s.modHar h fun _ => k.settle)

/-- A BANK_CANCEL record (R202). -/
def postCancel (h : HarnessId) (m : Fin 4) (limit : Nat) (s : State) : State :=
  let k := s.har[h]
  let s := s.modHar h fun k => { k with cancelCnt := satInc k.cancelCnt }
  postB63 (sysRec k.mem[m].req 0x15 (BitVec.ofNat 8 h.val) (BitVec.ofNat 16 m.val) (satNat 32 limit)) s

/-- A member's output has gone low: its window ends; a start still deferred is cancelled (R201, R202). -/
def windowClose (h : HarnessId) (m : Fin 4) (t : EvTime) (s : State) : State :=
  let k := s.har[h]
  if !bit k.win m.val then s
  else
    let s1 := regate h (s.modHar h fun _ => ((k.endMember m t).startDeferred t).settle)
    if bit k.defd m.val then
      postCancel h m (min ((fld k.w14 0 8).toNat * 6400) (t - k.mem[m].req).toNat) s1
    else s1

/-- The output of a channel has changed at time `t`: the gate-command line follows (R70, R196, R204). -/
def gateReact (l : Lch) (t : EvTime) (s : State) : State :=
  match powerMember s l with
  | none => s
  | some (h, m) =>
    let k := s.har[h]
    if !k.live then s
    else if k.kind = 1#3 then
      if levelOf s (some l) then (if bit k.win m.val then s else windowOpen h m t s) else windowClose h m t s
    else regateBy true h s

end Sys2Proof.Machine
end

