-- ==== Sys2Proof/Machine/Chan.lean ====
section
/-! DEFINITION. Shared operations on channel units: the fields of CTRL, the local counter, the pins and the selected input, and
notifies (04_channels.md). -/

namespace Sys2Proof.Machine

/-! ### Fields of the CTRL word (R101) -/

def ChanUnit.en (c : ChanUnit) : Bool := bit c.ctrl 0
def ChanUnit.mode (c : ChanUnit) : BitVec 2 := fld c.ctrl 1 2
def ChanUnit.upd (c : ChanUnit) : BitVec 3 := fld c.ctrl 3 3
def ChanUnit.lock (c : ChanUnit) : Bool := bit c.ctrl 6
def ChanUnit.sleepRun (c : ChanUnit) : Bool := bit c.ctrl 7
def ChanUnit.capm (c : ChanUnit) : BitVec 2 := fld c.ctrl 8 2
def ChanUnit.safe (c : ChanUnit) : BitVec 2 := fld c.ctrl 14 2
def ChanUnit.insel (c : ChanUnit) : BitVec 6 := fld c.ctrl 24 6
def ChanUnit.lchId (c : ChanUnit) : Lch := bvFin 64 rfl c.lch

/-- Set a flag of word 0x50. -/
def ChanUnit.flag (c : ChanUnit) (i : Nat) : ChanUnit := { c with flags := setBit c.flags i true }

/-! ### The local counter (R78, R79) -/

/-- Length of a pass in counts. -/
def ChanUnit.passCounts (c : ChanUnit) : Nat :=
  if c.mode = 3#2 then 2 * c.prdRun.toNat else c.prdRun.toNat + 1

/-- Counter position and direction at a time, by R79's equations. -/
def ChanUnit.position (c : ChanUnit) (now : EvTime) : W32 × Bool :=
  let e := (now - c.porg).toNat / 8 % max 1 c.passCounts
  let p := c.prdRun.toNat
  if c.mode = 1#2 then (BitVec.ofNat 32 e, false)
  else if c.mode = 2#2 then (BitVec.ofNat 32 (p - e), true)
  else if e ≤ p then (BitVec.ofNat 32 e, false) else (BitVec.ofNat 32 (2 * p - e), true)

/-- CNT as it reads now: the counter while it runs, the stopped position otherwise. -/
def ChanUnit.cntNow (c : ChanUnit) (now : EvTime) : W32 :=
  if c.en && c.mode != 0#2 then (c.position now).1 else c.cnt

/-- DIR as it reads now. -/
def ChanUnit.dirNow (c : ChanUnit) (now : EvTime) : Bool :=
  if c.en && c.mode != 0#2 then (c.position now).2 else c.dir

/-- PORG at an enable at time `t` (R79). -/
def ChanUnit.porgAt (c : ChanUnit) (t : EvTime) : EvTime :=
  let back : Nat :=
    if c.mode = 1#2 then c.cnt.toNat
    else if c.mode = 2#2 then c.prd.toNat - c.cnt.toNat
    else if c.dir then 2 * c.prd.toNat - c.cnt.toNat else c.cnt.toNat
  t - BitVec.ofNat 48 (8 * back)

/-- EN goes from 1 to 0: compares disarmed in free mode, counter stopped in local mode (R73). -/
def ChanUnit.stop (c : ChanUnit) (now : EvTime) : ChanUnit :=
  if !c.en then c
  else
    let c1 := if c.mode = 0#2 then { c with armA := false, armB := false, disA := none, disB := none }
      else { c with cnt := (c.position now).1, dir := (c.position now).2 }
    { c1 with ctrl := setBit c.ctrl 0 false }

/-! ### Instants near now -/

/-- The instant of an event time within half its circle of now. -/
def State.inst (s : State) (e : EvTime) : Instant := s.now + (e - s.nowEv).signExtend 66

/-- Two instants lie in one FAB cycle. -/
def sameCycle (a b : Instant) : Bool := a >>> 3 == b >>> 3

/-- The later of two event times within half the circle of each other. -/
def later (a b : EvTime) : EvTime := if 0 < evDiff b a then b else a

/-! ### Pins and the selected input (R69 to R71, R450) -/

/-- The output of a unit at an instant: its level and whether it is high-impedance (R87, R94). -/
def ChanUnit.out (c : ChanUnit) (t : Instant) : Bool × Bool :=
  match c.outOld with
  | some (at_, lv, hz) => if t.toNat < at_.toNat then (lv, hz) else (c.level, c.hiz)
  | none => (c.level, c.hiz)

/-- The open channel whose output a TIO pin shows, none when the pin is not driven by the device (R69, R70). -/
def tioDriver (s : State) (k : Fin 40) : Option Lch :=
  let w := s.tio[k]
  match idx? 64 (fld w 0 7).toNat with
  | none => none
  | some l => if bit w 7 && s.lmap[l].open_ && !gateLine s l then some l else none

/-- EXTEST, CLAMP or HIGHZ cuts the pins of the boundary chain from their logic (18_debug.md R404). -/
def State.pinsCut (s : State) : Bool := s.dbg.ir == 0 || s.dbg.ir == 3 || s.dbg.ir == 4

/-- Level and enable of a TIO output at an instant: the boundary register's with EXTEST or CLAMP, none with HIGHZ, and otherwise
the driving channel's, a retired one's from the crossbar's copy of SAFE (R69; 17_health.md R386, R388; 18_debug.md R404). -/
def tioOut (s : State) (k : Fin 40) (t : Instant) : Bool × Bool :=
  if s.dbg.ir = 4 then (false, false)
  else if s.dbg.ir = 0 ∨ s.dbg.ir = 3 then (bit s.dbg.bsr (3 * k.val + 1), bit s.dbg.bsr (3 * k.val + 2))
  else match tioDriver s k with
    | none => (false, false)
    | some l =>
      let drive (o : Bool × Bool) : Bool × Bool := (o.1, !o.2 && !(bit s.tio[k] 10 && o.1))
      match unitOf s l, s.lmap[l].xsafe with
      | some u, _ => drive (s.units[u].out t)
      | none, some safe => drive (safe == 1#2, safe == 2#2)
      | none, none => (false, false)

/-- The level of a pad that the device does not drive: the board's, and the weak pull-up's where the board does not drive it
either. With PU_OFF such a pad floats, and its level is what the row that last told of it says (R69, R450). -/
def idlePad (s : State) (k : Fin 40) : Bool := bit s.pad k.val || (bit s.padZ k.val && !bit s.tio[k] 11)

/-- The level at a TIO pad at an instant (R450). -/
def padLevel (s : State) (k : Fin 40) (t : Instant) : Bool :=
  let o := tioOut s k t
  if o.2 then o.1 else idlePad s k

/-- The level of a unit's selected input at an instant, ahead of INV_IN (R71). DESIGN CHOICE (log entry 47): an input that is cut from
its pin keeps the level it had. -/
def inputLevel (s : State) (u : UnitId) (insel : BitVec 6) (t : Instant) : Bool :=
  match idx? 40 insel.toNat with
  | some k => if s.pinsCut then s.units[u].cap.raw else padLevel s k t
  | none =>
    if 40 ≤ insel.toNat && insel.toNat ≤ 45 then bit s.psn (insel.toNat - 40)
    else if insel = 46#6 then (s.units[u].out t).1 else false

/-- A unit works: it is not retired and its channel is not under migration (17_health.md R386, R388). -/
def unitRuns (s : State) (u : UnitId) : Bool :=
  let c := s.units[u]
  c.ust != .retired && !(c.held && s.lmap[c.lchId].mig.isSome)

/-- A unit works at fine resolution: ROOT counts DT, so SLEEP, walk mode and relock are out (R98, R99). -/
def unitFine (s : State) (u : UnitId) : Bool := s.rootRuns && unitRuns s u

/-! ### Notifies (R88) -/

/-- A notify of a unit: the flag, and the event on the unit's crossing (R88). -/
def notify (u : UnitId) (code : BitVec 2) (flagBit : Nat) (e : XEv) (s : State) : State :=
  if code = 0#2 then s
  else
    let c := s.units[u]
    let e := { e with lch := c.lch, post := if code = 3#2 then some (fld c.act 18 6) else none,
                      rflags := e.rflags ||| (bif s.tb.coarse then 4 else 0) }
    pushEvent ⟨u.val, by omega⟩ e (s.modUnit u fun c => c.flag flagBit)

/-! ### Registers of a unit as word 0x4C reads them -/

def ChanUnit.status (c : ChanUnit) (now : Instant) : W32 :=
  (0#21 : BitVec 21) ++ b2v 1 c.safeHeld ++ b2v 1 c.cap.inn ++ b2v 1 (c.out now).1 ++ b2v 1 (c.dirNow now.ev) ++ b2v 1 c.cap.fullF ++
  b2v 1 c.cap.fullR ++ b2v 1 c.shvP ++ b2v 1 c.shvB ++ b2v 1 c.shvA ++ b2v 1 c.armB ++ b2v 1 c.armA

/-- Reading CAPx_HI, or PW, as a Farrier or an engine: FULL bits clear (R93). -/
def ChanUnit.readCapHi (c : ChanUnit) (fall : Bool) : ChanUnit :=
  let k := c.cap
  { c with cap := if !fall then { k with fullR := false }
                  else if c.capm = 2#2 then { k with fullR := false, fullF := false } else { k with fullF := false } }

def ChanUnit.readPw (c : ChanUnit) : ChanUnit := { c with cap := { c.cap with fullR := false, fullF := false } }


end Sys2Proof.Machine
end

