-- ==== Sys2Proof/Machine/Capture.lean ====
section
/-! DEFINITION. Inputs of the channel units: captures, the filter, and inputs that follow the device's own pins (04_channels.md
R69, R71, R90 to R93, R450). -/

namespace Sys2Proof.Machine

/-! ### Inputs and captures (R90 to R92) -/

/-- Filter length in FAB cycles. -/
def ChanUnit.filt (c : ChanUnit) : Nat := (fld c.ctrl 16 8).toNat

/-- IN of the channels that the trackers name beside their wheel channel, latched with the capture (10_gait.md R451): bit n is IN
of SEC_CH, or of DIR_CH, of tracker n where it is enabled and this is its wheel channel. -/
def latchedIn (s : State) (l : Lch) : BitVec 2 × BitVec 2 :=
  let level (l : Lch) : Bool := match unitOf s l with | some u => s.units[u].cap.inn | none => false
  let bits (lo : Nat) : BitVec 2 := (idxs 2).foldl (fun v n =>
    setBit v n.val (bit s.gt[n].cfg[0] 0 && fld s.gt[n].cfg[1] 0 6 == BitVec.ofNat 6 l.val && level (bvFin 64 rfl (fld s.gt[n].cfg[1] lo 6)))) 0
  (bits 8, bits 16)

/-- The event of a capture: UNCERTAIN marks the first record after a migration (17_health.md R387). -/
def capEvent (u : UnitId) (what : BitVec 3) (flagBit : Nat) (e : XEv) (s : State) : State :=
  let c := s.units[u]
  let code := fld c.act 16 2
  let (sec, dir) := latchedIn s c.lchId
  let e := { e with what := what, secIn := sec, dirIn := dir, rflags := if c.cap.uncertain then 2 else 0 }
  let s1 := notify u code flagBit e s
  if code = 3#2 then s1.modUnit u fun c => { c with cap := { c.cap with uncertain := false } } else s1

/-- A capture register was unread: OVR and OVRCNT (R91). -/
def ChanUnit.overrun (c : ChanUnit) (lost : Bool) : ChanUnit :=
  if lost then { c.flag 6 with cap := { c.cap with ovrcnt := satInc c.cap.ovrcnt } } else c

/-- Single capture of an accepted edge (R91). -/
def captureSingle (u : UnitId) (level : Bool) (stamp : EvTime) (s : State) : State :=
  let c := s.units[u]
  if !bit c.ctrl (if level then 10 else 11) then s
  else if level then
    let t := stamp - c.ctrimRise.signExtend 48
    let s1 := s.modUnit u fun c => { c.overrun c.cap.fullR with cap := { (c.overrun c.cap.fullR).cap with capR := t, fullR := true } }
    capEvent u 3 3 { XEv.reset with stamp := t } s1
  else
    let t := stamp - c.ctrimFall.signExtend 48
    let s1 := s.modUnit u fun c => { c.overrun c.cap.fullF with cap := { (c.overrun c.cap.fullF).cap with capF := t, fullF := true } }
    capEvent u 4 4 { XEv.reset with stamp := t } s1

/-- A difference mod 2^48 that saturates at 32 bits, and whether it did (R92). -/
def satDiff (a b : EvTime) : W32 × Bool := (satNat 32 (a - b).toNat, decide (2 ^ 32 ≤ (a - b).toNat))

/-- Paired capture of an accepted edge (R92). -/
def capturePair (u : UnitId) (level : Bool) (stamp : EvTime) (s : State) : State :=
  let c := s.units[u]
  if level then
    let t := stamp - c.ctrimRise.signExtend 48
    s.modUnit u fun c =>
      let c1 := c.overrun c.cap.fullF
      let k := c1.cap
      let d := c.cap.prevRise.map (satDiff t)
      let sat := match d with | some (_, b) => b | none => false
      { (if sat then c1.flag 10 else c1) with
        cap := { k with capR := t, fullR := true, prdm := match d with | some (v, _) => v | none => k.prdm
                        prdmNew := d.isSome, prevRise := some t, gotRise := true } }
  else if !c.cap.gotRise then s
  else
    let t := stamp - c.ctrimFall.signExtend 48
    let (pw, sat) := satDiff t c.cap.capR
    let s1 := s.modUnit u fun c =>
      { (if sat then c.flag 10 else c) with cap := { c.cap with capF := t, fullF := true, pw := pw } }
    let k := s1.units[u].cap
    capEvent u 5 5 { XEv.reset with stamp := k.capR, capf := t, pw := pw, prdm := if k.prdmNew then some k.prdm else none } s1

/-- A transition is accepted: IN follows it, and while EN is 1 it is captured under CAPM (R90 to R92). -/
def acceptEdge (u : UnitId) (s : State) : State :=
  let c := s.units[u]
  match c.cap.cand with
  | none => s
  | some k =>
    let s1 := s.modUnit u fun c => { c with cap := { c.cap with inn := k.level, cand := none } }
    if !c.en then s1
    else match c.capm.toNat with
      | 1 => captureSingle u k.level k.stamp s1
      | 2 => capturePair u k.level k.stamp s1
      | _ => s1

/-- A waiting transition has been stable for FILT FAB cycles, and with FILT 0 for the rest of its own cycle (R90). -/
def candDue (s : State) (u : UnitId) : Bool :=
  let c := s.units[u]
  match c.cap.cand with
  | none => false
  | some k => if c.filt = 0 then !(k.stamp >>> 3 == s.nowEv >>> 3) else passed s.nowEv (k.stamp + BitVec.ofNat 48 (8 * c.filt))

/-- REJ counts only while EN is 1 (R90). -/
def ChanUnit.reject (c : ChanUnit) : ChanUnit :=
  { c with cap := { c.cap with cand := none, rej := if c.en then satInc c.cap.rej else c.cap.rej } }

/-- The filtered input takes a transition: it begins a run, or ends one that waits (R90). -/
def ChanUnit.transition (c : ChanUnit) (lv : Bool) (e : EvTime) (coarse : Bool) : ChanUnit :=
  if lv = c.cap.inn then (if c.cap.cand.isSome then c.reject else c)
  else if c.cap.cand.isSome then c
  else { c with cap := { c.cap with cand := some { level := lv, stamp := e, coarse := coarse } } }

/-- The selected input changes to `raw` at event time `e`: the transition enters the filter. A second one in the FAB cycle of the
last cancels it, and REJ increments (R90). -/
def inputEdge (u : UnitId) (raw : Bool) (e : EvTime) (s : State) : State :=
  let s := if candDue s u then acceptEdge u s else s
  let t := s.inst e
  s.modUnit u fun c =>
    let c := { c with cap := { c.cap with raw := raw } }
    match c.cap.undo.filter fun x => sameCycle x.1 t with
    | some (_, cand, rej) => { c with cap := { c.cap with cand := cand, rej := if c.en then satInc rej else rej, undo := none } }
    | none =>
      let c1 := c.transition (raw ^^ bit c.ctrl 12) e s.tb.coarse
      { c1 with cap := { c1.cap with undo := some (t, c.cap.cand, c.cap.rej) } }

/-- The board's level at the pin that a channel selects, or that it does not drive the pin (R71, R450). -/
def boardLevel (u : UnitId) (raw z : Bool) (s : State) : State :=
  let i := s.units[u].insel.toNat
  if i < 40 then { s with pad := setBit s.pad i (raw && !z), padZ := setBit s.padZ i z }
  else if i < 46 then { s with psn := setBit s.psn (i - 40) raw }
  else s

/-- A unit's input can change: it selects a pin, a phase-sense return or its own output (R71). -/
def hasInput (s : State) (u : UnitId) : Bool := decide (s.units[u].insel.toNat ≤ 46)

/-! ### Inputs that follow the device's own pins (R71, R450) -/

/-- A unit whose input sees a change that the device itself made takes the transition, stamped `e`. -/
def feedUnit (v : UnitId) (e : EvTime) (s : State) : State :=
  let raw := inputLevel s v s.units[v].insel (s.inst e)
  if unitFine s v && s.units[v].cap.raw != raw then inputEdge v raw e s else s

/-- The output of unit `u` changed at `e`: units that read its pins, and the unit itself where it reads its own output. -/
def feedOutput (u : UnitId) (e : EvTime) (s : State) : State :=
  forEach ((idxs 68).filter fun v =>
      let i := s.units[v].insel
      (i == 46#6 && v == u) || (match idx? 40 i.toNat with | some k => (tioDriver s k).bind (unitOf s) == some u | none => false))
    (fun v => feedUnit v e) s

/-- What drives pin `k` changed: the units that read it. -/
def feedPad (k : Fin 40) (s : State) : State :=
  forEach ((idxs 68).filter fun v => s.units[v].insel.toNat == k.val) (fun v s => feedUnit v s.nowEv s) s

/-- A write of a TIO control word (R69, R102). -/
def writeTio (k : Fin 40) (v : W32) (s : State) : State := feedPad k { s with tio := s.tio.set k (v &&& 0xFFF) }

/-- The pins that name a logical channel changed hands: its open, close or retirement (R69). -/
def feedPins (l : Lch) (s : State) : State :=
  forEach ((idxs 40).filter fun k => (fld s.tio[k] 0 7).toNat == l.val) feedPad s

end Sys2Proof.Machine
end

