-- ==== Sys2Proof/Machine/Output.lean ====
section
/-! DEFINITION. Outputs of the channel units: trims, actions, compares and shadows, the CTRL word, safe levels and matches
(04_channels.md R72 to R89, R94). -/

namespace Sys2Proof.Machine

/-! ### Actions and trims (R75, R85, R94) -/

/-- The level an action asks for: none when it makes no change of the driven level (R75, R94). -/
def ChanUnit.actTarget (c : ChanUnit) (act : BitVec 2) : Option Bool :=
  let goal : Option Bool := match act.toNat with
    | 1 => some true
    | 2 => some false
    | 3 => some (c.hiz || !c.level)
    | _ => none
  goal.bind fun v => if c.hiz || v != c.level then some v else none

/-- The trim of the transition that an action would make (R75). -/
def ChanUnit.trim (c : ChanUnit) (act : BitVec 2) : BitVec 48 :=
  match c.actTarget act with
  | some true => c.trimRise.signExtend 48
  | some false => c.trimFall.signExtend 48
  | none => 0

/-! ### Compares and their crossings (R75, R80, R81, R85) -/

/-- The free-mode action of a compare (R85). -/
def ChanUnit.freeAct (c : ChanUnit) (b : Bool) : BitVec 2 := if b then fld c.act 6 2 else fld c.act 2 2

/-- The compare value, armed state and effective state of A or B. -/
def ChanUnit.cmp (c : ChanUnit) (b : Bool) : EvTime := if b then c.cmpB else c.cmpA
def ChanUnit.arm (c : ChanUnit) (b : Bool) : Bool := if b then c.armB else c.armA
def ChanUnit.dis (c : ChanUnit) (b : Bool) : Option Instant := if b then c.disB else c.disA
def ChanUnit.eff (c : ChanUnit) (b : Bool) : Bool := if b then c.effB else c.effA
def ChanUnit.effT (c : ChanUnit) (b : Bool) : EvTime := if b then c.effTB else c.effTA

/-- Local crossings of a compare up to this event time are behind it. -/
def ChanUnit.done (c : ChanUnit) (b : Bool) : EvTime := if b then c.doneB else c.doneA

/-- Local crossings of a compare up to `t` are over (R80, R81). -/
def ChanUnit.setDone (c : ChanUnit) (b : Bool) (t : EvTime) : ChanUnit := if b then { c with doneB := t } else { c with doneA := t }

/-- Fines from the start of the pass to the crossing of a local compare value in a direction; none when it never
matches there (R80). Position 0 is reached counting down at the boundary with which a pass of an up/down channel starts.
DESIGN CHOICE (log entry 40): a value at count 0 with a fine offset of 1 to 7 in up/down mode matches counting up, that many fines
after the boundary. -/
def ChanUnit.crossing (c : ChanUnit) (v : EvTime) (down : Bool) : Option Nat :=
  let cnt := (fld v 3 32).toNat
  let f := (fld v 0 3).toNat
  let p := c.prdRun.toNat
  if p < cnt then none
  else if c.mode = 1#2 then (if down then none else some (8 * cnt + f))
  else if c.mode = 2#2 then (if down then none else some (8 * (p - cnt) + f))
  else if c.mode = 3#2 then
    if down then
      (if cnt = 0 && f = 0 then some 0
       else if cnt < p && 8 * (2 * p - cnt) + f ≤ 16 * p then some (8 * (2 * p - cnt) + f) else none)
    else if cnt = 0 && f = 0 then none else some (8 * cnt + f)
  else none

/-- The local-mode action of a compare in a direction (R85). -/
def ChanUnit.localAct (c : ChanUnit) (b down : Bool) : BitVec 2 :=
  if down then (if b then fld c.act 8 2 else fld c.act 4 2) else c.freeAct b

/-- The event time of the crossing of a local compare in the present pass (R80). -/
def ChanUnit.localTime (c : ChanUnit) (b down : Bool) : Option EvTime :=
  (c.crossing (c.cmp b) down).map fun x => c.porg + BitVec.ofNat 48 x

/-- The end of the present pass (R79). -/
def ChanUnit.passEnd (c : ChanUnit) : EvTime := c.porg + BitVec.ofNat 48 (8 * c.passCounts)

/-- The crossing of a local compare in the next pass, under the PRD that it will have (R79, R80). -/
def ChanUnit.nextTime (c : ChanUnit) (b down : Bool) : Option EvTime :=
  { c with porg := c.passEnd, prdRun := c.prd }.localTime b down

/-- How much ahead of a match a negative trim of its transition places the edge, as an event-time difference (R87). -/
def ChanUnit.early (c : ChanUnit) (act : BitVec 2) : BitVec 48 := if (c.trim act).toInt < 0 then c.trim act else 0

/-- When a free-mode compare fires (R75). -/
def ChanUnit.fireAt (c : ChanUnit) (b : Bool) : EvTime := c.cmp b + c.trim (c.freeAct b)

/-- An action other than none falls in a FAB cycle still to come or going on (R86). -/
def ChanUnit.awaits (c : ChanUnit) (cyc : EvTime) : Bool :=
  c.en &&
  (if c.mode = 0#2 then
     [false, true].any fun b => c.arm b && c.eff b && c.freeAct b != 0#2 && c.fireAt b >>> 3 == cyc
   else
     (!c.pDone && fld c.act 0 2 != 0#2 && c.passEnd >>> 3 == cyc) ||
     [false, true].any fun b => [false, true].any fun down =>
       c.localAct b down != 0#2 &&
       [c.localTime b down, c.nextTime b down].any fun (t : Option EvTime) =>
         t.any fun (x : EvTime) => x >>> 3 == cyc && decide (0 < evDiff x (c.done b)))

/-! ### Arming and shadows (R75 to R84) -/

/-- From the edge that makes a compare active to the point at which it is effective: 4 FAB cycles, or 6 for a gate-command line
(R76, R81). -/
def effDelay (s : State) (u : UnitId) : EvTime := if s.units[u].held && gateLine s s.units[u].lchId then 48 else 32

/-- When a compare that becomes active now becomes effective. -/
def effTime (s : State) (u : UnitId) : EvTime := s.nowEv + effDelay s u

/-- A compare value taken into force, effective at `d`: armed in free mode while EN is 1 (R75, R76); in local mode only crossings
from `d` on match (R81). The staged low word stays what was last written to it (DESIGN CHOICE, log entry 40). -/
def ChanUnit.loadCmp (c : ChanUnit) (d : EvTime) (b : Bool) (v : EvTime) : ChanUnit :=
  let arm := c.en && c.mode == 0#2
  let c := if c.en && c.mode != 0#2 then c.setDone b (later (c.done b) (d - 1)) else c
  if b then { c with cmpB := v, armB := c.armB || arm, disB := none, effB := false, effTB := d }
  else { c with cmpA := v, armA := c.armA || arm, disA := none, effA := false, effTA := d }

/-- The shadow was not written at the FAB edge of an update point at instant `p` (R84). -/
def beforePoint (w p : Instant) : Bool := !sameCycle w p

/-- Transfer shadow A or B at an update point if it is pending, unless it was written at that very FAB edge (R82, R84). -/
def ChanUnit.transferCmp (c : ChanUnit) (d : EvTime) (p : Instant) (b : Bool) : ChanUnit :=
  if b then (if c.shvB && beforePoint c.shEB p then { c.loadCmp d true c.shB with shvB := false } else c)
  else if c.shvA && beforePoint c.shEA p then { c.loadCmp d false c.shA with shvA := false } else c

/-- Transfer the period shadow likewise; 0 is not taken (R82). -/
def ChanUnit.transferPrd (c : ChanUnit) (p : Instant) : ChanUnit :=
  if !(c.shvP && beforePoint c.shEP p) then c
  else if c.prdSh = 0 then { c.flag 9 with shvP := false }
  else { c with prd := c.prdSh, shvP := false }

/-- An update point at instant `p`: every pending shadow transfers, unless LOCK holds them (R82 to R84). -/
def ChanUnit.update (c : ChanUnit) (d : EvTime) (p : Instant) : ChanUnit :=
  if c.lock then c else ((c.transferCmp d p false).transferCmp d p true).transferPrd p

/-- CMPx_HI write: the staged low word and the high word together (R75). -/
def ChanUnit.writeCmp (c : ChanUnit) (d : EvTime) (b : Bool) (v : EvTime) : ChanUnit :=
  let c := if b then { c with cmpBLo := v.truncate 32 } else { c with cmpALo := v.truncate 32 }
  c.loadCmp d b v

/-- SHx_HI write at its apply edge `e` (R82). With UPD 0b000 that edge is the update point itself. -/
def ChanUnit.writeShadow (c : ChanUnit) (d : EvTime) (e : Instant) (b : Bool) (v : EvTime) : ChanUnit :=
  let c := if b then { c with shB := v, shBLo := v.truncate 32, shvB := true, shEB := e - 8 }
           else { c with shA := v, shALo := v.truncate 32, shvA := true, shEA := e - 8 }
  let c := if c.upd = 0#3 then c.update d e else c
  if b then { c with shEB := e } else { c with shEA := e }

/-- PRD_SH write (R82). -/
def ChanUnit.writePrdSh (c : ChanUnit) (d : EvTime) (e : Instant) (v : W32) : ChanUnit :=
  let c := { c with prdSh := v, shvP := true, shEP := e - 8 }
  { (if c.upd = 0#3 then c.update d e else c) with shEP := e }

/-- A compare is no longer armed. -/
def ChanUnit.unarm (c : ChanUnit) (b : Bool) : ChanUnit :=
  if b then { c with armB := false, disB := none } else { c with armA := false, disA := none }

/-- DISARM_A or DISARM_B at its apply edge, which a match of the same FAB cycle still passes (R77). -/
def ChanUnit.disarm (c : ChanUnit) (e : Instant) (b : Bool) : ChanUnit :=
  if !c.arm b then c
  else if b then { c with armB := false, disB := some e } else { c with armA := false, disA := some e }

/-- Armed, or disarmed in the FAB cycle of now (R77). -/
def ChanUnit.armedAt (c : ChanUnit) (b : Bool) (now : Instant) : Bool :=
  c.arm b || match c.dis b with | some e => sameCycle e now | none => false

/-! ### The output (R85 to R89) -/

/-- The output of a unit has changed at `t`: the gate-command line and the inputs that read it follow. -/
def outChanged (u : UnitId) (t : EvTime) (s : State) : State :=
  let c := s.units[u]
  feedOutput u t (if c.held then gateReact c.lchId t s else s)

/-- Drive the output of a unit at once, in a FAB cycle that a FORCE closes (R89). -/
def setLevel (u : UnitId) (v : Bool) (s : State) : State :=
  let c := s.units[u]
  let s1 := s.modUnit u fun c => { c with
    level := v, hiz := false, outOld := none
    lastAct := some { cyc := s.nowEv >>> 3, fall := s.nowEv, lv := v, hz := false, wait := false, forced := true } }
  if v != c.level || c.hiz then outChanged u s.nowEv s1 else s1

/-- Apply an action that falls at `fall` in the FAB cycle `cyc` and is placed at `placed`. The output makes one transition for all
the actions of the cycle, placed at the last; merging sets NARROW (R86). While `hold`, or as long as the unit itself has more
actions in the cycle, the transition waits. -/
def applyAction (u : UnitId) (act : BitVec 2) (fall placed cyc : EvTime) (hold : Bool) (s : State) : State :=
  if act = 0#2 then s
  else
    let c := s.units[u]
    let prev := c.lastAct.filter fun p => p.cyc == cyc
    if prev.any (·.forced) then s
    else
      let (lv, hz) := match prev with | some p => if p.wait then (p.lv, p.hz) else (c.level, c.hiz) | none => (c.level, c.hiz)
      let c1 : ChanUnit := if prev.any (fun p => p.fall != fall) then c.flag 8 else c
      let c2 : ChanUnit := match c.actTarget act with | some v => { c1 with level := v, hiz := false } | none => c1
      let wait := hold || c2.awaits cyc
      let moved := c2.level != lv || c2.hiz != hz
      let at_ := s.inst placed
      let s1 := s.modUnit u fun _ => { c2 with
        lastAct := some { cyc := cyc, fall := fall, lv := lv, hz := hz, wait := wait, forced := false }
        outOld := if moved && decide (s.now.toNat < at_.toNat) then some (at_, lv, hz) else none }
      if moved && !wait then outChanged u placed s1 else s1

/-- The one transition of the actions that a tide edge applied (R98). -/
def settleOutput (u : UnitId) (s : State) : State :=
  let c := s.units[u]
  match c.lastAct with
  | some p =>
    if p.wait then
      let s1 := s.modUnit u fun c => { c with lastAct := some { p with wait := false } }
      if c.level != p.lv || c.hiz != p.hz then outChanged u s.nowEv s1 else s1
    else s
  | none => s

/-! ### The CTRL word (R72 to R74) -/

/-- UPD holds a value the table of R82 allows for MODE. -/
def updAllowed (upd : BitVec 3) (mode : BitVec 2) : Bool :=
  match upd.toNat with
  | 0 | 4 | 5 => true
  | 1 => mode != 0#2
  | 2 | 3 => mode == 3#2
  | _ => false

/-- The protected fields of the CTRL word (R72), and the bits that are not Reserved. -/
def ctrlProtected : W32 := 0x3FFF1F06
def ctrlMask : W32 := 0x3FFFDFFF

/-- A CTRL write is ignored entirely (R72, R74, R82, R94). -/
def ChanUnit.ctrlRefused (c : ChanUnit) (v : W32) : Bool :=
  let mode : BitVec 2 := fld v 1 2
  let upd : BitVec 3 := fld v 3 3
  decide (6 ≤ upd.toNat) || (fld v 14 2 == 3#2) ||
  (c.en && bit v 0 && ((v ^^^ c.ctrl) &&& ctrlProtected) != 0) ||
  (!c.en && bit v 0 && (!updAllowed upd mode || (mode != 0#2 && (c.prd == 0 || decide (c.prd.toNat < c.cnt.toNat)))))

/-- A CTRL write at time `t` (R72 to R74, R79, R83, R90). -/
def writeCtrl (u : UnitId) (v : W32) (s : State) : State :=
  let c := s.units[u]
  let t := s.nowEv
  let v := v &&& ctrlMask
  if c.ctrlRefused v then s.modUnit u fun c => c.flag 9
  else
    let newSel := fld v 24 6 != c.insel || bit v 12 != bit c.ctrl 12
    let c1 := if c.en && !bit v 0 then c.stop t else c
    let c2 := { c1 with ctrl := v }
    let c3 := if !c.en && bit v 0 then
        let c2 := if c2.mode = 1#2 then { c2 with dir := false } else if c2.mode = 2#2 then { c2 with dir := true } else c2
        let from_ (b : Bool) : EvTime := if c2.eff b then t else later t (c2.effT b - 1)
        { c2 with prdRun := c2.prd, doneA := from_ false, doneB := from_ true, pDone := false, safeHeld := false
                  porg := if c2.mode = 0#2 then c2.porg else c2.porgAt t
                  cap := { c2.cap with gotRise := false, prevRise := none } }
      else c2
    let c4 := if newSel then
        let raw := inputLevel s u c3.insel s.now
        { c3 with cap := { c3.cap with raw := raw, inn := raw ^^ bit v 12, cand := none, undo := none } }
      else c3
    s.modUnit u fun _ => if c.lock && !c4.lock && c4.upd = 0#3 then c4.update (effTime s u) s.now else c4

/-! ### Safe levels (R94) -/

/-- The safe level of a unit as level and high-impedance: low, high, high-impedance; a gate line is off (R94). -/
def safeOut (s : State) (u : UnitId) : Bool × Bool :=
  let c := s.units[u]
  if c.held && gateLine s c.lchId then (false, false)
  else match c.safe.toNat with | 1 => (true, false) | 2 => (false, true) | _ => (false, false)

/-- Drive the safe level of a unit with the effects of R94. -/
def safeUnit (u : UnitId) (s : State) : State :=
  let (lv, hz) := safeOut s u
  let c := s.units[u]
  let s1 := s.modUnit u fun c => { (c.stop s.nowEv).unarm false with
    level := lv, hiz := hz, outOld := none, lastAct := none, safeHeld := true, armB := false, disB := none }
  if c.level != lv || c.hiz != hz then outChanged u s.nowEv s1 else s1

/-- Drive the safe level of a logical channel. -/
def safeChannel (l : Lch) (s : State) : State :=
  match unitOf s l with | some u => safeUnit u s | none => s

/-- FORCE (R89). -/
def force (u : UnitId) (code : BitVec 2) (s : State) : State :=
  match code.toNat with
  | 1 => setLevel u true s
  | 2 => setLevel u false s
  | 3 => safeUnit u s
  | _ => s

/-! ### Matches (R75, R76, R80, R85 to R88) -/

/-- Transfer with UPD 0b100 after a match that fell at `fall`: at the FAB edge after it (R82, R84). -/
def ownMatch (u : UnitId) (b : Bool) (fall : EvTime) (s : State) : State :=
  let edge : EvTime := ((fall >>> 3) + 1) <<< 3
  s.modUnit u fun c => if c.upd = 4#3 && !c.lock then c.transferCmp (edge + effDelay s u) (s.inst edge) b else c

/-- A match of compare A or B: action, notify with the time of the edge, own-match transfer. -/
def matchAt (u : UnitId) (b : Bool) (act : BitVec 2) (fall placed cyc : EvTime) (hold late : Bool) (s : State) : State :=
  let s := s.modUnit u fun c => if late then c.flag 7 else c
  let s := applyAction u act fall placed cyc hold s
  let ev := { XEv.reset with what := bif b then 1 else 0, stamp := placed, rflags := bif late then 1 else 0 }
  let act := s.units[u].act
  ownMatch u b fall (notify u (fld act (if b then 12 else 10) 2) (if b then 1 else 0) ev s)

/-- A free-mode compare fires at its time, or late at `now` (R75, R76). -/
def fireFree (u : UnitId) (b late : Bool) (s : State) : State :=
  let c := s.units[u]
  let time := if late then s.nowEv else c.fireAt b
  matchAt u b (c.freeAct b) time time (time >>> 3) false late (s.modUnit u fun c => c.unarm b)

/-! ### Writes to a logical channel (07_microcode.md R164, R165) -/

/-- A channel write by its number: 0 CMPA, 1 CMPB, 2 SHA, 3 SHB, 4 PRD_SH, 5 DISARM, 6 FORCE, 7 LOCK, 8 CTRL, 9 the actions
word, 10 PRD, 11 CNT, and 12 to 14 the clear of FULL bits that a read of CAPR, CAPF or PW makes (R93, R166). -/
def unitOp (u : UnitId) (op : Byte) (v : EvTime) (s : State) : State :=
  let d := effTime s u
  let w : W32 := fld v 0 32
  match op.toNat with
  | 0 => s.modUnit u fun c => c.writeCmp d false v
  | 1 => s.modUnit u fun c => c.writeCmp d true v
  | 2 => s.modUnit u fun c => c.writeShadow d s.now false v
  | 3 => s.modUnit u fun c => c.writeShadow d s.now true v
  | 4 => s.modUnit u fun c => c.writePrdSh d s.now w
  | 5 => s.modUnit u fun c =>
      let c := if bit v 0 then c.disarm s.now false else c
      if bit v 1 then c.disarm s.now true else c
  | 6 => force u (fld v 0 2) s
  | 7 => writeCtrl u (setBit s.units[u].ctrl 6 (bit v 0)) s
  | 8 => writeCtrl u w s
  | 9 => s.modUnit u fun c => { c with act := w &&& 0x00FFFFFF }
  | 10 => s.modUnit u fun c => if c.en then c.flag 9 else { c with prd := w }
  | 11 => s.modUnit u fun c => if c.en then c.flag 9 else { c with cnt := w }
  | 12 => s.modUnit u fun c => c.readCapHi false
  | 13 => s.modUnit u fun c => c.readCapHi true
  | 14 => s.modUnit u fun c => c.readPw
  | _ => s

/-- A write to a logical channel: held while the channel migrates, without effect when it is retired (R165, R388). -/
def chanOp (l : Lch) (op : Byte) (v : EvTime) (s : State) : State :=
  if s.lmap[l].mig.isSome then s.modLMap l fun m => { m with heldW := m.heldW ++ [{ off := op, v := v }] }
  else match unitOf s l with
    | some u => unitOp u op v s
    | none => s

end Sys2Proof.Machine
end

