-- ==== Sys2Proof/Machine/HarnessOps.lean ====
section
/-! DEFINITION. Replies in mailboxes, MOTION records, and the shared operations on harnesses: actions, the timed action,
faults, close, link fault (08_power_harnesses.md, 14_farrier_commands.md R305, 09_motion.md R223, R228). -/

namespace Sys2Proof.Machine

/-! ### Replies (R297, R305, R306) -/

/-- Write the reply of a mailbox: header, payload, zeros after it; the mailbox becomes REPLIED (R297). -/
def writeReply (mb : MailboxId) (cmd tag status : Byte) (payload : List Byte) (s : State) : State :=
  let base := 0x2000 + 0x100 * mb.val
  let bytes := [cmd, tag, status, BitVec.ofNat 8 payload.length] ++ leBytes 4 s.host.musterSeq.toNat ++ payload
  { s with host := { s.host with
      mb := memPut (memClear s.host.mb base (base + 256)) base bytes
      reqBusy := setBit s.host.reqBusy mb.val false
      replyRdy := setBit s.host.replyRdy mb.val true
      order := s.host.order.filter fun m => m.toNat != mb.val
      taken := setBit s.host.taken mb.val false } }

/-! ### The Farrier's table (14_farrier_commands.md R315, R316) -/

/-- What the hardware holds of a logical channel, in the terms of the table. -/
def hwCh (s : State) (l : Lch) : TabCh :=
  let m := s.lmap[l]
  match unitOf s l with
  | none => { TabCh.reset with open_ := m.open_, pch := m.pch }
  | some u =>
    let c := s.units[u]
    { open_ := m.open_, pch := m.pch, held := c.held && c.lch.toNat == l.val, en := c.en, mode := c.mode, safeHeld := c.safeHeld }

/-- The Farrier takes a logical channel into its table as the hardware now holds it. -/
def adoptCh (l : Lch) (s : State) : State := { s with far := { s.far with tabCh := vmod s.far.tabCh l fun _ => hwCh s l } }

/-- What the hardware holds of a harness; IDLE and RUN count as one. -/
def hwHar (s : State) (h : HarnessId) : TabHar :=
  let k := s.har[h]
  { kind := k.kind, hstate := if k.live then .idle else k.hstate }

/-- The Farrier takes a harness into its table as the hardware now holds it. -/
def adoptHar (h : HarnessId) (s : State) : State := { s with far := { s.far with tabHar := vmod s.far.tabHar h fun _ => hwHar s h } }

/-- The Farrier takes a harness and its member channels into its table. -/
def adoptMembers (h : HarnessId) (s : State) : State := forEach s.har[h].channels adoptCh (adoptHar h s)

/-! ### Motion (R223, R228) -/

/-- A MOTION record (R228). -/
def postMotion (h : HarnessId) (ev reason : Byte) (data : W32) (s : State) : State :=
  postB63 (sysRec s.nowEv 0x1F (BitVec.ofNat 8 h.val) (reason ++ ev) data) s

/-- Change the motion program's state of a harness. -/
def State.modMot (s : State) (h : HarnessId) (f : Motion → Motion) : State := s.modHar h fun k => { k with mot := f k.mot }

/-- Answer a pending MOT_START (14_farrier_commands.md R310). -/
def answerStart (h : HarnessId) (status : Byte) (payload : List Byte) (s : State) : State :=
  match s.har[h].mot.startMb with
  | none => s
  | some (mb, tag) => writeReply (bvFin 8 rfl mb) 0x62 tag status payload (s.modMot h fun m => { m with startMb := none })

/-- A harness fault ends the program's motion at once (R223). -/
def motionFault (h : HarnessId) (s : State) : State :=
  let m := s.har[h].mot
  match m.prog with
  | .none => s
  | .bridge =>
    if m.st = 5 then postMotion h 5 3 m.speed (s.modMot h fun m => { m with st := 6 })
    else if m.st = 0 ∨ m.st = 6 then s
    else answerStart h 0x13 [] (postMotion h 4 3 m.speed (s.modMot h fun m => { m with st := 6 }))
  | .axis =>
    if m.st = 0 then s else postMotion h 19 2 m.pos (s.modMot h fun m => { m with st := 0, armed := false, stopping := 0, vsq := 0, acc := 0 })

/-! ### Actions (R191) -/

/-- An action word is allowed for the harness kind: no reserved operation, field or phase state (R191, R204). -/
def actionValid (kind : BitVec 3) (w : W32) : Bool :=
  match (fld w 28 4).toNat with
  | 1 | 2 | 3 => fld w 0 28 == 0#28
  | 4 => kind == 2#3 && fld w 9 19 == 0#19 && !(fld w 0 3 == 6#3) && !(fld w 3 3 == 6#3) && !(fld w 6 3 == 6#3)
  | 5 => (kind == 1#3 || kind == 2#3) && fld w 26 2 == 0#2
  | _ => false

/-- The threshold codes of a LEVELS word lie in 0 to 250 (R196). -/
def levelsOk (w : W32) : Bool :=
  decide ((fld w 0 8).toNat ≤ 250) && decide ((fld w 8 8).toNat ≤ 250) && decide ((fld w 16 8).toNat ≤ 250)

/-- COMMIT: every member shadow with UPD 0b101 transfers (R82, R191). -/
def commitHarness (h : HarnessId) (s : State) : State :=
  forEach (s.har[h].channels.filterMap (unitOf s)) (fun u s => s.modUnit u fun c => if c.upd = 5#3 then c.update (effTime s u) s.now else c) s

/-- SAFE (R190, R191): from IDLE or RUN; every gate off, member channels at their safe level. -/
def safeHarness (h : HarnessId) (s : State) : State :=
  let k := s.har[h]
  if !k.live || k.kind == 0 then s
  else forEach k.channels safeChannel (regate h (s.modHar h fun k => { k.idleGates with hstate := .safe }))

/-- RESUME: effective only in SAFE; a COMMIT that waits for it applies (R190, R191). -/
def resumeHarness (h : HarnessId) (s : State) : State :=
  let k := s.har[h]
  if k.hstate ≠ .safe then s
  else
    let s1 := s.modHar h fun k => { k with hstate := .idle, safedBy := 0 }
    if k.actPend && passed s.nowEv k.actTime && fld k.actWord 28 4 == 1#4 then
      commitHarness h (s1.modHar h fun k => { k with actPend := false })
    else s1

/-- PHASE (R204): 0b111 leaves a phase unchanged. In SAFE and FAULT it is ignored with ACT_ERR. -/
def phaseHarness (h : HarnessId) (ph : BitVec 9) (s : State) : State :=
  let k := s.har[h]
  if !k.live then s.modHar h fun k => { k with flt := setBit k.flt 25 true }
  else
    let k1 : Harness := [(0 : Fin 4), 1, 2].foldl
      (fun k p => if fld ph (3 * p.val) 3 = 7#3 then k
        else
          let k : Harness := Harness.takeLevels k p
          { k with phase := setFld k.phase (3 * p.val) 3 (fld ph (3 * p.val) 3), mem := vmod k.mem p fun x => { x with off := false } })
      k
    regate h (s.modHar h fun _ => k1.settle)

/-- LEVELS: the thresholds wait for the member's next start or the next phase switch (R191). -/
def levelsHarness (h : HarnessId) (w : W32) (s : State) : State :=
  let k := s.har[h]
  if !levelsOk w then s.modHar h fun k => { k with flt := setBit k.flt 26 true }
  else
    let m : Fin 4 := bvFin 4 rfl (fld w 24 2)
    let v := fld w 0 24
    s.modHar h fun k => { k with mem :=
      if k.kind = 2#3 && m == 3 then k.mem.map fun x => { x with lvl := some v } else vmod k.mem m fun x => { x with lvl := some v } }

/-- An action word applies to a harness (R191). -/
def actHarness (h : HarnessId) (w : W32) (s : State) : State :=
  let k := s.har[h]
  if !actionValid k.kind w then s.modHar h fun k => { k with flt := setBit k.flt 25 true }
  else match (fld w 28 4).toNat with
    | 1 => commitHarness h s
    | 2 => safeHarness h s
    | 3 => resumeHarness h s
    | 4 => phaseHarness h (fld w 0 9) s
    | _ => levelsHarness h w s

/-- Arm the single timed action; it becomes effective 6 FAB cycles (48 fines) later (R192). -/
def armTimed (h : HarnessId) (time : EvTime) (w : W32) (s : State) : State :=
  s.modHar h fun k => { k with actPend := true, actTime := time, actWord := w, actEff := s.nowEv + 48 }

/-- The timed action applies: LATE when its time was passed as it became effective. In SAFE a COMMIT waits for the next
RESUME (R192 and the table after R212). -/
def applyTimed (h : HarnessId) (s : State) : State :=
  let k := s.har[h]
  let late := passed k.actEff k.actTime
  let s1 := s.modHar h fun k => { k with flt := if late then setBit k.flt 24 true else k.flt }
  if k.hstate = .safe && fld k.actWord 28 4 == 1#4 then s1
  else if k.hstate = .safe && fld k.actWord 28 4 == 2#4 then
    s1.modHar h fun k => { k with actPend := false, flt := setBit k.flt 25 true }
  else actHarness h k.actWord (s1.modHar h fun k => { k with actPend := false })

/-! ### Faults (R207 to R209) -/

/-- The flag of a fault code for a member, phase or high side in word 0x60 (R213). -/
def faultBit (code member : Nat) : Nat :=
  match code with
  | 1 => member % 4
  | 2 => 4
  | 3 => 5
  | 4 => 6 + member % 3
  | 5 => 9 + member % 3
  | 6 => 12
  | 7 => 13
  | 8 => 14 + member % 4
  | _ => 18 + member % 4

/-- The sense code as a HARNESS_FAULT record carries it: 10 bits for OC_SUM, 8 otherwise (R209). -/
def senseData (code : Byte) (sense : BitVec 10) : W32 := if code = 2 then sense.zeroExtend 32 else satNat 8 sense.toNat |>.zeroExtend 32

/-- The flag of a fault arrives at the harness block (R207 to R209). Codes 8 and 9 report only. -/
def faultHarness (code member : Byte) (sense : BitVec 10) (h : HarnessId) (s : State) : State :=
  let k := s.har[h]
  if !k.power then s
  else
    let r : Rec := { time := s.nowEv, kind := 0x1E, src := BitVec.ofNat 8 h.val, flags := 2, aux := member ++ code,
                     data := senseData code sense }
    let s := detEvent 0x0D (BitVec.ofNat 8 h.val) 0 false (code.zeroExtend 32) s
    let s := s.modHar h fun k => { k with flt := setBit k.flt (faultBit code.toNat member.toNat) true }
    if code.toNat ≥ 8 then
      postB63 r (s.modHar h fun k => { k with openCnt := if code = 8 then satInc k.openCnt else k.openCnt })
    else
      let s := regate h (s.modHar h fun k => { k.idleGates with hstate := .fault, actPend := false, cut := false, flag := none })
      let s := forEach k.channels safeChannel s
      let s := forEach k.channels adoptCh (adoptHar h s)
      motionFault h (postB63 r s)

/-- Open power-class harnesses. -/
def powerHarnesses (s : State) : List HarnessId := (idxs 16).filter fun h => s.har[h].power

/-- SAFE to every open power-class harness. -/
def safePower (s : State) : State := forEach (powerHarnesses s) safeHarness s

/-- LINK_FAULT: every power-class harness is cut with code 7 (03_crossings.md R58, R207). -/
def linkFault (s : State) : State :=
  forEach (powerHarnesses s) (faultHarness 7 0xFF 0) { s with link := { s.link with fault := true } }

/-- The charge pump stops when no power-class harness is open (R194). -/
def pumpOff (s : State) : State :=
  if (powerHarnesses s).isEmpty then { s with link := { s.link with cpRun := false, cpReady := false } } else s

/-- Close a harness: every gate off first; its unconfirmed spillway entries are withdrawn (R190, R326, R146). -/
def closeHarness (h : HarnessId) (s : State) : State :=
  let s := regate h (s.modHar h fun k => k.idleGates)
  let s := withdraw (fun e => e.tkind == 2 && e.tgt == BitVec.ofNat 8 h.val) s
  let s := { s with far := { s.far with tabHar := vmod s.far.tabHar h fun _ => TabHar.reset } }
  let l := s.har[h].channels
  forEach l feedPins (pumpOff (s.modHar h fun _ => Harness.reset))

end Sys2Proof.Machine
end

