-- ==== Sys2Proof/Machine/Channel.lean ====
section
/-! DEFINITION. The commands on channel units: CTRL, compare and shadow writes, matches, boundaries, forces, inputs and
captures (04_channels.md R71 to R94). -/

namespace Sys2Proof.Machine

/-- The outcome of a command. -/
abbrev Out := Host.Outcome State Fault Refusal

/-- An event at an instant: time passes to it, and where its condition holds it takes effect. One whose condition does
not hold is no event of the block and changes nothing (log entry 4). -/
def event (t : Instant) (cond : State → Bool) (f : State → State) (s : State) : Out :=
  .next (if cond (advanceTo t s) then f (advanceTo t s) else s)

/-! ### CTRL (R72 to R74) -/

/-- CTRL_WRITE (R72). -/
def execCtrlWrite (u : UnitId) (v : W32) (s : State) : Out := .next (writeCtrl u v s)

/-- CHANNEL_ENABLE (R73, R74, R79). -/
def execChannelEnable (t : Instant) (u : UnitId) (v : W32) (s : State) : Out := .next (writeCtrl u v (advanceTo t s))

/-- CHANNEL_DISABLE (R73). -/
def execChannelDisable (u : UnitId) (v : W32) (s : State) : Out := .next (writeCtrl u v s)

/-! ### Compares and shadows (R75 to R84) -/

/-- Stage a low word: 0 CMPA_LO, 1 CMPB_LO, 2 SHA_LO, 3 SHB_LO (R75, R82). -/
def ChanUnit.stageLo (c : ChanUnit) (which : Fin 4) (v : W32) : ChanUnit :=
  match which with
  | 0 => { c with cmpALo := v }
  | 1 => { c with cmpBLo := v }
  | 2 => { c with shALo := v }
  | 3 => { c with shBLo := v }

/-- CMP_LO_WRITE (R75). -/
def execCmpLoWrite (u : UnitId) (which : Fin 4) (v : W32) (s : State) : Out := .next (s.modUnit u fun c => c.stageLo which v)

/-- CMP_HI_WRITE (R75). -/
def execCmpHiWrite (u : UnitId) (b : Bool) (v : W16) (s : State) : Out :=
  .next (s.modUnit u fun c => c.loadCmp (effTime s u) b (v ++ (if b then c.cmpBLo else c.cmpALo)))

/-- A compare becomes effective: a free-mode one that is armed and passed fires at once, with LATE (R76); a local one
matches at its crossings from here on (R81). -/
def becomeEffective (u : UnitId) (b : Bool) (s : State) : State :=
  let s1 := s.modUnit u fun c =>
    let c := if b then { c with effB := true } else { c with effA := true }
    if c.en then c.setDone b (later (c.done b) (c.effT b - 1)) else c
  let c := s1.units[u]
  if c.en && c.mode == 0#2 && c.arm b && passed s.nowEv (c.fireAt b) then fireFree u b true s1 else s1

/-- COMPARE_EFFECTIVE (R76). -/
def execCompareEffective (t : Instant) (u : UnitId) (b : Bool) (s : State) : Out :=
  event t (fun s => unitFine s u && !s.units[u].eff b && passed s.nowEv (s.units[u].effT b)) (becomeEffective u b) s

/-! ### Matches and boundaries in time order (R75, R78 to R82, R86, R87) -/

/-- What can fall due in an enabled unit: the boundary, its action ahead of it, a free-mode match, a local match, the top of an
up/down pass. -/
inductive UnitEv where
  | boundary
  | early
  | free (b : Bool)
  | local_ (b down : Bool)
  | top
deriving DecidableEq, Repr

/-- A free-mode compare stands armed and effective, and event time has reached its value plus its trim (R75, R77). -/
def matchDue (s : State) (u : UnitId) (b : Bool) : Bool :=
  let c := s.units[u]
  unitFine s u && c.en && c.mode == 0#2 && c.armedAt b s.now && c.eff b && passed s.nowEv (c.fireAt b)

/-- The crossing of a local compare that is due and has not been matched: reached, or at hand under a negative trim, which may
place the edge ahead of the pass that crosses (R80, R81, R87). -/
def localDue (s : State) (u : UnitId) (b down : Bool) : Option EvTime :=
  let c := s.units[u]
  let e := c.early (c.localAct b down)
  let due (x : EvTime) : Bool := passed s.nowEv (x + e) && decide (0 < evDiff x (c.done b))
  if !(unitFine s u && c.en && c.mode != 0#2) then none
  else
    match (c.localTime b down).filter due with
    | some x => some x
    | none => if e = 0 ∨ passed s.nowEv c.passEnd then none else (c.nextTime b down).filter due

/-- The counter has reached the top of an up/down pass, and has not been seen there. -/
def topDue (s : State) (u : UnitId) : Bool :=
  let c := s.units[u]
  unitFine s u && c.en && c.mode == 3#2 && !c.dir && passed s.nowEv (c.porg + BitVec.ofNat 48 (8 * c.prdRun.toNat))

/-- The end of the present pass has been reached. -/
def boundaryDue (s : State) (u : UnitId) : Bool :=
  let c := s.units[u]
  unitFine s u && c.en && c.mode != 0#2 && passed s.nowEv c.passEnd

/-- ACT_P is placed ahead of the boundary by a negative trim, and its time has come (R87). -/
def earlyDue (s : State) (u : UnitId) : Bool :=
  let c := s.units[u]
  unitFine s u && c.en && c.mode != 0#2 && !c.pDone && c.early (fld c.act 0 2) != 0 &&
  !passed s.nowEv c.passEnd && passed s.nowEv (c.passEnd + c.early (fld c.act 0 2))

/-- What is due of a unit, with the time at which it falls and its order at one time: P, A, B (R86). -/
def dueEvents (s : State) (u : UnitId) : List (EvTime × Nat × UnitEv) :=
  let c := s.units[u]
  let free (b : Bool) (r : Nat) : List (EvTime × Nat × UnitEv) := if matchDue s u b then [(c.fireAt b, r, .free b)] else []
  let loc (b down : Bool) (r : Nat) : List (EvTime × Nat × UnitEv) := ((localDue s u b down).map fun x => (x, r, UnitEv.local_ b down)).toList
  (if boundaryDue s u then [(c.passEnd, 0, .boundary)] else []) ++ (if earlyDue s u then [(c.passEnd, 0, .early)] else []) ++
  free false 1 ++ free true 2 ++ loc false false 1 ++ loc false true 1 ++ loc true false 2 ++ loc true true 2 ++
  (if topDue s u then [(c.porg + BitVec.ofNat 48 (8 * c.prdRun.toNat), 3, .top)] else [])

/-- The first of a list of events in time, by their order at one time. -/
def firstEvent (l : List (EvTime × Nat × UnitEv)) : Option UnitEv :=
  (l.foldl (fun b e => match b with
    | none => some e
    | some k => if evDiff e.1 k.1 < 0 ∨ (e.1 = k.1 ∧ e.2.1 < k.2.1) then some e else some k) none).map (·.2.2)

/-- A local match: the action and notify of its direction, its edge at the crossing plus the trim (R80, R85, R87). -/
def localMatch (u : UnitId) (b down : Bool) (x : EvTime) (s : State) : State :=
  let c := s.units[u]
  let act := c.localAct b down
  matchAt u b act x (x + c.trim act) (x >>> 3) false false (s.modUnit u fun c => c.setDone b x)

/-- The counter of an up/down channel reaches PRD: it counts down from here, and UPD 0b010 and 0b011 have their point. -/
def topPoint (u : UnitId) (s : State) : State :=
  let c := s.units[u]
  let time := c.porg + BitVec.ofNat 48 (8 * c.prdRun.toNat)
  s.modUnit u fun c =>
    let c := { c with dir := true }
    if c.upd = 2#3 || c.upd = 3#3 then c.update (time + effDelay s u) (s.inst time) else c

/-- The boundary's own update points: UPD 0b001 and 0b011 transfer everything, 0b100 the period (R82). -/
def ChanUnit.boundaryPoint (c : ChanUnit) (d : EvTime) (p : Instant) : ChanUnit :=
  if c.upd = 1#3 || c.upd = 3#3 then c.update d p
  else if c.upd = 4#3 && !c.lock then c.transferPrd p
  else c

/-- ACT_P of the coming boundary, ahead of it (R87). -/
def earlyBoundary (u : UnitId) (s : State) : State :=
  let c := s.units[u]
  let act := fld c.act 0 2
  applyAction u act c.passEnd (c.passEnd + c.trim act) (c.passEnd >>> 3) false (s.modUnit u fun c => { c with pDone := true })

/-- A pass ends: ACT_P and NTF_P at the boundary, PORG moves by the pass just ended, the update points, and the next
pass begins with the PRD now in force (R79, R82, R86, R88). A boundary that a tide edge applies acts at that edge (R98). -/
def boundary (u : UnitId) (s : State) : State :=
  let c := s.units[u]
  let n := c.passCounts
  let time := c.passEnd
  let act := if c.pDone then 0#2 else fld c.act 0 2
  let fine := s.rootRuns
  let placed := if fine then time + c.trim act else s.nowEv
  let s := s.modUnit u fun c => { c with pDone := true }
  let s1 := applyAction u act time placed (if fine then time >>> 3 else s.nowEv >>> 3) (!fine) s
  let pw := if n < 2 ^ 32 then BitVec.ofNat 32 n else Config.noFit n
  let s2 := notify u (fld c.act 14 2) 2 { XEv.reset with what := 2, stamp := time, pw := pw } s1
  s2.modUnit u fun c =>
    let c := { c with porg := time, dir := c.mode == 2#2, pDone := false
                      doneA := later c.doneA (time - 1), doneB := later c.doneB (time - 1) }
    let c := c.boundaryPoint (time + effDelay s u) (s.inst time)
    { c with prdRun := c.prd }

/-- One event of a unit. -/
def applyEvent (u : UnitId) (e : UnitEv) (s : State) : State :=
  match e with
  | .boundary => boundary u s
  | .early => earlyBoundary u s
  | .free b => fireFree u b false s
  | .local_ b down => match localDue s u b down with | some x => localMatch u b down x s | none => s
  | .top => topPoint u s

/-- The events of a unit that are due, in order, up to one that `last` accepts; at most `n` of them. -/
def runEvents (u : UnitId) (last : UnitEv → Bool) : Nat → State → State
  | 0, s => s
  | n + 1, s =>
    match firstEvent (dueEvents s u) with
    | none => s
    | some e => if last e then applyEvent u e s else runEvents u last n (applyEvent u e s)

/-- A row for an event of a unit: what falls before it comes about first (R86). -/
def unitEvent (t : Instant) (u : UnitId) (last : UnitEv → Bool) (s : State) : Out :=
  event t (fun s => (dueEvents s u).any fun e => last e.2.2) (runEvents u last 16) s

/-- COMPARE_MATCH (R75). -/
def execCompareMatch (t : Instant) (u : UnitId) (b : Bool) (s : State) : Out := unitEvent t u (· == .free b) s

/-- LOCAL_MATCH (R80). -/
def execLocalMatch (t : Instant) (u : UnitId) (b : Bool) (down : Bool) (s : State) : Out := unitEvent t u (· == .local_ b down) s

/-- PERIOD_BOUNDARY (R79). In up/down mode the command also stands for the top of the pass, and under a negative trim for ACT_P
ahead of the boundary; the table gives these no row of their own. -/
def execPeriodBoundary (t : Instant) (u : UnitId) (s : State) : Out :=
  unitEvent t u (fun e => e == .boundary || e == .early || e == .top) s

/-- SHADOW_WRITE: 0 SHA_HI, 1 SHB_HI, 2 PRD_SH (R82, R84). -/
def execShadowWrite (u : UnitId) (which : Fin 3) (v : W32) (s : State) : Out :=
  .next (s.modUnit u fun c => match which with
    | 0 => c.writeShadow (effTime s u) s.now false (v.truncate 16 ++ c.shALo)
    | 1 => c.writeShadow (effTime s u) s.now true (v.truncate 16 ++ c.shBLo)
    | 2 => c.writePrdSh (effTime s u) s.now v)

/-! ### Disarm and force (R77, R89, R94) -/

/-- DISARM_A (R77). -/
def execDisarmA (u : UnitId) (s : State) : Out := .next (s.modUnit u fun c => c.disarm s.now false)

/-- DISARM_B (R77). -/
def execDisarmB (u : UnitId) (s : State) : Out := .next (s.modUnit u fun c => c.disarm s.now true)

/-- FORCE_HIGH (R89). -/
def execForceHigh (u : UnitId) (s : State) : Out := .next (force u 1 s)

/-- FORCE_LOW (R89). -/
def execForceLow (u : UnitId) (s : State) : Out := .next (force u 2 s)

/-- FORCE_SAFE (R89, R94). -/
def execForceSafe (u : UnitId) (s : State) : Out := .next (force u 3 s)

/-! ### Inputs (R90) -/

/-- INPUT_EDGE (R90): the board drives the pin that the channel selects to `level`, or with `z` no longer drives it. What the
channel sees of a pin that it drives itself against the board is what the row says; its own output it sees as it is (R71, R450). -/
def execInputEdge (t : Instant) (u : UnitId) (level z : Bool) (s : State) : Out :=
  .next (
    let s1 := boardLevel u level z (advanceTo t s)
    let sel := s1.units[u].insel
    let raw := if z || s1.pinsCut || sel == 46#6 then inputLevel s1 u sel s1.now else level
    if unitFine s1 u && hasInput s1 u && s1.units[u].cap.raw != raw then inputEdge u raw s1.nowEv s1 else s1)

/-- FILTER_ACCEPT (R90): with FILT 0 only the synchroniser acts, so the transition is accepted at the end of its FAB cycle. -/
def execFilterAccept (t : Instant) (u : UnitId) (s : State) : Out :=
  event t (fun s => unitFine s u && candDue s u) (acceptEdge u) s

end Sys2Proof.Machine
end

