-- ==== Sys2Proof/Machine/Spill.lean ====
section
/-! DEFINITION. Shared operations of the spillway: writing, confirmation, the lead test, discards (06_spillway.md). -/

namespace Sys2Proof.Machine

/-- The channel a compare entry targets. -/
def SpwEnt.chan (e : SpwEnt) : Option Lch := if e.tkind.toNat < 2 then idx? 64 e.tgt.toNat else none

/-- The harness a harness entry targets. -/
def SpwEnt.harness (e : SpwEnt) : Option HarnessId := if e.tkind = 2 then idx? 16 e.tgt.toNat else none

/-- The channel of a channel entry is under migration (R147). -/
def SpwEnt.migrating (s : State) (e : SpwEnt) : Bool :=
  match e.chan with | some l => s.lmap[l].mig.isSome | none => false

/-- The target can be armed: an enabled free-mode channel that is not held safe and not retired, or an open harness
that is not in fault; a migrating channel counts as the one it holds (R139, R147). -/
def SpwEnt.armable (s : State) (e : SpwEnt) : Bool :=
  match e.chan, e.harness with
  | some l, _ =>
    match unitOf s l with
    | some u => s.lmap[l].open_ && s.units[u].en && s.units[u].mode == 0#2 && (!s.units[u].safeHeld || s.lmap[l].mig.isSome)
    | none => false
  | none, some h => s.har[h].kind != 0 && s.har[h].hstate != .fault
  | none, none => false

/-- The time at which the target first acts, for an entry whose time is absolute (R142). -/
def SpwEnt.actsAt (s : State) (e : SpwEnt) : EvTime :=
  match e.chan with
  | some l =>
    match unitOf s l with
    | some u =>
      let c := s.units[u]
      let r : BitVec 48 := c.trimRise.signExtend 48
      let f : BitVec 48 := c.trimFall.signExtend 48
      e.time + (if r.toInt ≤ f.toInt then r else f) - (if gateLine s l then 16 else 0)
    | none => e.time
  | none => e.time - 16

/-- Insert an entry into a list ordered by acting time, then index (R145). -/
def insertEnt (s : State) (i : Fin 256) : List (Fin 256) → List (Fin 256)
  | [] => [i]
  | j :: r =>
    let ti := evDiff (SpwEnt.actsAt s s.spw.ent[i]) s.nowEv
    let tj := evDiff (SpwEnt.actsAt s s.spw.ent[j]) s.nowEv
    if ti < tj ∨ (ti = tj ∧ i.val < j.val) then i :: j :: r else j :: insertEnt s i r

/-- Two entries name the same compare, or the same harness (R145). -/
def SpwEnt.conflicts (a b : SpwEnt) : Bool := a.tkind == b.tkind && a.tgt == b.tgt

/-- Of an ordered list keep the first entry for each target. -/
def firstPerTarget (s : State) (l : List (Fin 256)) : List (Fin 256) :=
  (l.foldl (fun acc i => if acc.any (fun j => SpwEnt.conflicts s.spw.ent[j] s.spw.ent[i]) then acc else i :: acc) []).reverse

/-- Entries confirmed with a stamp (R140, R141, R145, R147): TARGET for those that cannot be armed. With the entries that other
events confirmed in the same ENG cycle, the rest are put in order, CONFLICT taking all but the first of each target; an entry that
has entered X78 already stands first. -/
def confirm (l : List (Fin 256)) (stamp : EvTime) (s : State) : State :=
  let timed (e : SpwEnt) : SpwEnt := if e.trel then { e with time := stamp + e.time, trel := false } else e
  let s := s.modSpw fun w => { w with ent := l.foldl (fun v i => vmod v i timed) w.ent }
  let ok := l.filter fun i => SpwEnt.armable s s.spw.ent[i]
  let bad := l.filter fun i => !SpwEnt.armable s s.spw.ent[i]
  let group : List (Fin 256) := if sameEng s.spw.confAt s.now then s.spw.confGrp.map (bvFin 256 rfl) else []
  let inside := group.filter fun i => !s.spw.x78.contains (BitVec.ofNat 8 i.val)
  let waiting := group.filter fun i => s.spw.x78.contains (BitVec.ofNat 8 i.val)
  let ordered := (waiting ++ ok).foldl (fun acc i => insertEnt s i acc) []
  let keep := (firstPerTarget s ordered).filter fun i => !inside.any fun j => SpwEnt.conflicts s.spw.ent[j] s.spw.ent[i]
  let lose := ordered.filter fun i => !keep.contains i
  let s := dropEntries (bad ++ lose) s
  s.modSpw fun w => { w with
    target := satAdd w.target bad.length
    conflict := satAdd w.conflict lose.length
    ent := keep.foldl (fun v i => vmod v i fun e => { e with conf := true }) w.ent
    x78 := (w.x78.filter fun i => !keep.contains (bvFin 256 rfl i)) ++ keep.map fun i => BitVec.ofNat 8 i.val
    confAt := s.now
    confGrp := (inside ++ keep).map fun i => BitVec.ofNat 8 i.val }

/-- Confirm the unconfirmed entries that wait for an event; expired ones are gone first (R144). -/
def confirmWhere (p : SpwEnt → Bool) (stamp : EvTime) (s : State) : State :=
  let late := s.entries fun e => !e.conf && p e && passed s.nowEv e.expiry
  let s := (dropEntries late s).modSpw fun w => { w with expired := satAdd w.expired late.length }
  confirm (s.entries fun e => !e.conf && p e) stamp s

/-- Signed lead in fines, saturating (R142). -/
def leadOf (s : State) (e : SpwEnt) : Int := evDiff (SpwEnt.actsAt s e) s.nowEv

/-- A compare write of X78 at this FAB edge stands against those of the engines (07_microcode.md R165). -/
def noteX78 (l : Lch) (b : Bool) (s : State) : State :=
  let top := if sameCycle s.arm.at_ s.now then s.arm.top else []
  { s with arm := { s.arm with at_ := s.now, top := (BitVec.ofNat 8 l.val, bif b then 1 else 0, 8) :: top } }

/-- A confirmed entry enters X78: armed with a lead of 64 fines or more, discarded whole otherwise (R142, R143). DESIGN CHOICE (log
entry 40): one whose channel or harness was closed while it waited is discarded and counted as TARGET. -/
def enterX78 (i : Fin 256) (s : State) : State :=
  let e := s.spw.ent[i]
  let lead := leadOf s e
  let s1 := (dropEntries [i] s).modSpw fun w => { w with x78At := some s.now }
  if 64 ≤ lead then
    let s2 := s1.modSpw fun w => { w with confirmed := satInc w.confirmed }
    match e.chan.bind (unitOf s), e.harness with
    | some u, _ => noteX78 (e.chan.getD 0) (e.tkind == 1) (s2.modUnit u fun c => c.writeCmp (effTime s u) (e.tkind == 1) e.time)
    | none, some h =>
      if s.har[h].kind = 0 ∨ s.har[h].hstate = .fault then s1.modSpw fun w => { w with target := satInc w.target }
      else armTimed h e.time e.hact s2
    | none, none => s1.modSpw fun w => { w with target := satInc w.target }
  else
    let s2 := s1.modSpw fun w => { w with late := satInc w.late, lateFlag := true }
    postB63 (sysRec s.nowEv 0x13 (BitVec.ofNat 8 i.val) (e.tkind ++ e.tgt)
      (BitVec.ofInt 32 (max (-2147483647) (min 2147483647 lead)))) s2

/-- Fields of an entry lie inside the entry format (R151, R191); `z` is FLAGS bits 6:1. -/
def entFieldsOk (s : State) (e : SpwEnt) (z : BitVec 6) : Bool :=
  z == 0#6 && decide (e.tkind.toNat ≤ 2) && decide (e.ckind.toNat ≤ 3) &&
  (if e.tkind = 2 then decide (e.tgt.toNat < 16) else decide (e.tgt.toNat < 64) && e.hact == 0) &&
  (if e.tkind = 2 then
     match e.harness with
     | some h => s.har[h].kind == 0 || actionValid s.har[h].kind e.hact
     | none => false
   else true) &&
  (if e.ckind = 1 then decide (e.csrc.toNat < 2)
   else if e.ckind = 2 then decide (e.csrc.toNat < 64) && decide (e.carg.toNat ≤ 3) else true) &&
  (!e.trel || fld e.time 32 16 == 0#16)

/-- Why a write is refused, in the order of R170: 5 field, 4 TREL, 2 target, 3 expiry, 1 full; none when it is taken. -/
def spwRefusal (s : State) (prog : ProgId) (e : SpwEnt) (z : BitVec 6) : Option Nat :=
  let p := s.prog[prog]
  let bound : Bool := match e.chan, e.harness with
    | some l, _ => bit p.chMask l.val && SpwEnt.armable s e
    | none, some h => bit p.hMask h.val && s.har[h].kind != 0
    | none, none => false
  if !entFieldsOk s e z then some 5
  else if e.trel && (e.ckind == 0 || e.ckind == 3) then some 4
  else if !bound then some 2
  else if passed s.nowEv e.expiry then some 3
  else if (idxs 256).all (fun i => s.spw.ent[i].valid) then some 1
  else none

/-- Write an entry: the handle, or the reason of the refusal (R138, R139, R170). DESIGN CHOICE (log entry 40): the write takes the
lowest-numbered free slot, and the first use of a slot after reset already has generation 1. -/
def spwWrite (prog : ProgId) (owner : Tid) (e : SpwEnt) (z : BitVec 6) (s : State) : State × (Nat ⊕ W16) :=
  match spwRefusal s prog e z, (idxs 256).find? fun i => !s.spw.ent[i].valid with
  | some r, _ => (s.modSpw fun w => { w with refused := satInc w.refused }, .inl r)
  | none, none => (s.modSpw fun w => { w with refused := satInc w.refused }, .inl 1)
  | none, some i =>
    let gen := s.spw.ent[i].gen + 1
    let s := s.modEnt i fun _ => { e with valid := true, conf := false, owner := BitVec.ofNat 8 owner.val, gen := gen }
    let s := clearMarks 5 (4 * i.val) (4 * i.val + 3) s
    (if e.ckind = 0 then confirm [i] s.nowEv s else s, .inr (gen ++ BitVec.ofNat 8 i.val))

/-- Discard entries as SYNC at a loss of sync of tracker `n`: its unconfirmed tooth-conditioned entries, and confirmed
entries still waiting for X78 whose target is a linked output (R148, 10_gait.md R245). -/
def syncDiscard (n : Fin 2) (linkCh : BitVec 64) (linkH : BitVec 16) (s : State) : State :=
  let l := s.entries fun e =>
    (!e.conf && e.ckind == 1 && e.csrc.toNat == n.val) ||
    (e.conf && (match e.chan, e.harness with
      | some c, _ => bit linkCh c.val
      | none, some h => bit linkH h.val
      | none, none => false))
  (dropEntries l s).modSpw fun w => { w with sync := satAdd w.sync l.length }

end Sys2Proof.Machine
end

