-- ==== Sys2Proof/Machine/Motion.lean ====
section
/-! DEFINITION. The bridge and axis programs: starts, commutation, speed, braking, steps and targets (09_motion.md). Their code is
no part of the spec: the model carries out what the rules say of them at the events that move them on. -/

namespace Sys2Proof.Machine

/-! ### Parameters and states (R229, R230) -/

/-- Parameter `i` of the program. -/
def Motion.p (m : Motion) (i : Fin 22) : Nat := m.par[i].toNat

/-- Speed in rpm of a crossing interval in fines (R216); its rounding is not stated. -/
def Motion.rpm (m : Motion) (t : Nat) : W32 := satNat 32 (if t = 0 ∨ m.p 0 = 0 then 0 else openDiv 64000000000 (t * m.p 0))

/-- Crossing interval in fines at a speed. -/
def Motion.interval (m : Motion) (rpm : Nat) : Nat := if rpm = 0 ∨ m.p 0 = 0 then 0 else openDiv 64000000000 (rpm * m.p 0)

/-- All phases of a harness to FLOAT. -/
def floatPhases (h : HarnessId) (s : State) : State := phaseHarness h 0 s

/-- The bridge or axis program open on a harness. -/
def motionProg (s : State) (h : HarnessId) : Option ProgId :=
  (idxs 16).find? fun p => s.prog[p].open_ && s.prog[p].shipped && s.prog[p].har.toNat == h.val

/-- A program's first thread: commutation, or the stepper (R214). -/
def firstTid (s : State) (p : ProgId) : Tid := bvFin 64 rfl ((s.prog[p].tab.headD ThrEnt.reset).tid)

/-- Arm or disarm the timer of the program's first thread (07_microcode.md R162). -/
def progTimer (h : HarnessId) (t : Option EvTime) (s : State) : State :=
  match motionProg s h with
  | some p => s.modThr (firstTid s p) fun k => { k with timer := t }
  | none => s

/-- The program leaves what it did: phases FLOAT, no timer. -/
def leaveStage (h : HarnessId) (s : State) : State := progTimer h none (floatPhases h s)

/-- Begin the start decision: phases FLOAT, the catch window opens (R216). -/
def beginCatch (h : HarnessId) (s : State) : State :=
  (leaveStage h s).modMot h fun m => { m with
    st := 1, misses := 0, syncRun := 0, brakeDir := false, sumE := 0, cstep := 0, at_ := s.nowEv, xs := [], caught := none, comm := 0 }

/-- A start fails: phases FLOAT, START_FAIL with a reason and the speed last measured, the pending MOT_START answered (R219, R222,
R223). -/
def failStart (h : HarnessId) (reason status : Byte) (s : State) : State :=
  let s := (leaveStage h s).modMot h fun m => { m with st := 6 }
  answerStart h status [] (postMotion h 4 reason s.har[h].mot.speed s)

/-- RUN is reached by a catch or by synchronising: the record, and the answer of the pending MOT_START (R218, R219). -/
def enterRun (h : HarnessId) (ev : Byte) (speed : W32) (s : State) : State :=
  let s := s.modMot h fun m => { m with st := 5, speed := speed, misses := 0, sumE := 0 }
  answerStart h 0 ([ev, 0, 0, 0] ++ leBytes 4 speed.toNat) (postMotion h ev 0 speed s)

/-- The duty in force reaches the phase channels: shadow A, and the period shadow by PWM_HZ at 800 MHz and 2 × PRD counts a period
(R214, R221; 04_channels.md R78). -/
def driveDuty (h : HarnessId) (s : State) : State :=
  let m := s.har[h].mot
  let prd := if m.p 14 = 0 then 0 else openDiv 800000000 (2 * m.p 14)
  forEach ((List.range 3).filterMap s.har[h].memberCh)
    (fun l s => chanOp l 2 (Config.dutyCmp m.duty.toNat prd) (chanOp l 4 (BitVec.ofNat 48 prd) s)) s

/-- Set the duty, in 0.1 %. -/
def setDuty (h : HarnessId) (d : Nat) (s : State) : State :=
  driveDuty h (s.modMot h fun m => { m with duty := BitVec.ofNat 32 (100 * d) })

/-- Align: phase 0 PWM_C at ALIGN_DUTY, phases 1 and 2 LOW (R219). -/
def beginAlign (h : HarnessId) (s : State) : State :=
  setDuty h (s.har[h].mot.p 6) ((phaseHarness h 0b001001011 s).modMot h fun m => { m with st := 3, at_ := s.nowEv, peek := false })

/-- Brake: all phases BRAKE (R222). -/
def beginBrake (h : HarnessId) (stop : Bool) (s : State) : State :=
  (progTimer h none (phaseHarness h 0b101101101 s)).modMot h fun m => { m with
    st := 2, brakeDir := stop, brakeAt := s.nowEv, at_ := s.nowEv, peek := false, xs := [], comm := 0 }

/-- A stop is complete: phases FLOAT, STOPPED with the mode and the speed at the command (R223). -/
def stopped (h : HarnessId) (mode : Byte) (s : State) : State :=
  let s := (leaveStage h s).modMot h fun m => { m with st := 0, brakeDir := false, peek := false }
  postMotion h 6 mode s.har[h].mot.cmdSpeed s

/-! ### What a catch window or a peek observes (R216) -/

/-- The crossings come in one order: forward (0, 1, 2) or reverse; none for fewer than 3 or a mixed order, which count as standing. -/
def Motion.turning (m : Motion) : Option Bool :=
  let steps (k : Nat) : Bool := (m.xs.zip (m.xs.drop 1)).all fun x => x.1.2.toNat == (x.2.2.toNat + k) % 3
  if m.xs.length < 3 then none else if steps 1 then some true else if steps 2 then some false else none

/-- The speed by the mean interval between successive crossings; 0 for a standing motor. -/
def Motion.observed (m : Motion) : W32 :=
  match m.turning, m.xs.head?, m.xs.getLast? with
  | some _, some a, some b =>
    let t := (a.1 - b.1).toNat
    satNat 32 (if t = 0 ∨ m.p 0 = 0 then 0 else openDiv (64000000000 * (m.xs.length - 1)) (t * m.p 0))
  | _, _, _ => 0

/-! ### Speed (R221) -/

/-- The duty once per electrical cycle: DUTY in DUTY mode; in SPEED mode moved by KP and KI and clamped. While the clamp
holds, the sum does not grow. -/
def Motion.regulate (m : Motion) : Motion :=
  if m.p 15 = 0 then { m with duty := BitVec.ofNat 32 (100 * m.p 16) }
  else
    let e : Int := (m.p 17 : Int) - m.speed.toNat
    let sum := m.sumE + e
    let raw : Int := (m.duty.toNat : Int) + m.p 20 * e + m.p 21 * sum
    let lo : Int := 100 * m.p 18
    let hi : Int := 100 * m.p 19
    if raw < lo then { m with duty := BitVec.ofNat 32 (100 * m.p 18) }
    else if hi < raw then { m with duty := BitVec.ofNat 32 (100 * m.p 19) }
    else { m with duty := BitVec.ofInt 32 raw, sumE := sum }

/-! ### Crossings and commutation (R219, R220) -/

/-- The ramp has ended by a time: RAMP_T ms, 6,400,000 fines each (R219). -/
def Motion.rampDone (m : Motion) (t : EvTime) : Bool := passed t (m.rampAt + BitVec.ofNat 48 (6400000 * m.p 10))

/-- The speed of the ramp at a time (R219). -/
def Motion.rampRpm (m : Motion) (t : EvTime) : Nat :=
  let all := 6400000 * m.p 10
  let e := (t - m.rampAt).toNat
  if m.rampDone t ∨ all = 0 then m.p 9 else openDiv (m.p 8 * (all - e) + m.p 9 * e) all

/-- The phase states of a commutation step: one phase switched, one LOW, one floating, so that forward the phases float in the order
0, 1, 2 and the back-EMF of the switched phase is the higher (R216, R220; DEDUCED, log entry 44). -/
def commPhases (step : Nat) : BitVec 9 :=
  let pwm : BitVec 9 := if Config.commHigh step then 4 else 3
  let at_ (p : Nat) (v : BitVec 9) : BitVec 9 := v <<< (3 * p)
  match step with
  | 0 => at_ 1 pwm ||| at_ 2 1
  | 1 => at_ 0 pwm ||| at_ 2 1
  | 2 => at_ 0 pwm ||| at_ 1 1
  | 3 => at_ 2 pwm ||| at_ 1 1
  | 4 => at_ 2 pwm ||| at_ 0 1
  | _ => at_ 1 pwm ||| at_ 0 1

/-- The step in which a phase's back-EMF crosses the neutral upwards or downwards. -/
def crossStep (phase : Nat) (rising : Bool) : Nat :=
  match phase, rising with
  | 0, true => 0
  | 1, false => 1
  | 2, true => 2
  | 0, false => 3
  | 1, true => 4
  | _, _ => 5

/-- The step after another. -/
def nextStep (c : BitVec 3) : BitVec 3 := if c = 5 then 0 else c + 1

/-- The phases take step `c` by an immediate action. -/
def commutate (h : HarnessId) (c : BitVec 3) (s : State) : State :=
  (phaseHarness h (commPhases c.toNat) s).modMot h fun m => { m with cstep := c, comm := 0, commAt := s.nowEv, behind := satInc m.behind }

/-- Once per electrical cycle, at its first step, the duty is worked out and driven (R221). -/
def cycleDuty (h : HarnessId) (s : State) : State :=
  if s.har[h].mot.cstep = 0 then driveDuty h (s.modMot h Motion.regulate) else s

/-- The motor is in step at a crossing: the phases go on to the next step at once, and RUN begins (R218, R219; DESIGN CHOICE, log
entry 44). -/
def lockOn (h : HarnessId) (phase : Nat) (rising : Bool) (ev : Byte) (speed : W32) (s : State) : State :=
  let s := s.modMot h fun m => { m with caught := none, behind := 0 }
  let s := commutate h (nextStep (BitVec.ofNat 3 (crossStep phase rising))) (progTimer h none s)
  let s := enterRun h ev speed s
  if s.har[h].mot.p 15 = 0 then setDuty h (s.har[h].mot.p 16) s else s

/-- A back-EMF crossing (R216, R218 to R220): of a catch window or peek it is recorded; a motor that is caught, or that has followed
the ramp for SYNC_N crossings, is taken into step by it; in RUN it is the crossing that the written entry waits for. -/
def bemfCrossing (h : HarnessId) (phase : Nat) (rising : Bool) (stamp : EvTime) (s : State) : State :=
  let k := s.har[h]
  let m := k.mot
  let t := (stamp - m.lastX).toNat
  let s1 := s.modMot h fun m => { m with t60 := satNat 32 t, lastX := stamp }
  if k.phaseOf phase ≠ 0 then s
  else match m.st.toNat with
    | 1 =>
      match m.caught with
      | some v => lockOn h phase rising 2 v s1
      | none => s1.modMot h fun m => { m with xs := (stamp, BitVec.ofNat 2 phase) :: m.xs }
    | 2 => if m.peek then s1.modMot h fun m => { m with xs := (stamp, BitVec.ofNat 2 phase) :: m.xs } else s
    | 4 =>
      let pred := m.interval (m.p 9)
      let ok := m.rampDone stamp && decide (4 * (t - pred + (pred - t)) ≤ pred)
      let n := if ok then satInc m.syncRun else 0
      let s2 := s1.modMot h fun m => { m with syncRun := n, speed := m.rpm t }
      if m.p 11 ≤ n.toNat then lockOn h phase rising 1 (m.rpm t) s2 else s2
    | 5 =>
      if m.comm = 1 then s1.modMot h fun m => { m with speed := m.rpm t, comm := 2, behind := 0 }
      else if m.comm = 3 then s1.modMot h fun m => { m with speed := m.rpm t, behind := 0 }
      else s
    | _ => s

/-- The phase action of a confirmed entry has applied: the step it carried has begun (R220). -/
def commuted (h : HarnessId) (s : State) : State :=
  let m := s.har[h].mot
  if m.prog = .bridge ∧ m.st = 5 then
    cycleDuty h (s.modMot h fun m => { m with cstep := nextStep m.cstep, comm := 0, commAt := s.nowEv, misses := 0, behind := satInc m.behind })
  else s

/-- A commutation that no crossing confirmed: once an immediate action, the second time a stall (R220). -/
def commutationMiss (h : HarnessId) (s : State) : State :=
  let m := s.har[h].mot
  if m.st ≠ 5 then s
  else if 1 ≤ m.misses.toNat then
    postMotion h 5 0 m.speed ((leaveStage h s).modMot h fun m => { m with st := 6, misses := satInc m.misses })
  else cycleDuty h ((commutate h (nextStep m.cstep) s).modMot h fun m => { m with misses := 1 })

/-- The phase that floats. -/
def Harness.floating (k : Harness) : Option Nat := (List.range 3).find? fun p => k.phaseOf p == 0

/-- The delay from a crossing to its commutation in fines (R220). -/
def Motion.delay (m : Motion) : Nat := openDiv (m.t60.toNat * (30 - m.p 12)) 60

/-- The predicted crossing of the present step: one T60 for each commutation since the last crossing (R220). -/
def Motion.predicted (m : Motion) : EvTime := m.lastX + BitVec.ofNat 48 (m.t60.toNat * max 1 m.behind.toNat)

/-- The spillway entry of the next commutation (R220). -/
def commEntry (k : Harness) : Option SpwEnt :=
  match k.floating.bind k.memberCh with
  | none => none
  | some l =>
    let m := k.mot
    some { SpwEnt.reset with
      time := BitVec.ofNat 48 m.delay, tkind := 2, ckind := 2, csrc := BitVec.ofNat 8 l.val, carg := 2, trel := true
      expiry := m.predicted + m.t60.zeroExtend 48, hact := 4#4 ++ (0#19 : BitVec 19) ++ commPhases (nextStep m.cstep).toNat }

/-- A commutation of the ramp: the next step, and the timer at the one after it (R219). -/
def rampStep (h : HarnessId) (s : State) : State :=
  let m := s.har[h].mot
  progTimer h (some (s.nowEv + BitVec.ofNat 48 (m.interval (m.rampRpm s.nowEv)))) (commutate h (nextStep m.cstep) s)

/-- The timer of the commutation thread matches: the ramp goes on a step, or a commutation whose entry was refused is due (R219,
R220). -/
def bridgeTimer (h : HarnessId) (s : State) : State :=
  let m := s.har[h].mot
  if m.st = 4 then rampStep h s else if m.st = 5 ∧ m.comm = 3 then commutationMiss h s else s

/-- The harness whose shipped program has this thread as its first. -/
def motionOf (s : State) (tid : Tid) : Option HarnessId :=
  let p : ProgId := bvFin 16 rfl s.thr[tid].prog
  let g := s.prog[p]
  if s.thr[tid].st ≠ .free && g.open_ && g.shipped && firstTid s p == tid then some (bvFin 16 rfl g.har) else none

/-! ### Commands -/

/-- A harness runs a program in a state. -/
def motIn (s : State) (h : HarnessId) (prog : MotProg) (st : Byte) : Bool := s.har[h].mot.prog == prog && s.har[h].mot.st == st

/-- The time since the stage of the program began, in fines; 1 ms is 6,400,000. -/
def inStage (s : State) (h : HarnessId) : Nat := (s.nowEv - s.har[h].mot.at_).toNat

/-- CATCH_WINDOW_END (R218): a motor that turns forward above CATCH_RPM synchronises at its next crossing. -/
def execCatchWindowEnd (t : Instant) (h : HarnessId) (s : State) : Out :=
  event t (fun s => motIn s h .bridge 1 && s.har[h].mot.caught.isNone && decide (6400000 * s.har[h].mot.p 1 ≤ inStage s h))
    (fun s =>
      let m := s.har[h].mot
      let v := m.observed
      let s := s.modMot h fun m => { m with speed := v }
      if m.turning = some true ∧ m.p 2 < v.toNat then s.modMot h fun m => { m with caught := some v }
      else if m.turning = some false ∧ m.p 3 < v.toNat then beginBrake h false (postMotion h 3 0 v s)
      else beginAlign h s) s

/-- ALIGN_END (R219): the ramp begins at RAMP_DUTY. -/
def execAlignEnd (t : Instant) (h : HarnessId) (s : State) : Out :=
  event t (fun s => motIn s h .bridge 3 && decide (6400000 * s.har[h].mot.p 5 ≤ inStage s h))
    (fun s =>
      let s := s.modMot h fun m => { m with st := 4, syncRun := 0, lastX := s.nowEv, rampAt := s.nowEv, cstep := 5, behind := 0 }
      rampStep h (setDuty h (s.har[h].mot.p 7) s)) s

/-- NO_SYNC_TIMEOUT (R219): 500 ms after the end of the ramp. -/
def execNoSyncTimeout (t : Instant) (h : HarnessId) (s : State) : Out :=
  event t (fun s => motIn s h .bridge 4 && s.har[h].mot.rampDone (s.nowEv - 3200000000)) (failStart h 2 0x12) s

/-- The blanking time has passed since the commutation, and its entry is not written (R220). -/
def blankOver (s : State) (h : HarnessId) : Bool :=
  let m := s.har[h].mot
  motIn s h .bridge 5 && m.comm == 0 && decide (m.t60.toNat ≤ 8 * (s.nowEv - m.commAt).toNat)

/-- COMMUTATION_BLANKING_END (R220): a refused write counts as an expiry, at the predicted time. -/
def execCommutationBlankingEnd (t : Instant) (h : HarnessId) (s : State) : Out :=
  event t (fun s => blankOver s h)
    (fun s =>
      match motionProg s h, commEntry s.har[h] with
      | some p, some e =>
        let m := s.har[h].mot
        let (s1, r) := spwWrite p (firstTid s p) { e with tgt := BitVec.ofNat 8 h.val } 0 s
        match r with
        | .inl _ => progTimer h (some (m.predicted + BitVec.ofNat 48 m.delay)) (s1.modMot h fun m => { m with comm := 3 })
        | .inr _ => s1.modMot h fun m => { m with comm := 1 }
      | _, _ => s) s

/-- The length of a peek in fines: 20 ÷ (POLE_PAIRS × STOP_RPM) s (R222). -/
def Motion.peekLen (m : Motion) : Nat := if m.p 0 * m.p 3 = 0 then 0 else openDiv 128000000000 (m.p 0 * m.p 3)

/-- BRAKE_PEEK (R222): every 500 ms the phases float; at the end of a peek braking ends at STOP_RPM or below and goes on
otherwise. -/
def execBrakePeek (t : Instant) (h : HarnessId) (s : State) : Out :=
  event t (fun s => motIn s h .bridge 2 &&
      decide ((if s.har[h].mot.peek then s.har[h].mot.peekLen else 3200000000) ≤ inStage s h))
    (fun s =>
      let m := s.har[h].mot
      if !m.peek then (floatPhases h s).modMot h fun m => { m with peek := true, at_ := s.nowEv, xs := [] }
      else
        let v := m.observed
        let s := s.modMot h fun m => { m with peek := false, speed := v }
        if m.p 3 < v.toNat then phaseHarness h 0b101101101 s
        else if m.brakeDir then stopped h 1 s else beginAlign h s) s

/-- BRAKE_TIMEOUT (R222, R223): BRAKE_TO has elapsed, peeks included. -/
def execBrakeTimeout (t : Instant) (h : HarnessId) (s : State) : Out :=
  event t (fun s => motIn s h .bridge 2 && decide (6400000 * s.har[h].mot.p 4 ≤ (s.nowEv - s.har[h].mot.brakeAt).toNat))
    (fun s => if s.har[h].mot.brakeDir then stopped h 1 s else failStart h 1 0x11 s) s

/-! ### The axis (R224 to R227) -/

/-- AXIS_DONE with a reason: 0 target, 1 soft stop, 2 hard stop. -/
def axisDone (h : HarnessId) (reason : Byte) (s : State) : State :=
  let s := progTimer h none (s.modMot h fun m => { m with
    st := 0, armed := false, stopping := 0, overshoot := false, speed := 0, vsq := 0, acc := 0 })
  postMotion h 18 reason s.har[h].mot.pos s

/-- Steps to the target in the axis's direction: negative when it lies behind. -/
def Motion.ahead (m : Motion) : Int := let d := m.target.toInt - m.pos.toInt; if m.dirRev then -d else d

/-- The speed squared from which the axis can stop within `d` steps at DEC: v² = 2 × DEC × d (R226). -/
def Motion.stopSq (m : Motion) (d : Nat) : Nat := 2 * m.p 2 * d

/-- The target lies ahead at or beyond the stopping distance (R226). -/
def Motion.reaches (m : Motion) : Bool :=
  decide (0 ≤ m.ahead) &&
  (if m.p 3 = 0 then decide (m.vsq ≤ m.stopSq m.ahead.toNat) else Config.stopFits m.vsq (m.p 2) (m.p 3) m.ahead.toNat)

/-- A new target, or a step, leaves the move under way or begins a reversal (R226). -/
def Motion.plan (m : Motion) : Motion :=
  if m.reaches then { m with st := 1, overshoot := false } else { m with st := 2, overshoot := decide (0 ≤ m.ahead) }

/-- The time of one step in fines, by the squares of the speed at its two ends: 2 ÷ (v + w) seconds at constant acceleration. A step
that begins and ends at rest takes half of it to accelerate and half to decelerate (DESIGN CHOICE, log entry 45). -/
def Motion.stepTime (m : Motion) (a b : Nat) : Nat :=
  let root (n : Nat) : Nat := iroot 2 52 (n * 2 ^ 32)
  let w := if a + b = 0 then root (min (m.p 1) (m.p 2)) else root a + root b
  openDiv (2 * 6400000000 * 2 ^ 16) (max 1 w)

/-- The square of the speed at the end of the next step, and the acceleration in it (R224). It rises at ACC up to VMAX while the axis
can still stop at its target, and falls at DEC otherwise; with JERK the acceleration moves to that value by at most JERK for the time of
the last step, and its first value from rest is that of one step at JERK (DESIGN CHOICE, log entry 45). -/
def Motion.nextSpeed (m : Motion) : Nat × Int :=
  let d := m.ahead.toNat
  let top := m.p 0 * m.p 0
  let slow := m.st == 2 || m.stopping == 1
  if m.p 3 = 0 then
    let up := min top (m.vsq + 2 * m.p 1)
    if !slow && decide (up ≤ m.stopSq (d - 1)) then (up, m.p 1)
    else if !slow && decide (m.vsq ≤ m.stopSq (d - 1)) then (m.vsq, 0)
    else (m.vsq - 2 * m.p 2, -(m.p 2 : Int))
  else
    let go := !slow && Config.stopFits m.vsq (m.p 2) (m.p 3) (d - 1)
    let want : Int := if !go then -(m.p 2 : Int) else if m.vsq < top then m.p 1 else 0
    let da : Int := if m.vsq = 0 then iroot 3 32 (6 * m.p 3 * m.p 3) else openDiv (m.p 3 * m.stepTime m.vsq m.vsq) 6400000000
    let a : Int := if m.acc < want then min want (m.acc + da) else max want (m.acc - da)
    (min top ((m.vsq : Int) + 2 * a).toNat, a)

/-- Arm the next step from a time, not before another: a rising compare A and a falling compare B on the step channel, and the
thread's timer at the falling edge (R224, R225; DESIGN CHOICE, log entry 45). -/
def armStep (h : HarnessId) (base least : EvTime) (s : State) : State :=
  let m := s.har[h].mot
  let (v, a) := m.nextSpeed
  let at_ := base + BitVec.ofNat 48 (m.stepTime m.vsq v)
  let rise := if evDiff at_ least < 0 then least else at_
  let fall := rise + BitVec.ofNat 48 (6400 * m.p 4)
  let s := s.modMot h fun m => { m with armed := true, vsq := v, acc := a, rise := rise, fall := fall
                                        speed := BitVec.ofNat 32 (iroot 2 32 v) }
  let s := match s.har[h].memberCh 0 with
    | some l => chanOp l 1 fall (chanOp l 0 rise s)
    | none => s
  progTimer h (some fall) s

/-- Drive the direction channel for the direction in force, DIR_HOLD after the last falling edge, and arm the first step DIR_SETUP
later: compare A for reverse, compare B for forward (R224; DESIGN CHOICE, log entry 45). -/
def turnAxis (h : HarnessId) (s : State) : State :=
  let m := s.har[h].mot
  let hold := 6400 * m.p 6
  let wait := evDiff (m.fall + BitVec.ofNat 48 hold) s.nowEv
  let at_ := if 0 < wait ∧ wait ≤ hold then m.fall + BitVec.ofNat 48 hold else s.nowEv
  let s := match s.har[h].memberCh 1 with
    | some l => chanOp l (if m.dirRev then 0 else 1) at_ s
    | none => s
  armStep h s.nowEv (at_ + BitVec.ofNat 48 (6400 * m.p 5)) s

/-- The step whose falling edge has passed is counted; what follows is the end of a stop, of a move, of a reversal, or the
next step (R224 to R227). -/
def axisStep (h : HarnessId) (s : State) : State :=
  let s := s.modMot h fun m => { m with pos := if m.dirRev then m.pos - 1 else m.pos + 1, armed := false }
  let m := s.har[h].mot
  if m.stopping = 2 then axisDone h 2 s
  else if m.vsq ≠ 0 then
    armStep h m.rise m.rise (if m.st = 1 ∧ m.stopping = 0 then s.modMot h Motion.plan else s)
  else if m.stopping = 1 then axisDone h 1 s
  else if m.pos = m.target then axisDone h 0 s
  else if m.st = 2 ∨ m.ahead < 0 then
    let s := postMotion h 17 (bif m.overshoot then 1 else 0) m.pos s
    turnAxis h (s.modMot h fun m => { m with st := 1, dirRev := !m.dirRev, overshoot := false, acc := 0 })
  else armStep h m.rise m.rise s

/-- AXIS_STEP_COUNTED (R225): the thread's timer, armed at the falling edge, has matched. -/
def execAxisStepCounted (t : Instant) (h : HarnessId) (s : State) : Out :=
  event t (fun s => s.har[h].mot.prog == .axis && s.har[h].mot.armed && passed s.nowEv s.har[h].mot.fall) (axisStep h) s

/-- What a shipped program does when its threads restart after an L2 reset. -/
def motionRestart (h : HarnessId) (s : State) : State :=
  let k := s.har[h]
  match k.mot.prog with
  | .none => s
  | .bridge =>
    let going := k.rideL2 && k.mot.st != 0 && k.mot.st != 6 && !k.mot.brakeDir
    if going then beginCatch h s else s.modMot h fun m => { m with st := if m.st = 6 then 6 else 0, brakeDir := false }
  | .axis =>
    if k.mot.st = 0 then s
    else
      let fell := passed s.nowEv k.mot.fall
      let s := s.modMot h fun m => { m with
        pos := if m.armed && fell then (if m.dirRev then m.pos - 1 else m.pos + 1) else m.pos, armed := false, st := 0, stopping := 0, vsq := 0, acc := 0 }
      postMotion h 19 1 s.har[h].mot.pos s

end Sys2Proof.Machine
end

