-- ==== Sys2Proof/Machine/GaitOps.lean ====
section
/-! DEFINITION. Gait trackers: configuration, classification of edges, references, tooth delivery, the end of linked
outputs, loss, HOLD, stall, quick start, enable and disable (10_gait.md). -/

namespace Sys2Proof.Machine

/-! ### Configuration fields (R255) -/

def Tracker.en (k : Tracker) : Bool := bit k.cfg[0] 0
def Tracker.uneven (k : Tracker) : Bool := fld k.cfg[0] 1 2 == 1#2
def Tracker.sec (k : Tracker) : Nat := (fld k.cfg[0] 3 2).toNat
def Tracker.strict (k : Tracker) : Bool := bit k.cfg[0] 5
def Tracker.qsEn (k : Tracker) : Bool := bit k.cfg[0] 6
def Tracker.autoRearm (k : Tracker) : Bool := bit k.cfg[0] 7
def Tracker.revSrc (k : Tracker) : Nat := (fld k.cfg[0] 8 2).toNat
def Tracker.nt (k : Tracker) : Nat := (fld k.cfg[0] 16 7).toNat
def Tracker.wheelCh (k : Tracker) : Lch := bvFin 64 rfl (fld k.cfg[1] 0 6)
def Tracker.secCh (k : Tracker) : Lch := bvFin 64 rfl (fld k.cfg[1] 8 6)
def Tracker.dirCh (k : Tracker) : Lch := bvFin 64 rfl (fld k.cfg[1] 16 6)
def Tracker.secPol (k : Tracker) : Bool := bit k.cfg[1] 24
def Tracker.extraPos (k : Tracker) : Nat := (fld k.cfg[2] 0 10).toNat
def Tracker.noise (k : Tracker) : Nat := (fld k.cfg[2] 16 10).toNat
def Tracker.tol (k : Tracker) : Nat := (fld k.cfg[3] 0 10).toNat
def Tracker.missMax (k : Tracker) : Nat := (fld k.cfg[3] 16 2).toNat
def Tracker.pat (k : Tracker) : W64 := k.cfg[5] ++ k.cfg[4]
def Tracker.dutySplit (k : Tracker) : Nat := (fld k.cfg[6] 0 10).toNat
def Tracker.uw (k : Tracker) : Nat := (fld k.cfg[6] 16 5).toNat
def Tracker.revPw (k : Tracker) : W32 := k.cfg[7]
def Tracker.linkCh (k : Tracker) : W64 := k.cfg[9] ++ k.cfg[8]
def Tracker.linkH (k : Tracker) : W16 := fld k.cfg[10] 0 16

/-- Teeth of the cycle: NT, or 2 × NT with a secondary wheel. -/
def Tracker.cycle (k : Tracker) : Nat := if k.sec = 0 then k.nt else 2 * k.nt

/-- The wheel channel captures pairs (R232). -/
def Tracker.paired (k : Tracker) : Bool := k.uneven || k.revSrc == 2

/-- GSTATE (R255). -/
def GState.code : GState → BitVec 3
  | .off => 0
  | .seek => 1
  | .half => 2
  | .prov => 3
  | .sync => 4
  | .hold => 5

/-- IDX as it reads: unknown until the position in the cycle is known (R243, R255). -/
def Tracker.idxReads (k : Tracker) : W16 := match k.gs with | .prov | .sync | .hold => k.idx | _ => 0xFFFF

/-- 1 s and 5 µs in fines. -/
def sec1 : Nat := 6400000000
def us5 : Nat := 32000

/-- CRC-8 of R257 over the configuration with the untagged fields read as 0. -/
def Tracker.tag (k : Tracker) : Byte :=
  let w : List W32 := [k.cfg[0] &&& 0xFFFFFF1E, k.cfg[1], k.cfg[2] &&& 0x0000FFFF, 0, k.cfg[4], k.cfg[5], k.cfg[6], k.cfg[7]]
  crc8 (w.flatMap fun v => leBytes 4 v.toNat)

/-- Every class window of PAT occurs at one position only (R231). -/
def Tracker.windowsDiffer (k : Tracker) : Bool :=
  let win (j : Nat) : List Bool := (List.range k.uw).map fun m => bit k.pat ((j + m) % max 1 k.nt)
  (List.range k.nt).all fun i => (List.range k.nt).all fun j => i == j || win i != win j

/-- An enable passes the checks of R231 and the reserved codes of R255. -/
def Tracker.enableOk (s : State) (k : Tracker) : Bool :=
  let pat := (fld k.cfg[0] 1 2).toNat
  decide (pat < 2) && decide (k.sec < 3) && decide (k.revSrc < 3) &&
  decide (4 ≤ k.nt) && decide (k.nt ≤ 120) && 36000 % max 1 k.nt == 0 &&
  (if k.uneven then decide (k.nt ≤ 64) && k.windowsDiffer && k.revSrc != 2
   else decide (k.noise * 1000 ≤ (1000 - k.tol) * min k.extraPos (1000 - k.extraPos))) &&
  s.lmap[k.wheelCh].open_ && (k.sec == 0 || s.lmap[k.secCh].open_) && (k.revSrc != 1 || s.lmap[k.dirCh].open_)

/-! ### Expected gaps and deadline (R234, R237) -/

/-- The tooth after the extra tooth is expected. -/
def Tracker.afterExtra (k : Tracker) : Bool := k.exSeen

/-- The extra tooth is expected next. -/
def Tracker.extraNext (k : Tracker) : Bool := !k.uneven && !k.exSeen && k.idx.toNat % max 1 k.nt + 1 == k.nt

/-- The expected gap E in thousandths of a fine. -/
def Tracker.expected (k : Tracker) : Nat :=
  let p := k.per.toNat
  if k.extraNext then k.extraPos * p else if k.afterExtra then (1000 - k.extraPos) * p else 1000 * p

/-- Strict rules apply: PROV always, else STRICT (R235). -/
def Tracker.strictNow (k : Tracker) : Bool := k.gs == .prov || k.strict

/-- The deadline after the last accepted stamp, in millionths of a fine (R237); none where there is no deadline. -/
def Tracker.deadline (k : Tracker) : Option Nat :=
  if (k.gs ≠ .prov ∧ k.gs ≠ .sync) ∨ k.first then none
  else if !k.gotPer then some (sec1 * 1000000)
  else if k.strictNow then some ((1000 + k.tol) * k.expected)
  else some ((1000 * (1 + k.missMax) + k.tol) * k.expected)

/-- The deadline as an event time. -/
def Tracker.deadlineEv (k : Tracker) : EvTime :=
  match k.deadline with | some d => k.last + BitVec.ofNat 48 (openDiv d 1000000) | none => k.last

/-- The notice allowance of R237, in fines. -/
def noticeAllowance (s : State) (k : Tracker) : Nat :=
  let filt := match unitOf s k.wheelCh with | some u => (fld s.units[u].ctrl 16 8).toNat | none => 0
  (filt + 4) * 8 + 24 * 16

/-! ### Events to threads, and the end of linked outputs (R243 to R246) -/

/-- A tooth event to every subscribed thread. -/
def toothEvent (n : Fin 2) (arg : W16) (data : W32) (time : EvTime) (s : State) : State :=
  forEach ((idxs 64).filter fun t => bit s.thr[t].subT n.val)
    (fun t => enqueue t { kind := 2, src := BitVec.ofNat 8 n.val, arg := arg, data := data, time := time }) s

/-- End the linked outputs of a tracker, the spillway's discards first (R244, R245). The harnesses go SAFE before the channels, so
that a deferred bank start is discarded uncounted. -/
def endLinked (n : Fin 2) (s : State) : State :=
  let k := s.gt[n]
  let s := syncDiscard n k.linkCh k.linkH s
  let s := forEach (maskIdx 16 k.linkH) (fun h s =>
    let by_ := s.har[h].live && s.har[h].kind != 0
    (safeHarness h s).modHar h fun x => { x with actPend := false
                                                 safedBy := if by_ then setBit x.safedBy n.val true else x.safedBy }) s
  let s := forEach (maskIdx 64 k.linkCh) safeChannel s
  let s := forEach (maskIdx 16 k.linkH) (fun h s => forEach s.har[h].channels adoptCh (adoptHar h s)) s
  forEach (maskIdx 64 k.linkCh) adoptCh s

/-- Set flags of a tracker by mask. -/
def Tracker.raise (k : Tracker) (m : BitVec 6) : Tracker := { k with flags := k.flags ||| m }

/-- A quick-start store is cleared (R248). -/
def clearStore (n : Fin 2) (s : State) : State :=
  { s with rsv := { s.rsv with backup := s.rsv.backup.set (26 + n.val) 0 (by omega) } }

/-- The SYNC_LOSS record, LOSS_RSN and the tooth event of an exit or an entry to HOLD (R246, R256); `ratio` is
g × 1000 ÷ P, 0 where no gap applies. -/
def exitReport (n : Fin 2) (reason : BitVec 4) (time : EvTime) (ratio : Nat) (s : State) : State :=
  let k := s.gt[n]
  let expIdx : W16 := match k.gs with
    | .prov | .sync | .hold => BitVec.ofNat 16 ((k.idx.toNat + 1) % max 1 k.cycle)
    | _ => 0xFFFF
  let s := postB63 { time := time, kind := 0x1D, src := BitVec.ofNat 8 n.val, flags := 0,
                     aux := (0#5 : BitVec 5) ++ k.gs.code ++ (0#4 : BitVec 4) ++ reason,
                     data := satNat 16 ratio ++ expIdx } s
  let flag : BitVec 6 := if reason.toNat ≤ 7 then 2 else if reason = 8 then 4 else if reason = 10 then 0x20 else 0
  let s := s.modGt n fun k => { k.raise flag with rsn := reason, lossCnt := if reason.toNat ≤ 7 then satInc k.lossCnt else k.lossCnt }
  toothEvent n 0xFFFF (reason.zeroExtend 32) time s

/-- The gap ratio of R256. -/
def Tracker.ratio (k : Tracker) (g : Nat) : Nat := if k.gotPer ∧ k.per ≠ 0 then openDiv (g * 1000) k.per.toNat else 0

/-- SEEK, its search empty. -/
def Tracker.toSeek (k : Tracker) : Tracker :=
  { k with gs := .seek, idx := 0xFFFF, hist := [], exSeen := false, first := false, gotPer := false, gotTooth := false,
           pulses := 0, refOk := false }

/-- PROV at an index of the store (R242, R243, R250). -/
def Tracker.toProv (k : Tracker) (idx : W16) : Tracker :=
  { k with gs := .prov, idx := idx, hist := [], win := [], exSeen := false, first := true, gotPer := false, gotTooth := false,
           pulses := 0, refOk := false, rearm := true, flags := k.flags ||| 1 }

/-! ### Tooth delivery (R243, R256) -/

/-- A TOOTH record to B62. -/
def postTooth (n : Fin 2) (idx : W16) (per : Nat) (unc : Bool) (stamp : EvTime) (s : State) : State :=
  postBasin 62 { time := stamp, kind := 0x08, src := BitVec.ofNat 8 n.val, flags := bif unc then 2 else 0, aux := idx,
                 data := satNat 32 per } s

/-- A tooth accepted in PROV or SYNC: event, spillway, window, record. A tooth without a period (the first of PROV)
carries DATA 0 and posts no record. -/
def deliverTooth (n : Fin 2) (stamp : EvTime) (per : Option Nat) (unc : Bool) (s : State) : State :=
  let idx := s.gt[n].idx
  let s := toothEvent n idx (satNat 32 (per.getD 0)) stamp s
  let s := confirmWhere (fun e => e.ckind == 1 && e.csrc.toNat == n.val && e.carg == idx) stamp s
  match per with
  | none => s
  | some p => postTooth n idx p unc stamp (s.modGt n fun k => { k with win := (BitVec.ofNat 48 p :: k.win).take 128 })

/-! ### SEEK (R240, R248) -/

/-- `g` lies within TOL of `m` thousandths of P: all in fines. -/
def Tracker.near (k : Tracker) (g m p : Nat) : Bool :=
  decide ((1000 - k.tol) * m * p ≤ 1000000 * g) && decide (1000000 * g ≤ (1000 + k.tol) * m * p)

/-- The position of PAT that the last classes match, newest last. -/
def Tracker.match? (k : Tracker) (cls : List Bool) : Option Nat :=
  if cls.length < k.uw then none
  else (List.range k.nt).find? fun j =>
    (List.range k.uw).all fun m => cls.getD m false == bit k.pat ((j + k.nt - (k.uw - 1 - m) % k.nt) % k.nt)

/-- Classes of the teeth of a search history, oldest first: long when PW × 1000 ÷ P is at least DUTY_SPLIT (R239). -/
def Tracker.classes (k : Tracker) : List (EvTime × W32) → List Bool
  | (a, pw) :: (b, q) :: r => Tracker.classes k ((b, q) :: r) ++ [decide (k.dutySplit * (a - b).toNat ≤ pw.toNat * 1000)]
  | _ => []

/-- The reference is found: the newest tooth is tooth `j` of the revolution (R240 to R243). -/
def foundRef (n : Fin 2) (j : Nat) (stamp : EvTime) (per : Nat) (sec : Bool) (s : State) : State :=
  let k := s.gt[n]
  let k := { k with hist := [], last := stamp, per := BitVec.ofNat 48 per, gotPer := true, exSeen := false, exAt := stamp,
                    refOk := j == 0, pulses := 0, first := false, gotTooth := true }
  if k.sec = 2 then
    postTooth n 0xFFFF per false stamp (s.modGt n fun _ => { k with gs := .half, idx := BitVec.ofNat 16 j })
  else
    let idx := if k.sec = 1 ∧ sec ≠ k.secPol then j + k.nt else j
    let k := { k with gs := .sync, idx := BitVec.ofNat 16 idx, win := [], rearm := true, flags := k.flags ||| 1 }
    deliverTooth n stamp (some per) false (s.modGt n fun _ => k)

/-- An edge in SEEK (R240, R248). -/
def seekEdge (n : Fin 2) (stamp : EvTime) (pw : W32) (sec : Bool) (s : State) : State :=
  let k0 := s.gt[n]
  let gap := k0.hist.head?.map fun x => (stamp - x.1).toNat
  let k : Tracker := { k0 with hist := ((stamp, pw) :: k0.hist).take 18, last := stamp, heard := some (stampDt s stamp)
                               per := match gap with | some g => BitVec.ofNat 48 g | none => k0.per }
  let s := s.modGt n fun _ => k
  let plain := postTooth n 0xFFFF (gap.getD 0) false stamp
  if k.uneven then
    let cls := k.classes k.hist
    match k.match? (cls.drop (cls.length - k.uw)), gap with
    | some j, some g => foundRef n j stamp g sec s
    | _, _ => plain s
  else
    match k.hist with
    | (a, _) :: (b, _) :: (c, _) :: (d, _) :: _ =>
      let p := (c - d).toNat
      let g1 := (b - c).toNat
      let g2 := (a - b).toNat
      if !(decide (us5 ≤ p) && decide (p ≤ sec1)) then plain s
      else if k.near g1 k.extraPos p && k.near g2 (1000 - k.extraPos) p then foundRef n 0 stamp (g1 + g2) sec s
      else if k.revSrc = 0 && k.extraPos != 500 && k.near g1 (1000 - k.extraPos) p && k.near g2 k.extraPos p then
        plain (clearStore n (s.modGt n fun k => k.raise 8))
      else plain s
    | _ => plain s

/-! ### Loss and HOLD (R235, R238, R246) -/

/-- A loss at an edge: to SEEK; outside HALF and HOLD the linked outputs end, and the edge is the first of SEEK. -/
def loseSync (n : Fin 2) (reason : BitVec 4) (stamp : EvTime) (pw : W32) (sec seed : Bool) (s : State) : State :=
  let k := s.gt[n]
  let g := (stamp - k.last).toNat
  let s := match k.gs with
    | .prov | .sync => endLinked n s
    | .hold => syncDiscard n 0 0 s
    | _ => s
  let s := exitReport n reason stamp (k.ratio g) s
  let s := s.modGt n Tracker.toSeek
  if seed then seekEdge n stamp pw sec s else s

/-- Entry to HOLD at the deadline (R238). -/
def enterHold (n : Fin 2) (s : State) : State :=
  let k := s.gt[n]
  let s := endLinked n s
  let s := exitReport n 10 k.deadlineEv 0 s
  s.modGt n fun k => { k with holdFrom := k.gs, holdStrict := k.strictNow, gs := .hold, first := false }

/-- A stall in HALF or HOLD; in HOLD entered from SYNC it is a clean stop and the store is written (R248, R249). -/
def trackerStall (n : Fin 2) (s : State) : State :=
  let k := s.gt[n]
  let time := k.last + BitVec.ofNat 48 sec1
  let s := exitReport n 8 time 0 s
  if k.gs = .hold && k.holdFrom == .sync then
    let v : W32 := 1#1 ++ (0#7 : BitVec 7) ++ k.tag ++ k.idx
    let s := { s with rsv := { s.rsv with backup := s.rsv.backup.set (26 + n.val) v (by omega) } }
    s.modGt n fun k => if k.qsEn then k.toProv k.idx else k.toSeek
  else s.modGt n Tracker.toSeek

/-! ### Edges in HALF, PROV and SYNC (R234 to R241) -/

/-- The number of pitches of a LATE edge (R236): none when it fits no k, or the pitches hold a reference position. -/
def Tracker.recover (k : Tracker) (g : Nat) : Option Nat :=
  if k.exSeen then none
  else
    let p := k.per.toNat
    let fits (j : Nat) : Bool := decide ((1000 * j - k.tol) * p ≤ 1000 * g) && decide (1000 * g ≤ (1000 * j + k.tol) * p)
    match ([2, 3, 4].filter fun j => decide (j ≤ 1 + k.missMax)).find? fits with
    | some j => if (List.range j).any fun i => (k.idx.toNat + i + 1) % max 1 k.nt == 0 then none else some j
    | none => none

/-- The span of a LATE edge contains the extra tooth, which stands EXTRA_POS of a pitch after tooth NT − 1 (R236). -/
def Tracker.extraSpan (k : Tracker) (g : Nat) : Bool :=
  !k.uneven && !k.exSeen &&
  decide ((1000 * (k.nt - 1 - k.idx.toNat % max 1 k.nt) + k.extraPos) * k.per.toNat ≤ 1000 * g)

/-- The half that the secondary wheel names at a reference: none while nothing names it (R241). -/
def Tracker.half (k : Tracker) (sec : Bool) : Option Nat :=
  if k.sec = 1 then some (if sec == k.secPol then 0 else k.nt)
  else if k.sec = 2 ∧ k.refOk then some (if k.pulses = 1 then 0 else k.nt)
  else none

/-- Accept an edge as the tooth `j` pitches on (R236, R239, R241 to R243). -/
def acceptTooth (n : Fin 2) (j : Nat) (stamp : EvTime) (pw : W32) (per : Option Nat) (unc sec : Bool) (s : State) : State :=
  let k := s.gt[n]
  let size := if k.gs = .half then k.nt else k.cycle
  let idx := (k.idx.toNat + j) % max 1 size
  let atRef := idx % max 1 k.nt == 0
  let long (p : Nat) : Bool := decide (k.dutySplit * p ≤ pw.toNat * 1000)
  let classBad := match per with
    | some p => k.uneven && long p != bit k.pat (idx % max 1 k.nt)
    | none => false
  let two := atRef && k.sec == 2 && k.refOk && decide (2 ≤ k.pulses.toNat)
  let halfBad := atRef && k.gs != .half && (match k.half sec with | some h => h != idx | none => false)
  if classBad then loseSync n 5 stamp pw sec true s
  else if two || halfBad then loseSync n 6 stamp pw sec true s
  else
    let gain := atRef && (if k.gs = .half then k.half sec == some 0 else k.gs == .prov && (k.sec == 0 || (k.half sec).isSome))
    let k1 : Tracker := { k with
      idx := BitVec.ofNat 16 idx, last := stamp, heard := some (stampDt s stamp), first := false, gotTooth := true
      exSeen := false, exAt := stamp
      per := match per with | some p => BitVec.ofNat 48 p | none => k.per
      gotPer := k.gotPer || per.isSome
      missedCnt := satAdd k.missedCnt (j - 1)
      pulses := if atRef then 0 else k.pulses
      refOk := k.refOk || atRef }
    let k2 : Tracker := if !gain then k1
      else if k.gs = .half then { k1 with gs := .sync, win := [], rearm := true, flags := k1.flags ||| 1 }
      else { k1 with gs := .sync, flags := k1.flags ||| 1 }
    let s := s.modGt n fun _ => k2
    if k2.gs = .half then postTooth n 0xFFFF (per.getD 0) unc stamp s else deliverTooth n stamp per unc s

/-- The extra tooth: accepted for timing only (R233). -/
def acceptExtra (n : Fin 2) (stamp : EvTime) (s : State) : State :=
  s.modGt n fun k => { k with exSeen := true, exAt := k.last, last := stamp, heard := some (stampDt s stamp), first := false }

/-- The tooth after the extra tooth of PROV before any tooth period is measured: the gap `h` before the extra tooth stands for
EXTRA_POS × P ÷ 1000, and the gap `g` is classified strictly against the short gap pair it begins (R235, R239, R250). DESIGN CHOICE
(log entry 46): the spec gives P no other value there. -/
def Tracker.pairMisfit (k : Tracker) (g : Nat) : Option (BitVec 4) :=
  let h := (k.last - k.exAt).toNat
  if !k.exSeen then none
  else if 1000 * g * k.extraPos < 1000 * k.noise * h then some 1
  else if 1000 * g * k.extraPos < (1000 - k.tol) * (1000 - k.extraPos) * h then some 2
  else if (1000 + k.tol) * (1000 - k.extraPos) * h < 1000 * g * k.extraPos then some 3
  else none

/-- An edge in HALF, PROV or SYNC (R234 to R243). -/
def trackEdge (n : Fin 2) (stamp : EvTime) (pw : W32) (sec : Bool) (s : State) : State :=
  let k := s.gt[n]
  let g := (stamp - k.last).toNat
  let full : Option Nat := if k.exSeen then (if k.gotTooth then some (stamp - k.exAt).toNat else none) else some g
  if k.first then acceptTooth n 1 stamp pw none false sec s
  else if !k.gotPer then
    if g < us5 then loseSync n 1 stamp pw sec true s
    else if k.extraNext then acceptExtra n stamp s
    else match k.pairMisfit g with
      | some reason => loseSync n reason stamp pw sec true s
      | none => acceptTooth n 1 stamp pw full false sec s
  else
    let p := k.per.toNat
    if 1000 * g < k.noise * p ∨ g < us5 then
      if k.gs = .prov ∨ (k.gs = .sync ∧ k.strict) then loseSync n 1 stamp pw sec true s
      else s.modGt n fun k => { k with noiseCnt := satInc k.noiseCnt }
    else if 1000000 * g < (1000 - k.tol) * k.expected then loseSync n 2 stamp pw sec true s
    else if 1000000 * g ≤ (1000 + k.tol) * k.expected then
      if k.extraNext then acceptExtra n stamp s else acceptTooth n 1 stamp pw full false sec s
    else if k.strictNow then loseSync n 3 stamp pw sec true s
    else match k.recover g with
      | some j => acceptTooth n j stamp pw (some (openDiv g j)) true sec s
      | none => loseSync n (if k.extraSpan g then 5 else 4) stamp pw sec true s

/-- A wheel edge reaches a tracker (R234, R237, R238, R248). -/
def wheelEdge (n : Fin 2) (stamp : EvTime) (pw : W32) (sec dir : Bool) (s : State) : State :=
  let s : State := match s.gt[n].deadline with
    | some d => if d < 1000000 * (stamp - s.gt[n].last).toNat then enterHold n s else s
    | none => s
  let s := if (s.gt[n].gs = .half ∨ s.gt[n].gs = .hold) ∧ sec1 ≤ (stamp - s.gt[n].last).toNat then trackerStall n s else s
  let k := s.gt[n]
  let rev := k.gs != .off && ((k.revSrc == 1 && dir) || (k.revSrc == 2 && decide (k.revPw.toNat ≤ pw.toNat)))
  if rev then
    let s := clearStore n (s.modGt n fun k => k.raise 8)
    if k.gs = .seek then s.modGt n fun k => { k with hist := [] } else loseSync n 7 stamp pw sec false s
  else match k.gs with
    | .off => s
    | .seek => seekEdge n stamp pw sec s
    | .hold => loseSync n (if k.holdStrict then 3 else 4) stamp pw sec true s
    | _ => trackEdge n stamp pw sec s

/-! ### Enable and disable (R231, R242, R249) -/

/-- Enable a tracker: refused with CFG_ERR by R231; the store is read and its VALID cleared (R249). -/
def enableTracker (n : Fin 2) (s : State) : State :=
  let k := s.gt[n]
  if !Tracker.enableOk s k then s.modGt n fun k => k.raise 0x10
  else
    let v := s.rsv.backup[26 + n.val]'(by omega)
    let s := { s with rsv := { s.rsv with backup := s.rsv.backup.set (26 + n.val) (setBit v 31 false) (by omega) } }
    let ok := k.qsEn && bit v 31 && fld v 16 8 == k.tag && decide ((fld v 0 16).toNat < k.cycle)
    s.modGt n fun k =>
      let k : Tracker := { k with cfg := k.cfg.set 0 (setBit k.cfg[0] 0 true) }
      if ok then k.toProv (fld v 0 16) else k.toSeek

/-- Disable a tracker: linked outputs are ended from any state but OFF (R242, R244, R246). DESIGN CHOICE (log entry 40): from SEEK and
HALF, where there is no sync to lose, its tooth-conditioned entries are discarded as SYNC too (06_spillway.md R148). -/
def disableTracker (n : Fin 2) (s : State) : State :=
  let k := s.gt[n]
  let s := if k.gs = .off then s else endLinked n s
  let s := if k.gs = .off ∨ k.gs = .seek then s else exitReport n 9 s.nowEv 0 s
  s.modGt n fun k => { k.toSeek with gs := .off, inbox := [], cfg := k.cfg.set 0 (setBit k.cfg[0] 0 false), rearm := false }

/-- A tracker lets the device sleep: OFF, or SEEK or PROV with no accepted edge for 1 s (R254). -/
def Tracker.sleepOk (s : State) (k : Tracker) : Bool :=
  match k.gs with
  | .off => true
  | .seek | .prov => (match k.heard with | some d => decide (1600000000 ≤ (s.tb.dt - d).toNat) | none => true)
  | _ => false

/-- A write of a configuration word (R231): one that changes a fixed field while EN is 1 is ignored with CFG_ERR; EN
enables or disables. Reserved codes of PAT, SEC and REV_SRC are refused (R255). -/
def writeTracker (n : Fin 2) (i : Fin 11) (v : W32) (s : State) : State :=
  let k := s.gt[n]
  let legal : W32 := #v[0x007F03FF, 0x013F3F3F, 0x03FF03FF, 0x000303FF, 0xFFFFFFFF, 0xFFFFFFFF, 0x001F03FF, 0xFFFFFFFF,
                        0xFFFFFFFF, 0xFFFFFFFF, 0x0000FFFF][i]
  let free : W32 := #v[0xE1, 0, 0x03FF0000, 0x000303FF, 0, 0, 0, 0, 0xFFFFFFFF, 0xFFFFFFFF, 0xFFFFFFFF][i]
  let v := v &&& legal
  let reserved := i.val == 0 && (decide (2 ≤ (fld v 1 2).toNat) || fld v 3 2 == 3#2 || fld v 8 2 == 3#2)
  let off := i.val == 0 && k.en && !bit v 0
  if reserved || (k.en && ((v ^^^ k.cfg[i]) &&& ~~~free) != 0) then s.modGt n fun k => k.raise 0x10
  else if i.val = 0 && bit v 0 && !k.en then
    enableTracker n (s.modGt n fun k => { k with cfg := k.cfg.set i (setBit v 0 false) })
  else if off then (disableTracker n s).modGt n fun k => { k with cfg := k.cfg.set i v }
  else s.modGt n fun k => { k with cfg := k.cfg.set i v }

end Sys2Proof.Machine
end

