-- ==== Sys2Proof/Machine/OstlerOps.lean ====
section
/-! DEFINITION. Shared operations of the Ostler: instruction frames and fills, code addresses, placement, start, move and
stop of threads, engine retirement, consumption of basins, and the close of channels, programs and basins
(05_ostler.md, 07_microcode.md R158, R181 to R183, 06_spillway.md R150). -/

namespace Sys2Proof.Machine

/-! ### Instruction frames (R115 to R120, R150) -/

/-- Little-endian bytes of a list of words. -/
def wordBytes (l : List W32) : List Byte := l.flatMap fun w => leBytes 4 w.toNat

/-- The frame that holds a page of a program. -/
def frameOf (s : State) (p : ProgId) (page : BitVec 12) : Option (Fin 128) :=
  (idxs 128).find? fun i => s.frm[i].used && s.frm[i].prog.toNat == p.val && s.frm[i].page == page

/-- The program of a thread. -/
def Thread.progId (t : Thread) : ProgId := bvFin 16 rfl t.prog

/-- The page of a code address. -/
def pageOf (pc : BitVec 19) : BitVec 12 := fld pc 7 12

/-- The page is the current page of some thread (R118). -/
def currentPage (s : State) (p : BitVec 4) (page : BitVec 12) : Bool :=
  (idxs 64).any fun t => s.thr[t].st != .free && s.thr[t].prog == p && pageOf s.thr[t].ctx.pc == page

/-- A frame that a fill may evict (R118). -/
def evictable (s : State) (i : Fin 128) : Bool :=
  let f := s.frm[i]
  f.used && f.valid && !f.pin && !f.repair && !s.prog[bvFin 16 rfl f.prog].staged && !currentPage s f.prog f.page

/-- Frames that are free. -/
def freeFrames (s : State) : List (Fin 128) := (idxs 128).filter fun i => !s.frm[i].used

/-- A frame for a fill: a free one, else a prefetched one, else the least recently executed (R118). -/
def takeFrame (s : State) : Option (Fin 128 × State) :=
  match freeFrames s with
  | i :: r => some (choose (i :: r) i s)
  | [] =>
    let l := (idxs 128).filter (evictable s)
    let pre := l.filter fun i => s.frm[i].pref
    let l := if pre.isEmpty then
        let low := l.foldl (fun m i => min m s.frm[i].lastX) s.ost.execClk
        l.filter fun i => s.frm[i].lastX == low
      else pre
    match l with
    | [] => none
    | i :: r => some (choose (i :: r) i s)

/-- A demand fill is under way in a frame. -/
def Frame.filling (f : Frame) : Bool := f.used && !f.valid && !f.pref && !f.repair

/-- Of the fills waiting, the first in order of the waiting threads' rank and then of arrival (R117). -/
def nextFill (s : State) : Option (BitVec 6 × BitVec 12) :=
  let rank (q : BitVec 6 × BitVec 12) : Nat := s.thr[bvFin 64 rfl q.1].rank
  s.ost.fillQ.foldl (fun b q => match b with
    | none => some q
    | some c => if rank c < rank q then some q else some c) none

/-- Start the next fill when none is under way and a frame can be had (R117, R118). -/
def startFill (s : State) : State :=
  if (idxs 128).any (fun i => s.frm[i].filling && !s.prog[bvFin 16 rfl s.frm[i].prog].staged) then s
  else match nextFill s with
    | none => s
    | some (t, page) =>
      match takeFrame s with
      | none => s
      | some (i, s) => s.modFrm i fun _ => { Frame.reset with used := true, page := page, prog := s.thr[bvFin 64 rfl t].prog }

/-- A thread stalls on a page. -/
def stallPage (tid : Tid) (page : BitVec 12) (s : State) : State :=
  s.modThr tid fun t => { t with st := .stall, stallOn := .page page }

/-- The page of the thread's PC is checked before it issues from it (R116, R117, R119, R150, 17_health.md R379). `moved`
tells an entry into the page from running on inside it. Pinned code never waits for a demand fill (R20, R116): a pinned page whose
repair failed has no frame, and a thread that enters it is stopped as at that failure (DESIGN CHOICE, log entry 41). -/
def enterPage (tid : Tid) (moved : Bool) (s : State) : State :=
  let t := s.thr[tid]
  let p := t.progId
  let g := s.prog[p]
  let page := pageOf t.ctx.pc
  if g.shipped then s
  else if moved && t.rt && g.pinc.getD page.toNat 0 != 1 then stopThread 2 tid s
  else match frameOf s p page with
    | some i =>
      let f := s.frm[i]
      if f.valid then (if f.pref then s.modFrm i fun f => { f with pref := false } else s)
      else if f.repair then stallPage tid page s
      else if g.staged then stopThread 3 tid s
      else if f.pref then stallPage tid page s
      else { stallPage tid page s with ost := { s.ost with pfCnt := satInc s.ost.pfCnt } }
    | none =>
      if g.pinc.getD page.toNat 0 = 1 then stopThread 3 tid s
      else
      let s := stallPage tid page s
      startFill { s with ost := { s.ost with pfCnt := satInc s.ost.pfCnt, fillQ := s.ost.fillQ ++ [(BitVec.ofFin tid, page)] } }

/-- The thread goes on at a code address inside its image. A fill that waits for a frame may have one as it leaves its page
(R118). -/
def gotoPc (tid : Tid) (pc : BitVec 19) (s : State) : State :=
  let moved := pageOf pc != pageOf s.thr[tid].ctx.pc
  let s := enterPage tid moved (s.modThr tid fun t => { t with ctx := { t.ctx with pc := pc } })
  if moved then startFill s else s

/-- Threads stalled on a page of a program. -/
def stalledOn (s : State) (p : ProgId) (page : BitVec 12) : List Tid :=
  (idxs 64).filter fun t => s.thr[t].st == .stall && s.thr[t].progId == p && s.thr[t].stallOn == .page page

/-- Threads stalled on a page go on; one that waits to halt halts (18_debug.md R410). -/
def resumePage (p : ProgId) (page : BitVec 12) (s : State) : State :=
  let s1 := forEach (stalledOn s p page)
    (fun t s => let st := s.readyState t; s.modThr t fun t => { t with st := st, stallOn := .none }) s
  { s1 with ost := { s1.ost with fillQ := s1.ost.fillQ.filter fun q =>
      !(q.2 == page && s1.thr[bvFin 64 rfl q.1].progId == p) } }

/-- A second mismatch: the frame is freed, each thread stalled on the page is stopped with PAGE_ERROR, FILL_ERR counts and
source 205 is raised (R119). DESIGN CHOICE (log entry 28): a thread's PAGE_ERROR record goes before its THREAD_STOP record. -/
def fillFailed (i : Fin 128) (p : ProgId) (page : BitVec 12) (crc : W32) (s : State) : State :=
  let l := stalledOn s p page
  let s := s.modFrm i fun _ => Frame.reset
  let s := { s with ost := { s.ost with
      fillErr := satInc s.ost.fillErr
      fillQ := s.ost.fillQ.filter fun q => !(q.2 == page && s.thr[bvFin 64 rfl q.1].progId == p) } }
  let s := forEach l (fun t s =>
    stopThread 3 t (postB63 (sysRec s.nowEv 0x19 (BitVec.ofNat 8 t.val) (page.zeroExtend 16) crc) s)) s
  pulse 205 s

/-- The words of a fill or prefetch have come into frame `i`: the CRC check, the second fetch and its outcome (R119). -/
def fillDone (i : Fin 128) (words : List W32) (s : State) : State :=
  let f := s.frm[i]
  let p : ProgId := bvFin 16 rfl f.prog
  let crc := crc32 (wordBytes words)
  let s :=
    if crc = s.prog[p].pcrc.getD f.page.toNat 0 then
      let waited := !(stalledOn s p f.page).isEmpty
      let s := clearMarks 2 (64 * i.val) (64 * i.val + 63)
        (s.modFrm i fun f => { f with valid := true, words := words, tries := 0, repair := false, pref := f.pref && !waited })
      resumePage p f.page s
    else if f.tries = 0 then s.modFrm i fun f => { f with tries := 1 }
    else fillFailed i p f.page crc s
  startFill s

/-- A BG thread that runs in the last 32 instructions of a page has the next page prefetched into a free frame (R120). -/
def prefetch (tid : Tid) (s : State) : State :=
  let t := s.thr[tid]
  let g := s.prog[t.progId]
  let page := pageOf t.ctx.pc
  let next := page + 1
  if t.rt || g.shipped || g.staged || (fld t.ctx.pc 0 7).toNat < 96 || g.pages.toNat ≤ page.toNat + 1 then s
  else if (frameOf s t.progId next).isSome then s
  else match freeFrames s with
    | [] => s
    | i :: r =>
      let (i, s) := choose (i :: r) i s
      s.modFrm i fun _ => { Frame.reset with used := true, page := next, prog := t.prog, pref := true }

/-- The page of the thread's PC was executed (R118). -/
def touch (tid : Tid) (s : State) : State :=
  let t := s.thr[tid]
  let s := { s with ost := { s.ost with execClk := s.ost.execClk + 1 } }
  match frameOf s t.progId (pageOf t.ctx.pc) with
  | some i => s.modFrm i fun f => { f with lastX := s.ost.execClk }
  | none => s

/-! ### Placement (R107, R108) -/

/-- The engine for a thread of a class and load; none when none is eligible. -/
def placeEngine (s : State) (rt : Bool) (load : Nat) : Option EngineId :=
  let ok (e : EngineId) : Bool :=
    let g := s.eng[e]
    !g.retired && decide (g.threads.toNat < 8) && (!rt || decide (g.rtLoad.toNat + load ≤ 1000 - s.ost.headroom.toNat))
  ((idxs 8).filter ok).foldl (fun b e => match b with
    | none => some e
    | some c => if s.eng[e].rtLoad < s.eng[c].rtLoad then some e else some c) none

/-- The lowest-numbered free hardware thread of an engine, as a slot. -/
def freeSlot (s : State) (e : EngineId) : BitVec 6 :=
  let free (h : Nat) : Bool := !(idxs 64).any fun t => s.thr[t].st != .free && s.thr[t].slot.toNat == 8 * e.val + h
  BitVec.ofNat 6 (8 * e.val + ((List.range 8).find? free).getD 0)

/-- Give a thread a slot on an engine. -/
def occupy (tid : Tid) (e : EngineId) (s : State) : State :=
  let slot := freeSlot s e
  let s := s.modEng e fun g => { g with threads := g.threads + 1, rtLoad := g.rtLoad + s.thr[tid].load.zeroExtend 11 }
  let s := s.modThr tid fun t => { t with slot := slot, st := .ready }
  { s with far := { s.far with tabThr := vmod s.far.tabThr tid fun _ => { st := .wait, slot := slot, prog := s.thr[tid].prog } } }

/-- A thread begins at a code address: registers, flags and TH cleared, subscriptions cleared, timer disarmed (R161, R183). TCAUSE
and TPC stay (R187). At a program open they are 0 as registers and flags are, since the TID was freed before (DESIGN CHOICE, log
entry 40). -/
def startThread (tid : Tid) (pc : BitVec 19) (s : State) : State :=
  let st : TState := if s.thr[tid].haltReq || s.eng[slotEng s.thr[tid].slot].halted then .halt else .ready
  enterPage tid true (clearMarks 3 (0x100 * tid.val) (0x100 * tid.val + 0x11) (s.modThr tid fun t => { t with
    ctx := { Ctx.reset with tlm := t.ctx.tlm, pc := pc, tcause := t.ctx.tcause, tpc := t.ctx.tpc }, st := st
    waiting := false, waitRd := 0, timer := none, subT := 0, subB := 0, cyc := none, stallOn := .none, stallPost := none, stallArm := none
    stepping := false, bpSkip := false, fell := false }))

/-- The thread-table entry of a placed thread. -/
def entOf (s : State) (tid : Tid) : ThrEnt :=
  (s.prog[s.thr[tid].progId].tab.find? fun e => e.tid.toNat == tid.val).getD ThrEnt.reset

/-- Place a thread of an image under a TID (R108); none when no engine is eligible. -/
def placeThread (p : ProgId) (e : ThrEnt) (tid : Tid) (s : State) : Option State :=
  (placeEngine s e.rt e.load.toNat).map fun g =>
    occupy tid g (s.modThr tid fun t => { t with rt := e.rt, prio := e.prio, load := e.load, budget := e.budget, onOvr := e.onOvr,
                                                 prog := BitVec.ofNat 4 p.val })

/-! ### Engine retirement (R133, 17_health.md R389) -/

/-- Threads of an engine in the order in which retirement places them: RT before BG, higher PRIO first, lower TID first. -/
def moveOrder (s : State) (e : EngineId) : List Tid :=
  let on (t : Tid) : Bool := s.thr[t].st != .free && s.thr[t].st != .stopped && slotEng s.thr[t].slot == e
  [true, false].flatMap fun c => (List.range 16).reverse.flatMap fun pr =>
    (idxs 64).filter fun t => on t && s.thr[t].rt == c && s.thr[t].prio.toNat == pr

/-- Move one thread off a retired engine: the state, and whether it was placed. -/
def moveThread (tid : Tid) (s : State) : State × Bool :=
  let t := s.thr[tid]
  match placeEngine s t.rt t.load.toNat with
  | none => (s, false)
  | some g =>
    let s := s.modEng (slotEng t.slot) fun e => { e with threads := e.threads - 1, rtLoad := e.rtLoad - t.load.zeroExtend 11 }
    (startThread tid (entOf s tid).restart (occupy tid g s), true)

/-- Retire an engine (R133, R389, R390, R393). -/
def retireEngine (e : EngineId) (pc : W32) (inj : Bool) (s : State) : State :=
  if s.eng[e].retired then s
  else
    let s := health 3 (BitVec.ofNat 8 e.val) 4 inj pc s
    let order := moveOrder s e
    let hw (t : Tid) : Nat := s.thr[t].slot.toNat % 8
    let s := s.modEng e fun g => { g with retired := true, doze := false, inj := inj }
    let (s, moved, lost) := order.foldl (fun (a : State × List Tid × List Tid) t =>
      let (s, ok) := moveThread t a.1
      if ok then (s, t :: a.2.1, a.2.2) else (s, a.2.1, t :: a.2.2)) (s, [], [])
    let s := forEach lost (stopThread 4) s
    let mask (l : List Tid) : W32 := l.foldl (fun m t => setBit m (hw t) true) 0
    let s := postB63 (sysRec s.nowEv 0x18 (BitVec.ofNat 8 e.val) (BitVec.ofNat 16 moved.length) (mask lost ||| (mask moved <<< 8))) s
    let s := if inj then s else { s with rsv := { s.rsv with engMarks := setBit s.rsv.engMarks e.val true } }
    setCause 1 inj (pulse 201 s)

/-! ### Consumption of basins (R123, R125 to R127) -/

/-- A record from its 16 bytes as one word (R130). -/
def recOf (v : BitVec 128) : Rec :=
  { time := fld v 0 48, kind := fld v 48 8, src := fld v 56 8, flags := fld v 64 8, aux := fld v 80 16, data := fld v 96 32 }

/-- Space may have returned: each thread stalled on a post tries again, higher rank and lower TID first (R127, R168). -/
def retryPosts (s : State) : State :=
  forEach (s.stalled .post) (fun tid s =>
    match s.thr[tid].stallPost with
    | none => s
    | some (b, v) =>
      let b : BasinId := bvFin 64 rfl b
      if (makeRoom b s).isNone && s.bas[b].open_ then s
      else
        let (s, _) := postTo b (recOf v) s
        let st := s.readyState tid
        s.modThr tid fun t => { t with st := st, stallOn := .none, stallPost := none, ctx := { t.ctx with f := false } }) s

/-- A write of RD_CNT (R125): the state, and whether it applied. -/
def writeRdCnt (b : BasinId) (v : W32) (s : State) : State × Bool :=
  let k := s.bas[b]
  if k.occ < (v - k.rdCnt).toNat then (s.modBas b fun k => { k with rdErr := true }, false)
  else
    let s := s.modBas b fun k => { (k.consume (v - k.rdCnt).toNat s.tb.dt) with rdErr := false }
    (retryPosts (thrEval b (releasePages b s)), true)

/-- The page that holds record RD_CNT, or the page that will hold it (R136). -/
def Basin.rdPage (k : Basin) : Byte :=
  let n := k.ring.length
  if k.rdCnt = k.wrCnt && k.wrCnt.toNat % 64 = 0 then k.ring.getD (1 % n) 0
  else
    let last : W32 := if k.wrCnt.toNat % 64 = 0 then k.wrCnt - 1 else k.wrCnt
    let back := (k.rdCnt.toNat % 64 + (last - k.rdCnt).toNat) / 64
    k.ring.getD ((n - back % n) % n) 0

/-- Descriptor words of a basin (R136). -/
def Basin.word8 (k : Basin) : W32 :=
  (0#7 : BitVec 7) ++ b2v 1 k.rdErr ++ b2v 1 k.ovf ++ BitVec.ofNat 7 k.ring.length ++ k.ring.headD 0 ++ k.rdPage
def Basin.wordC (k : Basin) : W32 := k.disc ++ k.drop

/-- Open a basin with its FLOOR pages from the pool. -/
def openBasin (b : BasinId) (floor ceil : BitVec 7) (policy : BitVec 2) (thresh : BitVec 13) (age : Byte) (s : State) : State :=
  let (s, l) := (List.range floor.toNat).foldl (fun (a : State × List Byte) _ =>
    match takePage a.1 with | some (p, s) => (s, a.2 ++ [p]) | none => a) (s, [])
  let s := s.modBas b fun _ => { Basin.reset with floor := floor, ceil := ceil, policy := policy, thresh := thresh, age := age,
                                                  open_ := true, ring := l }
  { s with far := { s.far with tabBas := vmod s.far.tabBas b fun _ =>
      { open_ := true, floor := floor, ceil := ceil, policy := policy, thresh := thresh, age := age } } }

/-- New settings of a basin act: consumed pages above FLOOR return, the level source follows, a stalled post may find room (R123,
R126, R127). -/
def resettle (b : BasinId) (s : State) : State :=
  let s := if s.bas[b].open_ then releasePages b s else s
  retryPosts (thrEval b (s.modBas b fun k => { k with aged := k.aged && k.old s.tb.dt }))

/-- Close a basin: its pages return to the pool and its unread records are lost. -/
def closeBasin (b : BasinId) (s : State) : State :=
  let s := freePages s.bas[b].ring s
  let s := s.modBas b fun _ => Basin.reset
  retryPosts { s with far := { s.far with tabBas := vmod s.far.tabBas b fun _ => TabBas.reset } }

/-! ### Close of channels and programs (R105, R182, 06_spillway.md R146) -/

/-- A unit returns to FREE with its registers cleared as at L1, its health registers among them (R105; 17_health.md R398). -/
def closeUnit (u : UnitId) (s : State) : State :=
  s.modUnit u fun _ => { ChanUnit.reset with ust := .free }

/-- Events of a closed channel that still wait in a crossing are discarded at their dispatch, uncounted ("When things meet"):
they turn into events that deliver nothing. -/
def discardQueued (l : Lch) (s : State) : State :=
  { s with xing := s.xing.map fun (c : Crossing) =>
      { c with fifo := c.fifo.map fun (e : XEv) => if e.lch.toNat = l.val then { e with what := 7 } else e } }

/-- Close a logical channel (R105, R146, 14_farrier_commands.md R325). -/
def closeChannel (l : Lch) (s : State) : State :=
  let s := withdraw (fun e => decide (e.tkind.toNat < 2) && e.tgt == BitVec.ofNat 8 l.val) s
  let s := match unitOf s l with | some u => closeUnit u s | none => s
  let s := feedPins l (discardQueued l (s.modLMap l fun _ => LMap.reset))
  { s with far := { s.far with tabCh := vmod s.far.tabCh l fun _ => TabCh.reset } }

/-- The threads of a program. -/
def progThreads (s : State) (p : ProgId) : List Tid :=
  (idxs 64).filter fun t => s.thr[t].st != .free && s.thr[t].progId == p

/-- Close a program (R182). -/
def closeProgram (p : ProgId) (s : State) : State :=
  let l := progThreads s p
  let s := withdraw (fun e => l.any fun t => e.owner == BitVec.ofNat 8 t.val) s
  let s := { s with lmap := s.lmap.map fun (m : LMap) => if m.tbind && l.any (fun t => m.tid.toNat == t.val) then { m with tbind := false, tid := 0 } else m }
  let s := { s with ost := { s.ost with fillQ := s.ost.fillQ.filter fun q => !l.any fun t => q.1.toNat == t.val } }
  let s := forEach l freeThread s
  let s := { s with frm := s.frm.map fun (f : Frame) => if f.used && f.prog.toNat == p.val then Frame.reset else f }
  startFill (s.modProg p fun _ => Prog.reset)

end Sys2Proof.Machine
end

