-- ==== Sys2Proof/Machine/Crypto.lean ====
section
/-! DEFINITION. SHA-256 and HMAC-SHA-256, as FIPS 180-4 and FIPS 198-1 define them (12_sealed_record.md R274, R275). -/

namespace Sys2Proof.Machine.Sha

/-- The first 64 primes. -/
def primes : List Nat :=
  [2, 3, 5, 7, 11, 13, 17, 19, 23, 29, 31, 37, 41, 43, 47, 53, 59, 61, 67, 71, 73, 79, 83, 89, 97, 101, 103, 107, 109, 113, 127, 131] ++
  [137, 139, 149, 151, 157, 163, 167, 173, 179, 181, 191, 193, 197, 199, 211, 223, 227, 229, 233, 239, 241, 251, 257, 263, 269, 271,
   277, 281, 283, 293, 307, 311]

/-- The first 32 bits of the fraction of the `e`-th root of a prime (FIPS 180-4, 4.2.2 and 5.3.3). -/
def fraction (e p : Nat) : W32 := BitVec.ofNat 32 (iroot e 37 (p * 2 ^ (32 * e)))

/-- The round constants of SHA-256: from the cube roots of the first 64 primes. -/
def k : List W32 := primes.map (fraction 3)

/-- The eight working words. -/
structure W8 where
  a : W32
  b : W32
  c : W32
  d : W32
  e : W32
  f : W32
  g : W32
  h : W32

/-- The initial hash value: from the square roots of the first 8 primes. -/
def init0 : W8 :=
  ⟨fraction 2 2, fraction 2 3, fraction 2 5, fraction 2 7, fraction 2 11, fraction 2 13, fraction 2 17, fraction 2 19⟩

/-- Rotate right. -/
def rotr (x : W32) (n : Nat) : W32 := x.rotateRight n

/-- One round with message word `w` and constant `kt`. -/
def round (s : W8) (kt w : W32) : W8 :=
  let t1 := s.h + (rotr s.e 6 ^^^ rotr s.e 11 ^^^ rotr s.e 25) + ((s.e &&& s.f) ^^^ (~~~s.e &&& s.g)) + kt + w
  let t2 := (rotr s.a 2 ^^^ rotr s.a 13 ^^^ rotr s.a 22) + ((s.a &&& s.b) ^^^ (s.a &&& s.c) ^^^ (s.b &&& s.c))
  ⟨t1 + t2, s.a, s.b, s.c, s.d + t1, s.e, s.f, s.g⟩

/-- The next word of the message schedule; `l` holds the last 16 words, newest first. -/
def nextW (l : List W32) : W32 :=
  let w2 := l.getD 1 0
  let w15 := l.getD 14 0
  (rotr w2 17 ^^^ rotr w2 19 ^^^ (w2 >>> 10)) + l.getD 6 0 + (rotr w15 7 ^^^ rotr w15 18 ^^^ (w15 >>> 3)) + l.getD 15 0

/-- The 64 rounds: `ks` the constants left, `ws` the message words left of the block, `l` the last 16, newest first. -/
def rounds : List W32 → List W32 → List W32 → W8 → W8
  | [], _, _, s => s
  | kt :: ks, w :: ws, l, s => rounds ks ws (w :: l) (round s kt w)
  | kt :: ks, [], l, s => let w := nextW l; rounds ks [] (w :: l.take 15) (round s kt w)

/-- Absorb one block of 16 words. -/
def block (h : W8) (ws : List W32) : W8 :=
  let s := rounds k ws [] h
  ⟨h.a + s.a, h.b + s.b, h.c + s.c, h.d + s.d, h.e + s.e, h.f + s.f, h.g + s.g, h.h + s.h⟩

/-- Big-endian words of a byte string. -/
def words : List Byte → List W32
  | a :: b :: c :: d :: r => (a ++ b ++ c ++ d) :: words r
  | _ => []

/-- Absorb `n` blocks. -/
def blocks : Nat → List W32 → W8 → W8
  | 0, _, h => h
  | n + 1, ws, h => blocks n (ws.drop 16) (block h (ws.take 16))

/-- Padding: 0x80, zeros, and the bit length in 8 bytes. -/
def pad (m : List Byte) : List Byte :=
  let z := (119 - m.length % 64) % 64
  m ++ [0x80#8] ++ List.replicate z 0#8 ++ (leBytes 8 (8 * m.length)).reverse

/-- The bytes of a word, most significant first. -/
def beBytes (w : W32) : List Byte := (leBytes 4 w.toNat).reverse

/-- SHA-256. -/
def sha256 (m : List Byte) : List Byte :=
  let p := pad m
  let h := blocks (p.length / 64) (words p) init0
  beBytes h.a ++ beBytes h.b ++ beBytes h.c ++ beBytes h.d ++ beBytes h.e ++ beBytes h.f ++ beBytes h.g ++ beBytes h.h

/-- HMAC-SHA-256 with a key of at most 64 bytes. -/
def hmac (key m : List Byte) : List Byte :=
  let k0 := key ++ List.replicate (64 - key.length) 0#8
  sha256 (k0.map (· ^^^ 0x5c#8) ++ sha256 (k0.map (· ^^^ 0x36#8) ++ m))

end Sys2Proof.Machine.Sha
end

