-- ==== Sys2Proof/Machine/Record.lean ====
section
/-! DEFINITION. The sealed record: entries, the tag chain, the queue, losses, rate changes, epochs, GAP and TIME_SOURCE
(12_sealed_record.md; 02_time.md R30, R35, R36, R43 to R45, R449). -/

namespace Sys2Proof.Machine

/-- What the Farrier gives of an entry; SEQ, EPOCH and TAG come at the commit. -/
def mkEntry (kind source : Byte) (dt : W64) (value : W32) (unc flags : W16) : Entry :=
  { Entry.reset with kind := kind, source := source, dt := dt, value := value, unc := unc, flags := flags }

/-- Bytes 0 to 23 of an entry (R272). -/
def Entry.body (e : Entry) : List Byte :=
  leBytes 4 e.seq.toNat ++ leBytes 2 e.epoch.toNat ++ [e.kind, e.source] ++ leBytes 8 e.dt.toNat ++ leBytes 4 e.value.toNat ++
  leBytes 2 e.unc.toNat ++ leBytes 2 e.flags.toNat

/-- All 32 bytes of an entry, the tag in HMAC output order. -/
def Entry.bytes (e : Entry) : List Byte := e.body ++ leBytes 8 e.tag.toNat

/-- The first 8 bytes of HMAC-SHA-256 as a tag. -/
def tagOf (key msg : List Byte) : BitVec 64 := BitVec.ofNat 64 (ofLe ((Sha.hmac key msg).take 8))

/-- Tag of an entry after a previous tag (R274). -/
def chainTag (key : List Byte) (prev : BitVec 64) (e : Entry) : BitVec 64 := tagOf key (leBytes 8 prev.toNat ++ e.body)

/-- Genesis tag of an epoch (R275). -/
def genesisTag (key : List Byte) (epoch : W16) (serial : W64) : BitVec 64 :=
  tagOf key ([0x45, 0x50, 0x4F, 0x43, 0x48] ++ leBytes 2 epoch.toNat ++ leBytes 8 serial.toNat)

/-- Key check value (R278). -/
def keyCheck (key : List Byte) (serial : W64) : W32 :=
  BitVec.ofNat 32 (ofLe ((Sha.hmac key ([0x4B, 0x43, 0x56] ++ leBytes 8 serial.toNat)).take 4))

/-- Record writing is enabled: there is a key, and no decommissioning refuses it (R278, R279). -/
def State.writes (s : State) : Bool := s.rcd.enabled && !s.rcd.shut && s.nv.key.isSome

/-- Ticks as milliseconds, rounded half up and saturating at 2^31 − 1 (R35). -/
def ticksMs (t : Nat) : W32 := let m := roundDiv t 1600000; if m < 2147483648 then BitVec.ofNat 32 m else 2147483647

/-- Store an entry and advance the tail: SEQ, EPOCH and TAG are set here (R276). -/
def pushEntry (e : Entry) (s : State) : State :=
  let r := s.rcd
  let e := { e with seq := r.seq, epoch := r.epoch }
  let e := { e with tag := chainTag (s.nv.key.getD []) r.lastTag e }
  { s with rcd := { r with
      q := r.q ++ [e], seq := r.seq + 1, lastTag := e.tag, gapDt := if e.kind = 2 then some e.dt else r.gapDt
      headEpoch := if r.q.isEmpty then e.epoch else r.headEpoch
      headSeq := if r.q.isEmpty then e.seq else r.headSeq } }

/-- The kinds that cannot use the reserve: MEASURE and PROBE_FAULT (R280). -/
def Entry.plain (e : Entry) : Bool := e.kind == 1 || e.kind == 6

/-- An entry that cannot be queued is dropped and counted (R283). -/
def loseEntry (e : Entry) (s : State) : State :=
  let r := s.rcd
  { s with rcd := { r with
      lossPend := if e.plain then (if r.lossPend = 0 then 1 else r.lossPend) else 2
      lossCnt := satInc r.lossCnt
      lossFirst := if r.lossPend = 0 then e.dt else r.lossFirst
      lossLast := e.dt } }

/-- The active interval and its cap: PARK_INT while parked, MEAS_INT otherwise (R282). -/
def State.interval (s : State) : W32 × Nat := if s.ps.parkInt ≠ 0 then (s.ps.parkInt, 86400) else (s.ps.intv, 3600)

/-- An interval with the doublings in force, up to its cap (R282). -/
def doubled (conf : W32) (step : Byte) (cap : Nat) : W32 := BitVec.ofNat 32 (min (conf.toNat * 2 ^ step.toNat) (max cap conf.toNat))

/-- MEAS_INT as the schedule gives it, 0 without one. -/
def State.measCfg (s : State) : W32 := (s.ps.sched.map (·.measInt)).getD 0

/-- Both intervals under a number of doublings: the one that is not active takes them too, for when it becomes so. -/
def setStep (step : Byte) (s : State) : State :=
  { s with
    rcd := { s.rcd with rateStep := step }
    ps := { s.ps with intv := doubled s.measCfg step 3600
                      parkInt := if s.ps.parkInt = 0 then 0 else doubled s.ps.parkCfg step 86400 } }

/-- A RATE_CHANGE entry (R273). -/
def rateEntry (v : W32) (doubled : Bool) (s : State) : Entry :=
  mkEntry 9 0 s.tb.dt v 0 (BitVec.ofNat 16 ((bif doubled then 1 else 0) + (if s.ps.parkInt ≠ 0 then 2 else 0)))

/-! ### Epochs that a full chain asks for (R44, R45, R277) -/

/-- The epoch number that the next start takes: an unreadable counter skips one (R44; 17_health.md R381). -/
def State.nextEpoch (s : State) : Nat := s.nv.epoch.toNat + (if s.nv.epochBad.isSome then 2 else 1)

/-- No epoch number is left (R45). -/
def State.epochsSpent (s : State) : Bool := decide (0xFFFF < s.nextEpoch)

/-- A new epoch is needed and none is left: record writing is disabled and REPLACE set (R45). -/
def noEpoch (s : State) : State := setCause 6 false { s with rcd := { s.rcd with enabled := false } }

/-- Step 1 of R43: the incremented epoch is written to NV (R44). The rest waits for the TIDE edge; a start that already waits for
it serves. -/
def startEpoch (cause : Byte) (follow : List Entry) (s : State) : State :=
  match s.rcd.epochPend with
  | some (c, l) => { s with rcd := { s.rcd with epochPend := some (c, l ++ follow) } }
  | none =>
    if s.epochsSpent then noEpoch s
    else
      { s with nv := { s.nv with epoch := BitVec.ofNat 16 s.nextEpoch, epochBad := none }
               rcd := { s.rcd with epochPend := some (cause, follow) } }

/-- The next entry would take SEQ 0xFFFF_FFFF (R277). -/
def State.seqSpent (s : State) : Bool := s.rcd.seq == 0xFFFFFFFF

/-- Store an entry that has its place in the queue; where an epoch start is under way or due (R277) it follows the start. -/
def putEntry (e : Entry) (s : State) : State :=
  if s.rcd.epochPend.isSome || s.seqSpent then startEpoch 5 [e] s else pushEntry e s

/-- At 384 and 448 entries held the active interval doubles (R282). -/
def rateDouble (s : State) : State :=
  let held := s.rcd.q.length
  let (i, cap) := s.interval
  let v := doubled i 1 cap
  let due := (s.rcd.rateStep = 0 ∧ 384 ≤ held) ∨ (s.rcd.rateStep = 1 ∧ 448 ≤ held)
  if due ∧ i ≠ 0 ∧ v ≠ i then
    let e := rateEntry v true s
    let s1 := setStep (s.rcd.rateStep + 1) s
    if held < 512 then putEntry e s1 else loseEntry e s1
  else s

/-! ### Losses (R273, R283; 11_probes.md R269) -/

/-- An entry can be pushed now. -/
def State.room (s : State) : Bool := decide (s.rcd.q.length < 512) && !s.seqSpent

/-- A pending loss of the queue is written (R283). -/
def queueLoss (s : State) : State :=
  let r := s.rcd
  if r.lossPend = 0 || !s.room then s
  else pushEntry (mkEntry 0x0A r.lossPend r.lossFirst (ticksMs (r.lossLast - r.lossFirst).toNat) 0 r.lossCnt)
    { s with rcd := { r with lossPend := 0, lossCnt := 0 } }

/-- Missed park wakes that wait for space are written (11_probes.md R269). -/
def parkLoss (s : State) : State :=
  let p := s.ps
  if !p.missedDue || !s.room then s
  else pushEntry (mkEntry 0x0A 3 p.missedFirst p.missedMs 0 p.missed)
    { s with ps := { p with missed := 0, missedDue := false } }

/-- Overwritten probe results that are not yet stated are written; OVR clears with it (11_probes.md, "When things meet"). -/
def probeLoss (s : State) : State :=
  let k := s.ps
  if k.lostN = 0 || !s.room then s
  else pushEntry (mkEntry 0x0A 4 k.lostFirst (ticksMs (k.lostLast - k.lostFirst).toNat) 0 k.lostN)
    { s with ps := { k with lostN := 0 }, prb := s.prb.map fun (p : Probe) => { p with flags := setBit p.flags 0 false } }

/-- One LOSS entry for each cause that has one pending, as far as there is space (R283). -/
def stateLoss (s : State) : State := probeLoss (parkLoss (queueLoss s))

/-- A LOSS entry tried outside another entry: not while an epoch start is under way or due, and none at all while writing is
disabled. -/
def tryLoss (loss : State → State) (s : State) : State :=
  if s.writes && s.rcd.epochPend.isNone && !s.rcd.hdrBad then rateDouble (loss s) else s

/-- Try to queue an entry: LOSS first when one is pending and space has returned (R280, R283); the SEQ it got. -/
def queueEntry (e : Entry) (s : State) : State × Option W32 :=
  let full (e : Entry) (s : State) : Bool := decide ((if e.plain then 496 else 512) ≤ s.rcd.q.length)
  if full e s then (loseEntry e s, none)
  else
    let s := stateLoss s
    if full e s then (loseEntry e s, none)
    else if s.seqSpent then (startEpoch 5 [e] s, none)
    else
      let seq := s.rcd.seq
      (rateDouble (pushEntry e s), some seq)

/-- Write an entry of the record: nothing while writing is disabled (R278); while an epoch start is under way it follows
the start, unless a decommissioning has refused it (R279); at SEQ 0xFFFF_FFFF a new epoch with cause 5 starts first (R277), and
after an unreadable queue header one with cause 2 (17_health.md R379). -/
def record (e : Entry) (s : State) : State × Option W32 :=
  if !s.writes then (s, none)
  else if s.rcd.epochPend.isSome then (if s.rcd.decom.isSome then s else startEpoch 5 [e] s, none)
  else if s.rcd.hdrBad then (startEpoch 2 [e] { s with rcd := { s.rcd with hdrBad := false } }, none)
  else if s.seqSpent then (startEpoch 5 [e] s, none)
  else queueEntry e s

/-- Write an entry, its SEQ not needed. -/
def log (e : Entry) (s : State) : State := (record e s).1

/-- The Farrier runs its firmware, so that it can write an entry (01_system.md R19; 18_debug.md R408). -/
def State.farrierWrites (s : State) : Bool :=
  !s.far.halted &&
  match s.pwr.phase with
  | .run | .sleepEntry => s.far.running
  | .bootWait => true
  | _ => false

/-- Write the entries that waited for the Farrier; the GAP entry of a wake goes first. -/
def writeDue (s : State) : State :=
  if s.tb.gapDue.isEmpty then forEach s.rcd.due log { s with rcd := { s.rcd with due := [] } } else s

/-- Write an entry of the timebase: one that comes while the Farrier does not run waits for it (01_system.md R19). -/
def logTime (e : Entry) (s : State) : State :=
  if s.farrierWrites then log e s else if s.writes then { s with rcd := { s.rcd with due := s.rcd.due ++ [e] } } else s

/-- Instants kept in DT, from which time is measured, move with DT when it is set to 0; event times that a program or the host wrote,
and stamps that registers show, stand (DESIGN CHOICE, log entry 46). -/
def shiftDt (d : W64) (s : State) : State :=
  let e : EvTime := fld (d ++ 0#2) 0 48
  { s with
    link := { s.link with dueAt := s.link.dueAt.map fun (t : EvTime) => t - e
                          onAt := s.link.onAt.map fun (t : EvTime) => t - e
                          cpAt := s.link.cpAt - e }
    har := s.har.map fun (k : Harness) => { k with ovEnd := k.ovEnd.map (· - e)
                                                   mem := k.mem.map fun m => { m with req := m.req - e, start := m.start - e, sw := m.sw - e } }
    conv := s.conv.map fun (k : Conv) => { k with tc := k.tc - e, t0 := k.t0 - e }
    gt := s.gt.map fun (k : Tracker) => { k with heard := k.heard.map (· - d) }
    tb := { s.tb with srcSince := s.tb.srcSince - d, rootSince := s.tb.rootSince - d, coarseFrom := s.tb.coarseFrom - d,
                      coarseAt := s.tb.coarseAt - d, sscOrigin := s.tb.sscOrigin - d, sscAt := s.tb.sscAt - d }
    ps := { s.ps with base := s.ps.base - d }
    far := { s.far with rstAt := s.far.rstAt - d, musterMs := 0, wdtAt := s.far.wdtAt - d, wdtStop := s.far.wdtStop.map (· - d), nonce := s.far.nonce.map fun n => (n.1, n.2 - d) }
    hlt := { s.hlt with corr := s.hlt.corr.map fun c => { c with start := c.start - d },
                        vbatSince := s.hlt.vbatSince.map (· - d)
                        tempInj := s.hlt.tempInj.map fun (t : BitVec 32 × BitVec 64) => (t.1, t.2 - d)
                        supInj := s.hlt.supInj.map fun (t : BitVec 64) => t - d
                        clkInj := s.hlt.clkInj.map fun (t : BitVec 64) => t - d }
    dbg := { s.dbg with walkAt := s.dbg.walkAt - d }
    host := { s.host with hwdAt := s.host.hwdAt - d }
    units := s.units.map fun c => { c with hl := { c.hl with ceStart := c.hl.ceStart - d } }
    bas := s.bas.map fun (k : Basin) => { k with arr := k.arr.map (· - d) }
    ost := { s.ost with dispAt := s.ost.dispAt - (d ++ 0#2) }
    spw := { s.spw with x78At := s.spw.x78At.map (· - (d ++ 0#2)), confAt := s.spw.confAt - (d ++ 0#2) }
    arm := { s.arm with at_ := s.arm.at_ - (d ++ 0#2) } }

/-- Steps 2 and 3 of R43, at the TIDE edge: DT and the tide counter to 0, the pair latched, EPOCH_START, source 196. The
entries that waited follow it; a loss of the old epoch is stated in its chain first. A decommissioning that waited refuses
further entries from here (R279). The refresh grid keeps its edges (R448). -/
def epochZero (s : State) : State :=
  match s.rcd.epochPend with
  | none => s
  | some (cause, follow) =>
    let prev : W32 := if cause = 1 then 0 else s.tb.epochRun.zeroExtend 32
    let s := if s.writes && cause != 4 then stateLoss s else s
    let s := shiftDt s.tb.dt s
    let s := { s with tb := { s.tb with dt := 0, frac := 0, epochRun := s.nv.epoch, refreshAt := s.tb.refreshAt - s.rsv.tide }
                      rsv := { s.rsv with tide := 0 } }
    let s := { latchPair false s with rcd := { s.rcd with epochPend := none, gapDt := none } }
    let s := if s.writes then
        let s := { s with rcd := { s.rcd with epoch := s.nv.epoch, seq := 0,
                                              lastTag := genesisTag (s.nv.key.getD []) s.nv.epoch s.nv.serial } }
        let e := mkEntry 3 cause 0 prev (if cause = 1 ∨ cause = 2 then 0xFFFF else 0) 0
        if s.rcd.q.length < 512 then rateDouble (pushEntry e s) else loseEntry e s
      else s
    let s := forEach follow log (pulse 196 s)
    { s with rcd := { s.rcd with shut := s.rcd.shut || s.rcd.decom.isSome } }

/-- A new epoch that cannot wait for another command, at boot (R43); with no number left the timing functions go on with DT
from 0 (R45). -/
def epochNow (cause : Byte) (follow : List Entry) (s : State) : State :=
  let s1 := startEpoch cause follow s
  if s1.rcd.epochPend.isSome then epochZero s1
  else latchPair false { shiftDt s1.tb.dt s1 with tb := { (shiftDt s1.tb.dt s1).tb with dt := 0, frac := 0, epochRun := s.nv.epoch } }

/-! ### Elapsed time, GAP and TIME_SOURCE (R30, R35, R36, R449) -/

/-- The interval since the tide pair crosses a source change (R30). -/
def State.split (s : State) : Bool := !s.rsv.tpSrc && s.rsv.onTrc

/-- The two parts of the interval since the tide pair, in ticks: on the crystal, and on TRC (R30). DESIGN CHOICE (log entry 40): an
interval in which the counter returned from TRC to the crystal, whose edge nothing latches, converts wholly as TRC. -/
def pairParts (s : State) : Nat × Nat :=
  let r := s.rsv
  if s.split then
    (tideTicks false r.tpErrX (r.chgTide - r.tpTide).toNat, tideTicks true r.tpErrT (r.tide - r.chgTide).toNat)
  else if r.tpSrc then (0, tideTicks true r.tpErrT (r.tide - r.tpTide).toNat)
  else (tideTicks false r.tpErrX (r.tide - r.tpTide).toNat, 0)

/-- DT rebuilt from the tide pair at the present tide count (R30). -/
def rebuiltDt (s : State) : W64 := s.rsv.tpDt + BitVec.ofNat 64 ((pairParts s).1 + (pairParts s).2)

/-- A drift allowance in ppm over ticks of 625 ps, in 10^-18 s. -/
def driftUnc (ppm : W32) (ticks : Nat) : Nat := ppm.toNat * ticks * 625

/-- 10^-18 s as whole milliseconds rounded up, saturating at 65,535. -/
def uncMs (a : Nat) : W16 := satNat 16 (ceilDiv a 1000000000000000)

/-- The parts of the interval that a GAP entry states: from `start`, where an earlier GAP entry of the same pair ended
(R448), or from the pair. -/
def gapParts (start : W64) (s : State) : Nat × Nat :=
  let (x, t) := pairParts s
  let stated := (start - s.rsv.tpDt).toNat
  (x - stated, t - (stated - x))

/-- The interval that a GAP entry states crosses a source change. -/
def State.gapSplit (s : State) (start : W64) : Bool := s.split && decide (0 < (gapParts start s).1)

/-- The uncertainty of the interval that a GAP entry states (R36), in 10^-18 s. -/
def gapUnc (start : W64) (s : State) : Nat :=
  let (x, t) := gapParts start s
  let px := 30520000000000
  let pt := 31250000000000
  if s.gapSplit start then
    driftUnc s.tb.pairX x + driftUnc s.tb.pairT t + px + pt + 125000000000000 + 2000000000000
  else if s.rsv.tpSrc || s.rsv.onTrc then driftUnc s.tb.pairT t + pt + 2000000000000
  else driftUnc s.tb.pairX x + px + 2000000000000

/-- The GAP entry of the interval since the tide pair, at the reseed edge (R35): `src` 1 SLEEP, 2 DEEP, 3 reset; `from`
an earlier start of the interval stated (R448). -/
def gapEntry (src : Byte) (start : W64) (s : State) : Entry :=
  let ms := roundDiv (s.tb.dt - start).toNat 1600000
  mkEntry 2 src s.tb.dt (ticksMs (s.tb.dt - start).toNat) (uncMs (gapUnc start s))
    (BitVec.ofNat 16 ((if 2147483647 < ms then 1 else 0) + (if s.gapSplit start then 2 else 0)))

/-- A span of R449 begins here, under the allowances of now (R37). -/
def beginSpan (s : State) : State :=
  { s with tb := { s.tb with coarseAt := s.tb.dt, spanX := s.tb.allowX, spanT := s.tb.allowT } }

/-- A span of ticks on the tide source adds to the uncertainty gathered (R449). -/
def addUnc (ticks : Nat) (s : State) : State :=
  let u := if s.rsv.onTrc then driftUnc s.tb.spanT ticks + 31250000000000 else driftUnc s.tb.spanX ticks + 30520000000000
  { s with tb := { s.tb with unc := s.tb.unc + u } }

/-- DT at which the interval that the next GAP entry states begins: the pair, or a GAP of the same pair (R448). -/
def State.gapStart (s : State) : W64 :=
  match s.rcd.gapDt with
  | some d => if s.rsv.tpDt < d then d else s.rsv.tpDt
  | none => s.rsv.tpDt

/-- The DT from which the source that a TIME_SOURCE entry leaves was in use: the tide counter's source for 1 and 2, the tide
source that carried DT for 5, and the root source for 3 and 4. -/
def State.leftSince (s : State) (src : Byte) : W64 :=
  if src = 1 ∨ src = 2 then s.tb.srcSince else if src = 5 then s.tb.coarseFrom else s.tb.rootSince

/-- The source of a TIME_SOURCE entry is in use from `dt` on. -/
def markSource (src : Byte) (dt : W64) (b : Timebase) : Timebase :=
  if src = 1 ∨ src = 2 then { b with srcSince := dt } else { b with rootSince := dt, onBrc := src == 4 }

/-- The TIME_SOURCE entry of a change at `dt`, latched while asleep or not (R273, R449). -/
def sourceEntry (src : Byte) (dt : W64) (asleep : Bool) (s : State) : Entry :=
  mkEntry 5 src dt (ticksMs (dt - s.leftSince src).toNat) (if asleep then 0 else uncMs s.tb.unc) (bif asleep then 1 else 0)

/-- The source changes: its entry is written, or waits for the Farrier, and the uncertainty gathered is stated with it. -/
def timeSource (src : Byte) (dt : W64) (s : State) : State :=
  let s1 := logTime (sourceEntry src dt false s) s
  { s1 with tb := { markSource src dt s1.tb with unc := 0 } }

/-- A NOTE entry (R273). -/
def note (sub : Byte) (value : W32) (flags : W16) (s : State) : State × Option W32 :=
  record (mkEntry 0x0B sub s.tb.dt value 0 flags) s

/-- At 128 entries or fewer the configured interval returns (R282): both intervals, with the entry of the active one. -/
def rateRestore (s : State) : State :=
  if s.rcd.rateStep ≠ 0 ∧ s.rcd.q.length ≤ 128 then
    let s := setStep 0 s
    let s := log (rateEntry s.interval.1 false s) s
    { s with ps := { s.ps with base := s.tb.dt } }
  else s

end Sys2Proof.Machine
end

