-- ==== Sys2Proof/Machine/MusterOps.lean ====
section
/-! DEFINITION. The muster: the Farrier's table against the hardware, with what the Farrier does at each muster
(14_farrier_commands.md R315 to R318, 10_gait.md R247, 17_health.md R382, 18_debug.md R413). -/

namespace Sys2Proof.Machine

/-- A trip in force holds RESUME back (17_health.md R383). -/
def State.tripped (s : State) : Bool := s.hlt.tempTrip || s.hlt.vbatTrip

/-- Service of the Farrier watchdog (17_health.md R382); an injection stops servicing. -/
def wdtService (s : State) : State :=
  if s.hlt.wdtInj then s
  else { s with far := { s.far with wdtAt := s.tb.dt, wdtStop := s.far.wdtStop.map fun _ => s.tb.dt, wdtWarned := false } }

/-- AUTO_REARM at the first muster after a gain (10_gait.md R247). -/
def rearm (n : Fin 2) (s : State) : State :=
  let k := s.gt[n]
  if !k.rearm then s
  else
    let s := s.modGt n fun k => { k with rearm := false }
    if !bit k.cfg[0] 7 then s
    else
      let s := forEach (maskIdx 64 (k.cfg[9] ++ k.cfg[8])) (fun l s =>
        match unitOf s l with
        | some u => if s.units[u].safeHeld then adoptCh l (writeCtrl u (setBit s.units[u].ctrl 0 true) s) else s
        | none => s) s
      forEach (maskIdx 16 (fld k.cfg[10] 0 16)) (fun h s =>
        if bit s.har[h].safedBy n.val && !s.tripped then adoptHar h (resumeHarness h s) else s) s

/-- A MISMATCH record and source 210 (R132, R317). -/
def mismatch (cls : Byte) (n : Nat) (s : State) : State :=
  pulse 210 (postB63 (sysRec s.nowEv 0x11 cls (BitVec.ofNat 16 n) (s.host.musterSeq + 1)) s)

/-- Muster of a logical channel: an open channel whose unit does not hold it is invalid, save a retired one (R316, R317). -/
def musterCh (l : Lch) (s : State) : State :=
  let m := s.lmap[l]
  let hw := hwCh s l
  if m.mig.isSome || s.far.tabCh[l] = hw then s
  else
    let s := mismatch 0 l.val s
    if hw.open_ && !hw.held && hw.pch != 0x7F then closeChannel l (safeChannel l s) else adoptCh l s

/-- Muster of a harness (R316, R317). -/
def musterHar (h : HarnessId) (s : State) : State :=
  let hw := hwHar s h
  if s.far.tabHar[h] = hw then s
  else
    let s1 := mismatch 1 h.val s
    if s.far.tabHar[h].kind ≠ hw.kind then closeHarness h (safeHarness h s1) else adoptHar h s1

/-- A thread in the terms of the table. -/
def hwThr (s : State) (t : Tid) : TabThr :=
  let k := s.thr[t]
  match k.st with
  | .free => TabThr.reset
  | .stopped => { st := .stopped, slot := k.slot, prog := k.prog }
  | _ => { st := .wait, slot := k.slot, prog := k.prog }

/-- Muster of a thread (R316, R317). -/
def musterThr (t : Tid) (s : State) : State :=
  let hw := hwThr s t
  let tab := s.far.tabThr[t]
  if tab = hw then s
  else
    let s := mismatch 2 t.val s
    if hw.st = .free || tab.st = .free || hw.prog != tab.prog then
      let s := startFill <| freeThread t (withdraw (fun e => e.owner == BitVec.ofNat 8 t.val) s)
      { s with far := { s.far with tabThr := vmod s.far.tabThr t fun _ => TabThr.reset } }
    else { s with far := { s.far with tabThr := vmod s.far.tabThr t fun _ => hw } }

/-- A basin in the terms of the table. -/
def hwBas (s : State) (b : BasinId) : TabBas :=
  let k := s.bas[b]
  { open_ := k.open_, floor := k.floor, ceil := k.ceil, policy := k.policy, thresh := k.thresh, age := k.age }

/-- Muster of a basin (R316, R317). -/
def musterBas (b : BasinId) (s : State) : State :=
  let hw := hwBas s b
  if s.far.tabBas[b] = hw then s
  else
    let s := mismatch 3 b.val s
    if hw.open_ then { s with far := { s.far with tabBas := vmod s.far.tabBas b fun _ => hw } }
    else { s with far := { s.far with tabBas := vmod s.far.tabBas b fun _ => TabBas.reset }
                  prog := s.prog.map fun (p : Prog) => { p with bMask := setBit p.bMask b.val false } }

/-- SAFE to every open power-class harness, as the Farrier sends it; its table follows (17_health.md R383). -/
def tripSafe (s : State) : State := forEach (powerHarnesses s) adoptMembers (safePower s)

/-- The Farrier reports an expiry of the host watchdog (13_host_link.md R301). -/
def hwdReport (inj : Bool) (s : State) : State :=
  let s := health 0x10 0 (if s.host.hwdAct then 6 else 5) inj (s.host.hwdTo.zeroExtend 32) s
  if s.host.hwdAct then tripSafe s else s

/-- An expiry that came while the Farrier did not run is reported (17_health.md, "When things meet"). -/
def hwdOwed (s : State) : State :=
  match s.host.hwdPost with
  | none => s
  | some inj => hwdReport inj { s with host := { s.host with hwdPost := none } }

/-- Milliseconds of DT that have passed, 1,600,000 ticks each. -/
def State.msNow (s : State) : W64 := s.tb.dt / 1600000

/-- One muster (R315 to R318). -/
def muster (s : State) : State :=
  let s := hwdOwed (wdtService (writeDue { s with far := { s.far with musterMs := s.msNow } }))
  let s := rearm 1 (rearm 0 s)
  let s := forEach (idxs 64) musterCh s
  let s := forEach (idxs 16) musterHar s
  let s := forEach (idxs 64) musterThr s
  let s := forEach (idxs 64) musterBas s
  { s with host := { s.host with musterSeq := s.host.musterSeq + 1 } }

/-- The Farrier runs requests and musters. -/
def State.farrierUp (s : State) : Bool := s.far.running && !s.far.halted && s.pwr.phase == .run

/-- A request is being carried out: it waits for the charge pump, the link, a migration or the TIDE edge of an epoch start
(R308, R309). -/
def State.inRequest (s : State) : Bool :=
  s.link.cpOpen.isSome || s.link.cfgReply.isSome || s.far.migReply.isSome || s.rcd.epochMb.isSome

/-- The reply of an H_CFG whose last write has crossed the link; a halted Farrier writes it when it runs on (R308). -/
def cfgFinish (s : State) : State :=
  match s.link.cfgReply with
  | none => s
  | some r =>
    if r.left = 0 && s.farrierUp then
      writeReply (bvFin 8 rfl r.mb) 0x32 r.tag (if r.bad then 0x14 else 0) [] { s with link := { s.link with cfgReply := none } }
    else s

/-- A register write has left the link's queue; `lost` says that it did not apply. The last three ahead of the reply are the request's. -/
def cfgStep (lost : Bool) (s : State) : State :=
  match s.link.cfgReply with
  | none => s
  | some r =>
    cfgFinish { s with link := { s.link with cfgReply := some { r with left := r.left - 1, bad := r.bad || (lost && decide (r.left ≤ 3)) } } }

/-- MUSTER (R315): once per 1 ms of DT, between requests, unless the Farrier is halted. -/
def execMuster (t : Instant) (s : State) : Out :=
  event t (fun s => s.farrierUp && !s.inRequest && decide (s.far.musterMs < s.msNow)) muster s

end Sys2Proof.Machine
end

