-- ==== Sys2Proof/Machine/ProbeOps.lean ====
section
/-! DEFINITION. Probe converters and schedules: the sequencer, the stored ratio, the temperature, the entries of a result,
and the load of a schedule (11_probes.md). -/

namespace Sys2Proof.Machine

/-! ### The sequencer (R259, R262) -/

/-- Pairs of a slot. -/
def Conv.pairs (k : Conv) : Nat := 2 ^ k.avg.toNat

/-- Slots of a run: NSLOT 0 means 8. -/
def Conv.slotsUsed (k : Conv) : Nat := if k.nslot = 0 then 8 else k.nslot.toNat

/-- Probe 8 c + i. -/
def probeNo (c : Fin 2) (i : BitVec 3) : Fin 16 := ⟨8 * c.val + i.toNat, by omega⟩

/-- The probe of slot `i` of a converter. -/
def slotProbe (s : State) (c : Fin 2) (i : Nat) : Fin 16 := probeNo c (s.conv[c].slots.toList.getD i 0)

/-- Saturating addition to a 40-bit sum of fines. -/
def addTime (a : BitVec 40) (n : Nat) : BitVec 40 := satAdd a n

/-- The ratio of a slot times 2^24, to nearest with halves away from zero, saturating (R259). A divisor that is not
positive has no stated quotient. -/
def ratioOf (k : Conv) : W32 :=
  let o : Int := (k.pairs : Int) * k.ofs.toInt
  let num : Int := (k.sumPrb.toNat : Int) - o
  let den : Int := (k.sumRef.toNat : Int) - o
  if den ≤ 0 ∨ num < 0 then Config.noFit k.sumPrb.toNat else satNat 32 (roundDiv (num.toNat * 2 ^ 24) den.toNat)

/-- Set fault flags of a probe: OVR 0, OPEN 1, SHORT 2, REF 3. -/
def Probe.flagSet (p : Probe) (i : Nat) : Probe := { p with flags := setBit p.flags i true }

/-- A result is stored over one that nothing has read: OVR, and the lost result is counted (R271). -/
def overwrite (p : Fin 16) (s : State) : State :=
  let k := s.prb[p]
  if k.full then
    let s1 := s.modPrb p fun k => k.flagSet 0
    { s1 with ps := { s1.ps with lostN := satInc s1.ps.lostN
                                 lostFirst := if s1.ps.lostN = 0 then k.dt else s1.ps.lostFirst
                                 lostLast := k.dt } }
  else s

/-- The slot of converter `c` ends: sums, ratio, FULL and flags are stored, then the event is sent (R259, R262). Each fault sets its
own flag. DESIGN CHOICE (log entry 46): of several, the entry of R263 names the reference first, then open. -/
def slotEnd (c : Fin 2) (s : State) : State :=
  let k := s.conv[c]
  let p := slotProbe s c k.slot.toNat
  let inj := s.prb[p].inj
  let open_ := k.prbOpen || inj == 1
  let short := k.prbShort || inj == 2
  let res : BitVec 2 := if k.refBad then 3 else if open_ then 1 else if short then 2 else 0
  let s := overwrite p s
  let s := s.modPrb p fun r =>
    let r := { r with inj := 0, ref := k.refSel }
    let r := { r with tRef := k.sumRef, tPrb := k.sumPrb, done := true, res := res, dt := stampDt s k.tc
                      flags := r.flags ||| (b2v 1 k.refBad ++ b2v 1 short ++ b2v 1 open_ ++ (0#1 : BitVec 1)) }
    if res = 0 then { r with ratio := ratioOf k, full := true } else r
  let s := pushEvent ⟨68 + c.val, by omega⟩ { XEv.reset with lch := BitVec.ofNat 6 p.val, stamp := s.nowEv } s
  s.modConv c fun k =>
    let k := { k with slot := k.slot + 1, pair := 0, onPrb := false, dis := false, sumRef := 0, sumPrb := 0,
                      prbOpen := false, prbShort := false }
    if k.slotsUsed ≤ k.slot.toNat then { k with busy := false, slot := 0, refBad := false } else k

/-- A reference fault sets REF for every slot of the run (R262): a slot of it that has ended already has the fault to
report besides (R263). -/
def refFault (c : Fin 2) (s : State) : State :=
  let k := s.conv[c]
  let s := forEach ((List.range k.slotsUsed).map (slotProbe s c)) (fun p s => s.modPrb p fun r => r.flagSet 3) s
  forEach ((List.range k.slot.toNat).map (slotProbe s c)) (fun p s => s.modPrb p fun r => { r with done := true, res := 3 }) s

/-- A discharge of converter `c` has ended after `t` fines; `ended` by TOPEN (R259, R262). The next charge begins with its end. -/
def dischargeEnd (c : Fin 2) (t : Nat) (ended : Bool) (s : State) : State :=
  let s := s.modConv c fun k => { k with tc := k.t0 + BitVec.ofNat 48 t }
  let k := s.conv[c]
  let short := decide ((t : Int) - k.ofs.toInt < (k.tshort.toNat : Int))
  if !k.onPrb then
    let bad := ended || short
    let s := s.modConv c fun k => { k with dis := false, onPrb := true, sumRef := addTime k.sumRef t, refBad := k.refBad || bad }
    if bad then refFault c s else s
  else
    let s := s.modConv c fun k => { k with dis := false, onPrb := false, sumPrb := addTime k.sumPrb t, pair := k.pair + 1,
                                           prbOpen := k.prbOpen || ended, prbShort := k.prbShort || short }
    if s.conv[c].pairs ≤ s.conv[c].pair.toNat then slotEnd c s else s

/-- VIO and the PLL serve the converters: none runs in SLEEP or DEEP, nor on the ladders into and out of them (R268). An L2 reset
spares them. -/
def State.probesOn (s : State) : Bool :=
  match s.pwr.phase with
  | .run | .bootWait | .bootHalt => true
  | .held => s.pwr.level == 2#2
  | _ => false

/-- START: run the slot list once; a failed converter gives REF for each probe and no ratio (R271; 17_health.md R385). -/
def startConv (c : Fin 2) (s : State) : State :=
  let k := s.conv[c]
  if k.busy || !s.probesOn then s
  else if k.failed then
    forEach ((List.range k.slotsUsed).map (slotProbe s c))
      (fun p s => (overwrite p s).modPrb p fun r => { r.flagSet 3 with done := true, res := 3, dt := s.tb.dt }) s
  else s.modConv c fun k => { k with busy := true, tc := s.nowEv, slot := 0, pair := 0, onPrb := false, dis := false, sumRef := 0, sumPrb := 0,
                                     refBad := false, prbOpen := false, prbShort := false }

/-- A converter runs. -/
def State.probing (s : State) : Bool := s.conv[0].busy || s.conv[1].busy

/-! ### The temperature (R264) -/

/-- m°C of a ratio in binary64, OFFSET_MC added; none outside −100,000 to +200,000. -/
def tempOf (s : State) (p : Fin 16) : Option W32 :=
  let k := s.prb[p]
  let c : Fin 2 := ⟨p.val / 8, by omega⟩
  let q := Float.ofNat k.ratio.toNat / 16777216.0
  let rRef := Float.ofNat (s.cal.rRef[if k.ref then (1 : Fin 2) else 0]).toNat / 1000.0
  let rOn := Float.ofNat s.cal.rOn[c].toNat / 1000.0
  let r := q * (rRef + rOn) - rOn
  let a := Float.ofBits (UInt64.ofNat k.ca.toNat)
  let b := Float.ofBits (UInt64.ofNat k.cb.toNat)
  let c3 := Float.ofBits (UInt64.ofNat k.cc.toNat)
  let l := Float.log r
  let tk := 1.0 / (a + b * l + c3 * (l * l * l))
  let m := Float.round ((tk - 273.15) * 1000.0)
  if m < -4000000000.0 || 4000000000.0 < m || m.isNaN then none
  else
    let n : Int := (if m < 0.0 then -((Float.toUInt64 (-m)).toNat : Int) else (Float.toUInt64 m).toNat) + k.off.toInt
    if n < -100000 ∨ 200000 < n then none else some (BitVec.ofInt 32 n)

/-! ### Taking a result (R263 to R265) -/

/-- The LOSS entry of overwritten results (12_sealed_record.md R273): it stays pending while there is no space (R283), and is
not kept while writing is disabled. -/
def statedLoss (s : State) : State :=
  if s.writes then tryLoss probeLoss s
  else { s with ps := { s.ps with lostN := 0 }, prb := s.prb.map fun (p : Probe) => { p with flags := setBit p.flags 0 false } }

/-- REF of the probe belongs to the run in progress, whose reference is at fault (R262). -/
def refRun (s : State) (p : Fin 16) : Bool :=
  let c : Fin 2 := ⟨p.val / 8, by omega⟩
  s.conv[c].busy && s.conv[c].refBad && ((List.range s.conv[c].slotsUsed).map (slotProbe s c)).contains p

/-- The Farrier takes the result of a probe: PROBE_FAULT at the first run of a fault and at its end, MEASURE otherwise. -/
def takeResult (p : Fin 16) (s : State) : State :=
  let k := s.prb[p]
  if !k.done then s
  else
    let s := statedLoss s
    let temp := if k.res = 0 then tempOf s p else none
    let code : BitVec 3 := if k.res ≠ 0 then k.res.zeroExtend 3 else if temp.isNone then 4 else 0
    let s := s.modPrb p fun r => { r with
      done := false, full := false, faulty := code, range := code == 4, valid := code == 0, mC := temp.getD r.mC
      flags := if k.res = 0 then r.flags &&& (if refRun s p then 9 else 1) else r.flags }
    let fault (v : BitVec 3) : Entry := mkEntry 6 (BitVec.ofNat 8 p.val) k.dt (v.zeroExtend 32) 0 0
    if code ≠ 0 then (if k.faulty = 0 then log (fault code) s else s)
    else
      let s := if k.faulty ≠ 0 then log (fault 0) s else s
      log (mkEntry 1 (BitVec.ofNat 8 p.val) k.dt (temp.getD 0) 0 (bif s.ps.parkRun then 1 else 0)) s

/-! ### Schedules (R258, R266, R267) -/

/-- Write the registers of a converter from its block; an unused converter keeps no slots running. -/
def applyBlock (c : Fin 2) (b : ConvSched) (topen tshort : W32) (s : State) : State :=
  s.modConv c fun k =>
    if b.nslot = 0 then k
    else { k with refSel := bit b.refSel 0, avg := b.avg.truncate 3, nslot := b.nslot.truncate 3, chg := b.chg.truncate 10
                  topen := topen * 6400, tshort := satNat 32 (openDiv (tshort.toNat * 32) 5)
                  slots := b.prbs.map fun v => v.truncate 3 }

/-- Put a schedule into the converters. -/
def applySched (k : Sched) (s : State) : State := applyBlock 1 k.c1 k.topen k.tshort (applyBlock 0 k.c0 k.topen k.tshort s)

/-- Start both sequencers under the schedule in force (R266). -/
def startRun (s : State) : State :=
  match s.ps.sched with
  | none => s
  | some k =>
    let s := if k.c0.nslot = 0 then s else startConv 0 s
    if k.c1.nslot = 0 then s else startConv 1 s

/-- A schedule that waited for the run in progress is put in force when the converters are idle. -/
def settleSched (s : State) : State :=
  if s.probing then s
  else match s.ps.pendSched with
    | none => s
    | some k => applySched k { s with ps := { s.ps with pendSched := none } }

/-- Once the run of a park wake is over and its results are taken, the Farrier enters the park state again (R268). -/
def parkReturn (s : State) : State :=
  if s.ps.parkRun && s.ps.parkInt != 0 && !s.probing && !(idxs 16).any (fun p => s.prb[p].done) && s.far.sleepPend.isNone then
    { s with far := { s.far with sleepPend := some (if s.ps.parkDeep then 2 else 1) } }
  else s

/-- Load a schedule: boundaries are counted from now; a run in progress completes under the old one. Doublings in force
stay in force (R282). -/
def loadSched (k : Sched) (s : State) : State :=
  settleSched (setStep s.rcd.rateStep { s with ps := { s.ps with sched := some k, pendSched := some k, base := s.tb.dt } })

end Sys2Proof.Machine
end

