-- ==== Sys2Proof/Machine/TideOps.lean ====
section
/-! DEFINITION. The tide: measured errors and their means, the wake latches and the tide alarm, the spans of DT on the tide
source (02_time.md R27 to R29, R33, R40, R449; 15_interrupts.md R349). -/

namespace Sys2Proof.Machine

/-! ### Tide errors (R27 to R29) -/

/-- A quotient of integers whose rounding no rule states (log entry 7): one of the two whole numbers next to it. -/
def openDivInt (a : Int) (b : Nat) : Int := a / b + (if a % b ≠ 0 ∧ Config.quotUp a.natAbs b then 1 else 0)

/-- The error in ppb of 32,768 periods that took `dt` ticks (R27). -/
def tideError (trc : Bool) (dt : W64) : Int :=
  let np : Nat := if trc then 1638400000 else 1600000000
  openDivInt (((dt.toNat : Int) - np) * 1000000000) np

/-- The mean of the measurements held. DESIGN CHOICE (log entry 40): while fewer than 8 are held, as after a boot, it is the
mean of those. -/
def meanErr (l : List W32) : W32 := satInt 32 (openDivInt ((l.map fun (v : W32) => v.toInt).foldl (· + ·) 0) l.length)

/-- The Farrier stores the means in backup registers 28 and 29 (R27). -/
def storeMeans (s : State) : State :=
  let b := s.rsv.backup
  let b := if s.tb.terrHist.isEmpty then b else b.set 28 (meanErr s.tb.terrHist)
  let b := if s.tb.trcHist.isEmpty then b else b.set 29 (meanErr s.tb.trcHist)
  { s with rsv := { s.rsv with backup := b } }

/-! ### Wake latches and the tide alarm (R33, R40; 15_interrupts.md R349) -/

/-- A sleep command that has not passed the latch is given up: the device stays in RUN (R33). -/
def abortSleep (s : State) : State :=
  { s with
    pwr := { s.pwr with phase := .run }
    far := { s.far with sleepPend := none }
    rsv := { s.rsv with arm := 0 }
    ps := { s.ps with parkInt := 0, parkCfg := 0, parkRun := false }
    irq := { s.irq with gateH := true } }

/-- An armed wake input sets its latch: before the sleep latch it aborts the entry, in SLEEP it starts the wake ladder, in
DEEP with VBAT present it starts a boot with no cause bit (R33, R372). -/
def setLatch (i : Nat) (s : State) : State :=
  if !bit s.rsv.arm i then s
  else
    let s := { s with rsv := { s.rsv with wk := setBit s.rsv.wk i true } }
    match s.pwr.phase with
    | .run => if s.far.sleepPend.isSome then abortSleep s else s
    | .sleepEntry => abortSleep s
    | .sleep => { s with pwr := { s.pwr with phase := .wakePll } }
    | .deep => if s.pwr.vbat then { s with pwr := { s.pwr with phase := .held, level := 0, wakeBoot := true } } else s
    | _ => s

/-- The device is in SLEEP or DEEP, or on its way out. -/
def State.asleep (s : State) : Bool :=
  match s.pwr.phase with
  | .sleep | .deep | .wakePll | .wakeLocked | .wakeReseeded => true
  | _ => false

/-- The tide alarm, evaluated at every change of the count, the compare or the enable (R40). A park wake that falls while
VBAT is absent is missed (11_probes.md R269). -/
def checkAlarm (s : State) : State :=
  if s.rsv.talarmEn && passed s.rsv.tide s.rsv.talarm then
    let s := { s with rsv := { s.rsv with talarmEn := false } }
    let s := if !s.pwr.vbat && s.ps.parkInt != 0 then { s with ps := { s.ps with missed := 1 } } else s
    if s.asleep then setLatch 1 s else setLatch 1 (pulse 194 s)
  else s

/-! ### Spans on the tide source (R449) -/

/-- DT advances on the tide source, or disciplined by it: a span of R449. -/
def State.onTide (s : State) : Bool := s.tb.coarse || s.tb.disc

/-- A span of R449 ends: its uncertainty is gathered, and another begins here. -/
def closeSpan (s : State) : State :=
  beginSpan (addUnc (s.tb.dt - s.tb.coarseAt).toNat s)

/-- The present moment lies in an interval that a GAP entry will state: in SLEEP, in DEEP, or held in an L1 or L0 reset. -/
def State.inGap (s : State) : Bool := s.asleep || s.pwr.phase == .deep || (s.pwr.phase == .held && s.pwr.level != 2#2)

end Sys2Proof.Machine
end

