-- ==== Sys2Proof/Machine/PowerOps.lean ====
section
/-! DEFINITION. Resets, boot and the L2 restart: what each level clears, the failed-boot record, the boot steps, patches
(16_reset_power.md; 14_farrier_commands.md R319, R320; 15_interrupts.md R335, R346, R352; 17_health.md R390, R395). -/

namespace Sys2Proof.Machine

/-! ### Levels (R355, R357, R359) -/

/-- The reset sources, by the number of their CAUSE bit. -/
inductive RstSrc where
  | po
  | bo
  | pin
  | wdg
  | sw
  | dbg
  | clk
  | lock
deriving DecidableEq, Repr

/-- The CAUSE bit of a source. -/
def RstSrc.idx : RstSrc → Nat
  | .po => 0
  | .bo => 1
  | .pin => 2
  | .wdg => 3
  | .sw => 4
  | .dbg => 5
  | .clk => 6
  | .lock => 7

/-- The default level of a source, and the place of its field in FUSE_MAP; PO has none. -/
def RstSrc.level : RstSrc → Nat × Option Nat
  | .po => (0, none)
  | .bo => (0, some 0)
  | .pin => (1, some 2)
  | .wdg => (1, some 4)
  | .sw => (1, some 6)
  | .clk => (1, some 8)
  | .dbg => (2, some 10)
  | .lock => (2, some 12)

/-- The level that the fuse map in force gives a source (R359). -/
def mappedLevel (s : State) (r : RstSrc) : Nat :=
  match r.level with
  | (d, none) => d
  | (d, some i) => let f := (fld s.fsh.map i 2).toNat; if f = 0 then d else f - 1

/-! ### What each level clears (R356) -/

/-- An L2 reset: the Farrier core, engines, threads and the spillway are cleared, F's active state with them; power-class
harnesses without RIDE_L2 go to SAFE (R134, R149, R211, R352, R411). -/
def clearL2 (s : State) : State :=
  let s := forEach ((powerHarnesses s).filter fun h => !s.har[h].rideL2) safeHarness s
  let gone := (s.entries fun _ => true).length
  let s := s.modSpw fun w => { w with ent := w.ent.map fun (e : SpwEnt) => { e with valid := false, conf := false }, x78 := []
                                      rstDisc := satAdd w.rstDisc gone }
  { s with
    thr := s.thr.map fun (t : Thread) => { Thread.reset with ctx := { Ctx.reset with tlm := t.ctx.tlm } }
    eng := s.eng.map fun (e : Engine) => { Engine.reset with retired := e.retired, inj := e.inj, bp := e.bp, wp := e.wp }
    ost := { s.ost with fillQ := [] }
    irq := { s.irq with actF := 0, claimF := 0 }
    link := { s.link with cpOpen := none, cfgReply := none }
    rcd := { s.rcd with decom := none }
    har := s.har.map fun (k : Harness) => { k with mot := { k.mot with startMb := none } }
    hlt := { s.hlt with wdtInj := false, dlnInj := 0, mbInj := 0 }
    far := { s.far with
      running := false, rstPend := false, sleepPend := none, injOpen := false, nonce := none
      calProc := none, migReply := none, tabThr := Vector.replicate 64 TabThr.reset } }

/-- A span of R449 that a reset ends: what the GAP entry of the boot will not state of it is gathered. -/
def gatherOpen (s : State) : State :=
  if s.onTide && !s.inGap && decide (0 < (s.gapStart - s.tb.coarseAt).toInt) then addUnc (s.gapStart - s.tb.coarseAt).toNat s else s

/-- What an L1 or L0 reset leaves: the reservoir, retained memory, NV and fuses, the board's levels and flash; everything
else takes its reset value (R356, R369). -/
def clearL1 (s : State) : State :=
  { State.reset with
    rsv := s.rsv
    nv := s.nv
    fsh := { s.fsh with dbgLock := true }
    cal := s.cal
    pad := s.pad
    padZ := s.padZ
    psn := s.psn
    tb := { Timebase.reset with
      pllLock := s.tb.pllLock, refBrc := s.tb.refBrc, disc := s.tb.disc, coarse := s.tb.coarse
      xtalFailF := s.tb.xtalFailF, pllUnlockF := s.tb.pllUnlockF, epochRun := s.tb.epochRun
      allowX := s.tb.allowX, allowT := s.tb.allowT, pairX := s.tb.pairX, pairT := s.tb.pairT
      spanX := s.tb.spanX, spanT := s.tb.spanT, srcSince := s.tb.srcSince, rootSince := s.tb.rootSince
      coarseFrom := s.tb.coarseFrom, onBrc := s.tb.onBrc, unc := (gatherOpen s).tb.unc }
    eng := s.eng.map fun (e : Engine) => { Engine.reset with bp := e.bp, wp := e.wp }
    prb := s.prb.map fun (p : Probe) => { Probe.reset with ca := p.ca, cb := p.cb, cc := p.cc, off := p.off, faulty := p.faulty }
    ps := { s.ps with pendSched := none, parkRun := false, lostN := 0 }
    rcd := { s.rcd with decom := none }
    far := { Farrier.reset with flash := s.far.flash, free := s.far.free, halted := s.far.halted, fcause := s.far.fcause }
    hlt := { Health.reset with marks := s.hlt.marks.filter fun m => m.1 == 6 }
    pwr := { Power.reset with cause := s.pwr.cause, vbat := s.pwr.vbat }
    dbg := { s.dbg with memBusy := false, walkDone := false }
    pending := s.pending }

/-- An L0 reset clears the debug logic, the clock status and the cause register besides (R356). -/
def clearL0 (s : State) : State :=
  let s := clearL1 s
  { s with
    tb := { s.tb with pllLock := false, refBrc := false, disc := false, coarse := false, xtalFailF := false, pllUnlockF := false, epochRun := 0 }
    eng := Vector.replicate 8 Engine.reset
    pwr := { s.pwr with cause := 0 }
    far := { s.far with halted := false, fcause := 0 }
    dbg := Debug.reset }

/-! ### The failed-boot record (R364, R365) -/

/-- Count a failed boot in backup register 24. -/
def countFail (s : State) : State :=
  let b := s.rsv.backup[24]
  let n := (fld b 0 4).toNat
  let first : BitVec 28 := fld b 4 28
  let now : BitVec 28 := fld s.rsv.tide 0 28
  let (n, first) := if n = 0 ∨ 32768 < (now - first).toNat then (1, now) else (min 15 (n + 1), first)
  { s with rsv := { s.rsv with backup := s.rsv.backup.set 24 (first ++ BitVec.ofNat 4 n) } }

/-- A boot is under way, or an L2 restart waits: a reset now is a failed boot (R364, R366). -/
def State.early (s : State) : Bool :=
  s.pwr.phase == .bootWait || s.pwr.phase == .bootHalt || s.pwr.restart ||
  ((s.pwr.phase == .walk || s.dbg.walkDone) && s.dbg.walkFrom != .run)

/-- The clocks do not run, so that a reset of any level leaves the power state through boot (R358). -/
def State.dark (s : State) : Bool :=
  match s.pwr.phase with
  | .sleep | .wakePll | .wakeLocked | .walk => true
  | _ => false

/-- The level at which a source is carried out now (R357, R358, R364). -/
def levelNow (s : State) (r : RstSrc) : Nat :=
  let m := mappedLevel s r
  let m := if s.pwr.phase = .bootWait ∨ s.pwr.phase = .bootHalt ∨ s.dark ∨ (s.dbg.walkDone ∧ s.dbg.walkFrom ≠ .run) then min m 1 else m
  if s.pwr.phase = .held then min m s.pwr.level.toNat else m

/-- A reset source asserts: its level's clears at once, its cause bit, and the reset is held until it is released (R355 to
R358, R363 to R365). A source has no effect in DEEP, nor while VBAT is absent. -/
def assertReset (r : RstSrc) (s : State) : State :=
  if s.pwr.phase = .deep ∨ s.rsv.deepFlag then s
  else
    let lvl := levelNow s r
    let s1 := if s.early then countFail s else s
    let again := s.pwr.phase = .held ∧ s.pwr.level.toNat = lvl
    let s2 := if again then s1 else if lvl = 0 then clearL0 s1 else if lvl = 1 then clearL1 s1 else clearL2 s1
    { s2 with pwr := { s2.pwr with cause := setBit s2.pwr.cause r.idx true, lastLevel := BitVec.ofNat 2 lvl, phase := .held
                                   level := BitVec.ofNat 2 lvl, restart := false } }

/-! ### Calibration at boot step 4 (17_health.md R394, R395) -/

/-- A signed field of the calibration area. -/
def calS (m : Mem) (a n : Nat) : Int := (BitVec.ofNat (8 * n) (memLe m a n)).toInt

/-- A field read: its value, and its offset and the value found where it is out of range or unreadable. -/
structure CalRd (w : Nat) where
  v : BitVec w
  bad : List (Nat × Nat)

/-- The word of an unreadable offset overlaps a field. -/
def calUnreadable (bad : Option W16) (a n : Nat) : Bool :=
  match bad with
  | none => false
  | some o => decide (a < 4 * (o.toNat / 4) + 4) && decide (4 * (o.toNat / 4) < a + n)

/-- Read a signed field of `w` bits with its range and nominal value. -/
def calSigned (m : Mem) (bad : Option W16) (w a : Nat) (lo hi nom : Int) : CalRd w :=
  let v := calS m a (w / 8)
  if lo ≤ v ∧ v ≤ hi ∧ !calUnreadable bad a (w / 8) then ⟨BitVec.ofInt w v, []⟩
  else ⟨BitVec.ofInt w nom, [(a, memLe m a (w / 8))]⟩

/-- Read an unsigned field; `zero` admits 0, "not written". -/
def calUnsigned (m : Mem) (bad : Option W16) (w a lo hi nom : Nat) (zero : Bool) : CalRd w :=
  let v := memLe m a (w / 8)
  if ((lo ≤ v ∧ v ≤ hi) ∨ (zero ∧ v = 0)) ∧ !calUnreadable bad a (w / 8) then ⟨BitVec.ofNat w v, []⟩
  else ⟨BitVec.ofNat w nom, [(a, v)]⟩

/-- The area as boot takes it, with the fields that took their nominal value: each that is out of range or unreadable, or
every one where CAL_FMT is not 1. -/
def calCheck (m : Mem) (bad : Option W16) : CalUse × List (Nat × Nat) :=
  if memLe m 0 2 ≠ 1 ∨ calUnreadable bad 0 2 then (CalUse.reset, [(0, memLe m 0 2)])
  else
    let tt := calSigned m bad 32 0x004 (-500000) 500000 0
    let tr := calSigned m bad 32 0x008 (-50000000) 50000000 0
    let br := calSigned m bad 32 0x00C (-30000000) 30000000 0
    let o0 := calSigned m bad 16 0x010 (-320) 1600 160
    let o1 := calSigned m bad 16 0x012 (-320) 1600 160
    let r0 := calUnsigned m bad 32 0x014 0 15000 10000 false
    let r1 := calUnsigned m bad 32 0x018 0 15000 10000 false
    let f0 := calUnsigned m bad 32 0x01C 1000000 100000000 0 true
    let f1 := calUnsigned m bad 32 0x020 1000000 100000000 0 true
    let isg : Vector (CalRd 32) 12 := Vector.ofFn fun (i : Fin 12) => calSigned m bad 32 (0x024 + 4 * i.val) (-50000) 50000 0
    let d0 := calSigned m bad 16 0x054 (-200) 200 0
    let d1 := calSigned m bad 16 0x056 (-200) 200 0
    let ct := calUnsigned m bad 8 0x058 1 255 16 false
    let tw := calUnsigned m bad 8 0x059 100 160 140 false
    let ts := calUnsigned m bad 8 0x05A 110 165 150 false
    let ts := if tw.v.toNat < ts.v.toNat ∨ ts.bad ≠ [] then ts else ⟨150, [(0x05A, ts.v.toNat)]⟩
    ({ tideTrim := tt.v, trcTrim := tr.v, brcTrim := br.v, ofs := #v[o0.v, o1.v], rOn := #v[r0.v, r1.v], rRef := #v[f0.v, f1.v]
       isg := isg.map (·.v), dtOfs := #v[d0.v, d1.v], corrThr := ct.v, tempWarn := tw.v, tempShut := ts.v },
     tt.bad ++ tr.bad ++ br.bad ++ o0.bad ++ o1.bad ++ r0.bad ++ r1.bad ++ f0.bad ++ f1.bad ++ isg.toList.flatMap (·.bad) ++
     d0.bad ++ d1.bad ++ ct.bad ++ tw.bad ++ ts.bad)

/-- The report of step 4: a HEALTH record with event 8 for each field, source 213 and REPLACE cause CAL (R395). -/
def calReport (bad : List (Nat × Nat)) (s : State) : State :=
  if bad.isEmpty then s
  else setCause 4 false (pulse 213 (forEach bad (fun f => health 0x11 (BitVec.ofNat 8 f.1) 8 false (BitVec.ofNat 32 f.2)) s))

/-- An uncorrectable NV read: HEALTH with event 2, source 212 and REPLACE cause NV (R381). -/
def nvBad (area : Fin 4) (off : W32) (s : State) : State :=
  let inj := bit s.nv.badInj area.val
  setCause 3 inj (pulse 212 (health 0x0A (BitVec.ofNat 8 area.val) 2 inj off s))

/-- The NV areas that boot reads: calibration, epoch counter, record key. -/
def nvReport (s : State) : State :=
  let one (area : Fin 4) (o : Option W16) (s : State) : State := match o with | some o => nvBad area (o.zeroExtend 32) s | none => s
  one 3 s.nv.keyBad (one 2 s.nv.epochBad (one 0 s.nv.calBad s))

/-! ### Interrupt routing at boot (15_interrupts.md R335, R346) -/

/-- EN_F and EN_H of a source under firmware 3.2. -/
def irqRoute (i : Nat) : Bool × Bool :=
  if 1 ≤ i ∧ i ≤ 140 then (false, true)
  else if 141 ≤ i ∧ i ≤ 156 then (true, true)
  else if 157 ≤ i ∧ i ≤ 172 then (false, true)
  else if 173 ≤ i ∧ i ≤ 180 then (true, false)
  else if 190 ≤ i ∧ i ≤ 197 then (true, true)
  else if i = 209 then (true, false)
  else if 200 ≤ i ∧ i ≤ 223 then (true, true)
  else if 224 ≤ i ∧ i ≤ 227 then (false, true)
  else (false, false)

/-- PRI_F of a source under firmware 3.2. -/
def irqPri (i : Nat) : BitVec 4 :=
  if i = 207 then 15
  else if 141 ≤ i ∧ i ≤ 156 then 13
  else if i = 190 ∨ i = 191 ∨ i = 193 then 12
  else if i = 195 ∨ (200 ≤ i ∧ i ≤ 206) ∨ i = 208 ∨ (210 ≤ i ∧ i ≤ 223) then 9
  else if i = 192 ∨ i = 194 ∨ i = 196 ∨ i = 197 then 8
  else if i = 209 then 6
  else if 173 ≤ i ∧ i ≤ 180 then 4
  else 0

/-- A 256-bit mask of the sources that satisfy a test. -/
def irqMask (f : Nat → Bool) : BitVec 256 := (List.range 256).foldl (fun m i => setBit m i (f i)) 0

/-- Routing, priorities and GW at boot; GATE_F opens, GATE_H as told. -/
def routeIrq (gateH : Bool) (s : State) : State :=
  { s with irq := { s.irq with
      enF := irqMask fun i => (irqRoute i).1, enH := irqMask fun i => (irqRoute i).2
      pri := Vector.ofFn fun (i : Fin 256) => irqPri i.val, gw := 2, gateF := true, gateH := gateH } }

/-! ### Patches (14_farrier_commands.md R319, R320) -/

/-- Check a patch image: its level, load address and body. -/
def patchCheck (m : Mem) : Option (W16 × Nat × List Byte) :=
  let level := memLe m 6 2
  let len := memLe m 8 4
  let load := memLe m 12 4
  let entry := memLe m 16 4
  let ok := decide (memBytes m 0 4 = [0x46, 0x50, 0x43, 0x48]) && memLe m 4 2 == 0x0302 && decide (1 ≤ level) &&
    decide (4 ≤ len) && decide (len ≤ 65536) && decide (0x40000 ≤ load) && decide (load + len ≤ 0x80000) &&
    decide (load ≤ entry) && decide (entry < load + len) && memLe m 24 4 == 0 &&
    memLe m 28 4 == (crc32 (memBytes m 0 28)).toNat
  if ok && memLe m 20 4 == (crc32 (memBytes m 32 len)).toNat then some (BitVec.ofNat 16 level, load, memBytes m 32 len) else none

/-- Start a checked patch. -/
def startPatch (p : W16 × Nat × List Byte) (s : State) : State :=
  { s with far := { s.far with patchLevel := p.1, ram := memPut s.far.ram p.2.1 p.2.2 } }

/-- The flash patch of boot step 7: none where MAGIC is absent, rejected where another check fails (R320). -/
def flashPatch (s : State) : State :=
  if memBytes s.far.flash 0 4 = [0x46, 0x50, 0x43, 0x48] then
    match patchCheck s.far.flash with
    | some p => startPatch p s
    | none => { s with far := { s.far with patchRej := true } }
  else s

/-! ### Time at boot (02_time.md R30, R31, R42, R43, R448; 11_probes.md R269) -/

/-- Counts of the present tide source in a number of seconds: 32,768 a second for the crystal, 32,000 for TRC. -/
def tideCounts (s : State) (secs : Nat) : Nat := secs * (if s.rsv.onTrc then 32000 else 32768)

/-- The moment of the source change inside the interval since the pair. -/
def State.changeDt (s : State) : W64 := s.rsv.tpDt + BitVec.ofNat 64 (pairParts s).1

/-- The TIME_SOURCE entry of a change inside the interval that a GAP entry states (R33 step 7, R449). -/
def gapSource (start : W64) (s : State) : List Entry :=
  if s.gapSplit start then [sourceEntry 2 s.changeDt true s] else []

/-- The change inside the interval is in use from its moment, and source 192 is raised (R49). -/
def noteChange (start : W64) (s : State) : State :=
  if s.gapSplit start then pulse 192 { s with tb := markSource 2 s.changeDt s.tb } else s

/-- The LOSS entry of missed park wakes falls due after the GAP (11_probes.md R269). -/
def missedWakes (s : State) : State :=
  let p := s.ps
  if p.missed = 0 || p.missedDue then s
  else
    let since := (s.rsv.tide - p.parkAlarm).toNat
    let n := since / max 1 (tideCounts s p.parkInt.toNat) + 1
    let first := s.tb.dt - BitVec.ofNat 64 (tideTicks s.rsv.onTrc (if s.rsv.onTrc then s.rsv.tpErrT else s.rsv.tpErrX) since)
    let p := { p with missed := satNat 16 n, missedFirst := first, missedMs := satInt 32 ((n - 1) * p.parkInt.toNat * 1000), missedDue := true }
    if s.writes then tryLoss parkLoss { s with ps := p } else { s with ps := { p with missed := 0, missedDue := false } }

/-- The refresh starts again: its first edge is the next edge of the tide source (R448). -/
def restartRefresh (s : State) : State := { s with tb := { s.tb with refreshOn := true, refreshAt := s.rsv.tide + 1 } }

/-- The GAP entry of a boot is the first entry after it (R34), a TIME_SOURCE of the interval and the entries that had waited
follow; the refresh starts again (R35, R448). -/
def bootGap (src : Byte) (s : State) : State :=
  let start := s.gapStart
  let l := gapEntry src start s :: gapSource start s
  restartRefresh (writeDue (missedWakes (forEach l log (noteChange start s))))

/-- The stored time cannot be trusted (R31). -/
def State.timeBad (s : State) : Bool := s.rsv.parityBad || !s.rsv.tpValid

/-- The TRC trim of a wake is computed from backup register 29 and kept in register 30 (R28). -/
def applyTrim (s : State) : State :=
  let b := s.rsv.backup
  { s with rsv := { s.rsv with backup := b.set 30 (Config.trcTrim b[29]) } }

/-- A new epoch at boot, the refresh starting with it; the entries that had waited go with the old epoch's time. -/
def bootEpoch (cause : Byte) (follow : List Entry) (s : State) : State :=
  restartRefresh (epochNow cause follow { s with rcd := { s.rcd with due := [] } })

/-- Boot step 6, time: a new epoch, or DT rebuilt and the GAP entry. -/
def bootTime (s : State) : State :=
  if s.rsv.resLost then
    let s := { s with
      rcd := { RecordQ.reset with enabled := s.nv.key.isSome && s.nv.keyBad.isNone }
      rsv := { s.rsv with backup := s.rsv.backup.set 28 s.cal.tideTrim } }
    let s := bootEpoch 1 [] s
    { s with rsv := { s.rsv with resLost := false } }
  else
    let s := { s with rcd := { s.rcd with enabled := s.rcd.enabled && s.nv.keyBad.isNone }, tb := { s.tb with epochRun := s.nv.epoch } }
    match s.rcd.epochPend with
    | some (c, l) =>
      let s := bootEpoch c l { s with tb := { s.tb with epochRun := s.rcd.epoch }, rcd := { s.rcd with epochPend := none } }
      { s with rcd := { s.rcd with epochMb := none } }
    | none =>
      if s.timeBad then
        let s := bootEpoch 2 [] { s with ps := { s.ps with base := 0 } }
        { s with rsv := { s.rsv with parityBad := false } }
      else bootGap (if s.pwr.wakeBoot then 2 else 3) { s with tb := { s.tb with dt := rebuiltDt s, frac := 0 } }

/-! ### Boot (R362 to R365) -/

/-- Retirement marks restored (05_ostler.md R106). -/
def restoreMarks (s : State) : State :=
  { s with units := Vector.ofFn fun (u : Fin 68) => if bit s.rsv.unitMarks u.val then { s.units[u] with ust := .retired } else s.units[u]
           conv := Vector.ofFn fun (c : Fin 2) => { s.conv[c] with failed := bit s.rsv.convMarks c.val }
           eng := Vector.ofFn fun (e : Fin 8) => { s.eng[e] with retired := bit s.rsv.engMarks e.val } }

/-- Every interpolator has measured TAPS (17_health.md R385; the values are free). -/
def bootTapsAll (s : State) : State :=
  { s with units := Vector.ofFn fun (u : Fin 68) =>
      { s.units[u] with hl := { s.units[u].hl with taps := BitVec.ofNat 6 (24 + Config.bootTaps (68 * s.far.free + u.val) % 40) } }
           far := { s.far with free := s.far.free + 1 } }

/-- A unit is free to take a channel. -/
def State.hasSpare (s : State) : Bool := (idxs 68).any fun u => s.units[u].ust == .free

/-- The REPLACE causes that still hold at boot step 6 (17_health.md R390). -/
def bootCauses (s : State) : State :=
  let s := if s.hasSpare then s else setCause 0 false s
  let s := if s.rsv.engMarks = 0 then s else setCause 1 false s
  let s := if s.rsv.convMarks = 0 then s else setCause 7 false s
  let s := if s.pwr.limp then setCause 5 false s else s
  if s.nv.epoch = 0xFFFF then setCause 6 false s else s

/-- The park wake of a wake: the tide alarm is the only latch set (15_interrupts.md R351). -/
def State.parkWake (s : State) : Bool := s.ps.parkInt != 0 && s.rsv.wk == 2

/-- The park wake of a boot: only a boot from DEEP is a wake, so that a reset ends the park cycle (11_probes.md R268). -/
def State.parkBoot (s : State) : Bool := s.pwr.wakeBoot && s.parkWake

/-- The latches decide what a wake with a park interval is: a park wake keeps GATE_H closed and runs the schedule once;
any other ends the park cycle and opens GATE_H (R351, 11_probes.md R268). -/
def wakeLogic (park : Bool) (s : State) : State :=
  if park then
    parkReturn (startRun { s with rsv := { s.rsv with wk := 0 }, ps := { s.ps with parkRun := true } })
  else { s with irq := { s.irq with gateH := true }, ps := { s.ps with parkInt := 0, parkCfg := 0 } }

/-- The Farrier resumes after a wake: the entries it owes, the refresh, TRC's trim, the arms and what the latches ask for (steps 6
and 7 of the wake ladder; 15_interrupts.md R350). -/
def finishWake (s : State) : State :=
  if s.tb.gapDue.isEmpty then s
  else
    let s := forEach s.tb.gapDue log { s with tb := { s.tb with gapDue := [] } }
    let s := applyTrim (restartRefresh (writeDue s))
    wakeLogic s.parkWake { s with rsv := { s.rsv with arm := 0 } }

/-- Boot step 8 complete: one muster, BOOT clears, and the arms of a boot from DEEP clear (R362, R365; 15 R350). -/
def completeBoot (s : State) : State :=
  let s := muster s
  let s := { s with
    pwr := { s.pwr with phase := .run, bootStep := 8, clkSrc190 := false }
    tb := { s.tb with xtalFailF := s.tb.xtalFailF || s.pwr.clkSrc190 }
    rsv := { s.rsv with arm := 0, backup := s.rsv.backup.set 24 0 }
    far := { s.far with running := true } }
  if s.pwr.limp then s else wakeLogic s.parkBoot s

/-- The Farrier does not run on from a reset: with HALT_ON_RST it halts at its first instruction, and a halt that stood
before the reset stands on, since F_HALTED and F_CAUSE clear at L0 only (18_debug.md R408, R414, R418). -/
def State.haltsOnReset (s : State) : Bool := s.dbg.haltOnRst || s.far.halted

/-- Halt at the first instruction after a reset. -/
def resetHalt (s : State) : State :=
  stopWdt { s with far := { s.far with halted := true, fcause := if s.dbg.haltOnRst then 5 else s.far.fcause } }

/-- Boot step 8; a halt comes before its muster (18_debug.md R414). -/
def finishBoot (s : State) : State :=
  if s.haltsOnReset then resetHalt { s with pwr := { s.pwr with phase := .bootHalt, bootStep := 7 } } else completeBoot s

/-- Boot step 2 (R362), at a TIDE edge with a tide count; `xtalOk` is its check. -/
def bootStep2 (tide : TideCnt) (xtalOk : Bool) (s : State) : State :=
  let s := checkAlarm (tideTo tide s)
  let limp := decide (8 ≤ (fld s.rsv.backup[24] 0 4).toNat)
  { s with
    tb := { s.tb with pllLock := true, refBrc := !xtalOk, disc := !xtalOk, coarse := !xtalOk }
    rsv := { s.rsv with deepFlag := false, backup := if limp then s.rsv.backup.set 24 0 else s.rsv.backup }
    pwr := { s.pwr with clkSrc190 := !xtalOk, limp := limp, phase := .bootWait } }

/-- Boot steps 3 to 5: fuses, calibration, the interpolators. -/
def bootStep5 (s : State) : State :=
  let cal := (calCheck s.nv.cal s.nv.calBad).1
  bootTapsAll { s with
    fsh := { map := s.nv.fuseMap, mapLock := s.nv.mapLock, bootSrc := s.nv.bootSrc, dbgLock := s.nv.dbgLock }
    cal := cal
    conv := Vector.ofFn fun (c : Fin 2) => { s.conv[c] with ofs := cal.ofs[c] } }

/-- The root source after boot: BRC disciplined, or XTAL again after BRC (R47). -/
def bootRoot (s : State) : State :=
  if s.tb.refBrc then
    let s := { beginSpan s with tb := { (beginSpan s).tb with coarseFrom := s.tb.dt } }
    let s1 := log (sourceEntry 4 s.tb.dt false s) s
    { s1 with tb := { markSource 4 s.tb.dt s1.tb with unc := 0 } }
  else if s.tb.onBrc then
    let s1 := log (sourceEntry 3 s.tb.dt false s) s
    { s1 with tb := { markSource 3 s.tb.dt s1.tb with unc := 0 } }
  else s

/-- Boot step 6, with the calibration fields that step 4 found bad. -/
def bootStep6 (calBad : List (Nat × Nat)) (s : State) : State :=
  let s := routeIrq (!s.pwr.limp && !s.parkBoot && s.ps.parkInt == 0) s
  let s := openBasin 63 4 16 0 1 0 (openBasin 62 2 8 1 0 0 s)
  let s := if s.pwr.wakeBoot then applyTrim s else s
  let s := restoreMarks (bootTime (nvReport s))
  let s := match s.ps.sched with | some k => applySched k s | none => s
  let s := calReport calBad s
  let s := bootCauses { s with far := { s.far with wdtAt := s.tb.dt, wdtStop := none } }
  bootRoot s

/-- Boot steps 7 and 8: in limp mode no patch is taken; with BOOT_SRC the host's is waited for. -/
def bootStep7 (s : State) : State :=
  let s := { s with pwr := { s.pwr with bootStep := 7 } }
  if s.pwr.limp then finishBoot s
  else if s.fsh.bootSrc then s
  else finishBoot (flashPatch s)

/-- Boot steps 2 to 8 (R362). -/
def boot (tide : TideCnt) (xtalOk : Bool) (s : State) : State :=
  let s := bootStep2 tide xtalOk s
  bootStep7 (bootStep6 (calCheck s.nv.cal s.nv.calBad).2 (bootStep5 s))

/-! ### The L2 restart (R366, R134, R299) -/

/-- Place every thread of an open program again under its former TID; each starts at its RESTART entry. -/
def replaceThreads (p : ProgId) (s : State) : State :=
  if !s.prog[p].open_ then s
  else forEach s.prog[p].tab (fun e s =>
    let tid : Tid := bvFin 64 rfl e.tid
    match placeThread p e tid s with
    | some s => startThread tid e.restart s
    | none => s) s

/-- Requests that the Farrier had taken are answered with ABORTED (R299). -/
def abortTaken (s : State) : State :=
  forEach ((idxs 8).filter fun m => bit s.host.reqBusy m.val && bit s.host.taken m.val)
    (fun m s => writeReply m (memGet s.host.mb (0x1000 + 0x100 * m.val)) (memGet s.host.mb (0x1001 + 0x100 * m.val)) 7 [] s) s

/-- Steps 2 to 5 of the L2 restart. -/
def completeRestart (s : State) : State :=
  let s := muster { s with pwr := { s.pwr with restart := false } }
  let s := forEach (idxs 16) replaceThreads s
  let s := forEach (idxs 16) motionRestart s
  let s := abortTaken { s with rcd := { s.rcd with epochMb := none } }
  finishWake (storeMeans { s with far := { s.far with running := true, wdtAt := s.tb.dt, wdtStop := none } })

/-- The L2 restart; a halt comes before its step 2 (R366, 18_debug.md R414). -/
def restart (s : State) : State :=
  let s := countLate { s with pwr := { s.pwr with phase := .run } }
  let s := if s.dbg.walkDone then restartRefresh { s with dbg := { s.dbg with walkDone := false } } else s
  if s.haltsOnReset then resetHalt { s with pwr := { s.pwr with restart := true } } else completeRestart s

end Sys2Proof.Machine
end

