-- ==== Sys2Proof/Machine/Timebase.lean ====
section
/-! DEFINITION. The timebase and the tide: the ROOT edge, spread, tide errors, the tide pair and alarm, source changes,
clock failures and discipline (02_time.md), and the edge of the tide source while DT runs coarsely (04_channels.md R98). -/

namespace Sys2Proof.Machine

/-! ### The ROOT edge (R23, R24, R47) -/

/-- The accumulator in units of 2^-32 tick. -/
def Timebase.acc (b : Timebase) : BitVec 96 := b.dt ++ b.frac

/-- Set the accumulator. -/
def Timebase.setAcc (b : Timebase) (v : BitVec 96) : Timebase := { b with dt := fld v 32 64, frac := fld v 0 32 }

/-- The accumulator at the modulation step 0 that SSC_STEP counts from. -/
def Timebase.origin (b : Timebase) : BitVec 96 := b.sscOrigin ++ b.sscFrac

/-- Position in the modulation cycle, in units of 2^-32 tick. -/
def Timebase.cyclePos (b : Timebase) : Nat := (b.acc - b.origin).toNat % (51200 * 2 ^ 32)

/-- Modulation step, 0 to 799: XTAL periods since a step 0. -/
def Timebase.sscStep (b : Timebase) : Nat := b.cyclePos / 2 ^ 32 / 64

/-- N at a step in units of 0.0008 ROOT cycles: 80,000 at step 0, falling 1 or 2 a step to step 400 and rising again. -/
def sscN (ssc : BitVec 2) (step : Nat) : Nat := 80000 - ssc.toNat * min step (800 - step)

/-- The per-cycle increment 64 / N in units of 2^-32 tick; how its last bit is rounded is open. -/
def sscInc (n : Nat) : Nat := 80000 * 2 ^ 32 / n + (if 80000 * 2 ^ 32 % n ≠ 0 ∧ Config.incRoundsUp n then 1 else 0)

/-- A spread setting that waits takes effect (R23). -/
def Timebase.takeSpread (b : Timebase) : Timebase :=
  match b.sscPend with | some v => { b with ssc := v, sscPend := none } | none => b

/-- ROOT cycles from step 0 to the start of a step, in units of 0.0008 ("Worked through", one modulation cycle). -/
def sscSum (ssc : BitVec 2) (step : Nat) : Nat :=
  let fallen := if step ≤ 400 then step * (step - 1) / 2 else 160000 - (800 - step) * (801 - step) / 2
  80000 * step - ssc.toNat * fallen

/-- ROOT edges that fall in the XTAL period of a step: whole cycles of the running sum. -/
def sscEdges (ssc : BitVec 2) (step : Nat) : Nat := sscSum ssc (step + 1) / 1250 - sscSum ssc step / 1250

/-- Place of the first ROOT edge after a place in an XTAL period: an edge every 64 / N ticks, and the last at the end of the
64 ticks, so that it adds the remainder (R24). -/
def rootPlace (ssc : BitVec 2) (step o : Nat) : Nat :=
  let inc := sscInc (sscN ssc step)
  let j := o / inc + 1
  if j < sscEdges ssc step then min (j * inc) (64 * 2 ^ 32) else 64 * 2 ^ 32

/-- The accumulator at the next ROOT edge on XTAL. -/
def Timebase.nextEdge (b : Timebase) : Timebase :=
  let o := b.cyclePos % (64 * 2 ^ 32)
  b.setAcc (b.acc + BitVec.ofNat 96 (rootPlace b.ssc b.sscStep o - o))

/-- One ROOT edge on XTAL (R24). DT moves at every edge: where the instant told last lies between two edges, so that the next
place gives no new tick, the edge is the one after it. A spread setting that waits takes effect where the edge is a modulation
step 0 (R23). -/
def Timebase.xtalEdge (b : Timebase) : Timebase :=
  let b1 := b.nextEdge
  let b2 := if b1.dt = b.dt then b1.nextEdge else b1
  if b2.cyclePos = 0 then b2.takeSpread else b2

/-- The passing of one ROOT edge: what the block does while no command waits (log entry 8). -/
def rootEdge (s : State) : State :=
  if !s.rootRuns then s
  else if s.tb.refBrc then { s with tb := s.tb.setAcc (s.tb.acc + s.tb.discInc.zeroExtend 96) }
  else { s with tb := s.tb.xtalEdge }

/-- DT of the step 0 at which the present modulation cycle began. -/
def Timebase.cycleStart (b : Timebase) : W64 := fld (b.acc - BitVec.ofNat 96 b.cyclePos) 32 64

/-- SPREAD_TAKES_EFFECT (R23): at the first modulation step 0 after the setting was written. DESIGN CHOICE (log entry 40): a
setting written while the reference is BRC waits until XTAL is the reference again. -/
def execSpreadTakesEffect (t : Instant) (s : State) : Out :=
  event t (fun s => s.rootRuns && !s.tb.refBrc && s.tb.sscPend.isSome && s.tb.sscStep == 0 && !(s.tb.cycleStart < s.tb.sscAt))
    (fun s => { s with tb := s.tb.takeSpread }) s

/-! ### The edge of the tide source while DT runs coarsely (R32, 04_channels.md R98) -/

/-- Ticks of one tide period in units of 2^-32 (R30); its last bit is open. -/
def coarseInc (s : State) : Nat :=
  let e := if s.rsv.onTrc then s.rsv.tpErrT else s.rsv.tpErrX
  let num : Int := (if s.rsv.onTrc then 400000 else 390625) * (1000000000 + e.toInt)
  openDiv (num.toNat * 2 ^ 32) 8000000000

/-- What is due of a sleep-run unit at a tide edge, with its time and its order at one time: P, A, B (R86). -/
def coarseEvents (c : ChanUnit) (now : EvTime) : List (EvTime × Nat × UnitEv) :=
  let due (t : EvTime) (r : Nat) (e : UnitEv) : List (EvTime × Nat × UnitEv) := if passed now t then [(t, r, e)] else []
  if c.mode = 0#2 then
    (if c.armA then due (c.fireAt false) 1 (.free false) else []) ++ (if c.armB then due (c.fireAt true) 2 (.free true) else [])
  else
    let loc (b down : Bool) (r : Nat) : List (EvTime × Nat × UnitEv) :=
      match c.localTime b down with
      | some x => if 0 < evDiff x (c.done b) then due x r (.local_ b down) else []
      | none => []
    due c.passEnd 0 .boundary ++ loc false false 1 ++ loc false true 1 ++ loc true false 2 ++ loc true true 2 ++
    (if c.mode = 3#2 && !c.dir then due (c.porg + BitVec.ofNat 48 (8 * c.prdRun.toNat)) 3 .top else [])

/-- One event of a unit at a tide edge: actions and notifies have the time of the edge, and the edge makes one transition for
them all (R86, R98). A free-mode compare whose time was passed as it became effective fires late. -/
def coarseApply (u : UnitId) (e : UnitEv) (s : State) : State :=
  let c := s.units[u]
  let now := s.nowEv
  match e with
  | .boundary => boundary u s
  | .top => topPoint u s
  | .early => s
  | .free b =>
    let fire := c.fireAt b
    let late := !c.eff b && passed (c.effT b) fire
    matchAt u b (c.freeAct b) fire now (now >>> 3) true late (s.modUnit u fun c => c.unarm b)
  | .local_ b down =>
    let x := (c.localTime b down).getD c.porg
    matchAt u b (c.localAct b down) x now (now >>> 3) true false (s.modUnit u fun c => c.setDone b x)

/-- The matches, boundaries and update points of a unit since the last edge, in time order; at most `n` of them. -/
def coarseRun (u : UnitId) : Nat → State → State
  | 0, s => s
  | n + 1, s =>
    match firstEvent (coarseEvents s.units[u] s.nowEv) with
    | none => s
    | some e => coarseRun u n (coarseApply u e s)

/-- The input of a unit sampled at a tide edge: with FILT nonzero a new level needs two equal samples, and the capture
holds the first of them (R98). -/
def coarseSample (u : UnitId) (s : State) : State :=
  let c := s.units[u]
  let raw := inputLevel s u c.insel s.now
  let lv := raw ^^ bit c.ctrl 12
  let trim : BitVec 48 := (if lv then c.ctrimRise else c.ctrimFall).signExtend 48
  let put : InCand := { level := lv, stamp := s.nowEv + trim, coarse := true }
  let s := s.modUnit u fun c => { c with cap := { c.cap with raw := raw } }
  if lv = c.cap.inn then (if c.cap.cand.isSome then s.modUnit u fun c => c.reject else s)
  else if c.filt = 0 then acceptEdge u (s.modUnit u fun c => { c with cap := { c.cap with cand := some put } })
  else if c.cap.cand.isSome then acceptEdge u s
  else s.modUnit u fun c => { c with cap := { c.cap with cand := some put } }

/-- A sleep-run unit at a tide edge. A pass shorter than a tide period may hold some 25,000 boundaries and matches. -/
def coarseUnit (u : UnitId) (s : State) : State :=
  let c := s.units[u]
  if !(c.held && c.sleepRun && !gateLine s c.lchId && unitRuns s u) then s
  else
    let s := if c.en then settleOutput u (coarseRun u 100000 s) else s
    let s := s.modUnit u fun c => { c with effA := true, effB := true }
    coarseSample u s

/-- DT advances on the tide source: in SLEEP, in walk mode and in a wake, and in RUN while the PLL relocks (R32, R46 to R48). -/
def State.coarseRuns (s : State) : Bool :=
  s.tb.coarse && s.pwr.phase != .deep && !(s.pwr.phase == .held && s.pwr.level != 2#2)

/-- `k` periods of the tide source pass while DT runs coarsely: DT, the tide count, the alarm and the sleep-run channels. -/
def coarseEdges (k : Nat) (s : State) : State :=
  let s := { s with tb := s.tb.setAcc (s.tb.acc + BitVec.ofNat 96 (k * coarseInc s)), rsv := { s.rsv with tide := s.rsv.tide + BitVec.ofNat 48 k } }
  checkAlarm (forEach (idxs 68) coarseUnit s)

/-- Time passes to the edge of the tide source with a count, never back: where DT runs coarsely it takes the increments of the
edges between (R32). -/
def tidePass (k : TideCnt) (s : State) : State :=
  if s.coarseRuns && passed k s.rsv.tide && k != s.rsv.tide then coarseEdges (k - s.rsv.tide).toNat s else tideTo k s

/-- TIDE_ALARM (R40). -/
def execTideAlarm (t : Instant) (tide : TideCnt) (s : State) : Out := .next (checkAlarm (tidePass tide (advanceTo t s)))

/-! ### The alarm registers -/

/-- A write of TALARM_LO or TALARM_HI (R40, R50). -/
def writeTalarm (hi : Bool) (v : W32) (s : State) : State :=
  let r := s.rsv
  let r := if hi then { r with talarm := fld v 0 16 ++ fld r.talarm 0 32, talarmEn := bit v 16 }
           else { r with talarm := fld r.talarm 32 16 ++ v }
  checkAlarm { s with rsv := r }

/-- TALARM_WRITE (R40, R50): the high word carries TALARM_EN in bit 16. -/
def execTalarmWrite (hi : Bool) (v : W32) (s : State) : Out := .next (writeTalarm hi v s)

/-! ### The tide source (R38, R39, R49, R449) -/

/-- The advance of 4 counts of the detection window, on TRC: coarse DT takes the 4 TRC periods, and a refresh that the advance
steps over falls at its end (R38, R448). -/
def trcWindow (s : State) : State :=
  let due := s.tb.refreshOn && decide ((s.tb.refreshAt - s.rsv.tide - 1).toNat < 4)
  let s := if s.coarseRuns then coarseEdges 4 s else checkAlarm { s with rsv := { s.rsv with tide := s.rsv.tide + 4 } }
  if due then { s with tb := { s.tb with refreshAt := s.rsv.tide } } else s

/-- The tide counter changes to TRC (R38). Without TRC nothing counts on, and the stored time becomes invalid. In RUN source
192 is raised and the change is written; asleep it is left to the wake (R449). -/
def crystalStop (s : State) : State :=
  let s := { s with tb := { s.tb with xtalGood := false } }
  if s.rsv.onTrc then s
  else if s.rsv.trcFail then { s with rsv := { s.rsv with tideFail := true, tpValid := false } }
  else
    let s := if s.onTide && !s.inGap then closeSpan s else s
    let r := s.rsv
    let s := trcWindow { s with rsv := { r with chgTide := r.tide, chgValid := true, onTrc := true, tideFail := true } }
    if s.inGap then s else timeSource 2 s.tb.dt (pulse 192 s)

/-- TIDE_CRYSTAL_STOP (R38). -/
def execTideCrystalStop (t : Instant) (tide : TideCnt) (s : State) : Out := .next (crystalStop (tidePass tide (advanceTo t s)))

/-- A measurement of the crystal: rejected outside ±500 ppm, and after 8 rejections in a row the crystal has failed (R29). -/
def crystalMeasured (e : Int) (s : State) : State :=
  let m := satInt 32 e
  if e < -500000 ∨ 500000 < e then
    let s := { s with tb := { s.tb with terrMeas := m, terrRange := true, terrRej := satInc s.tb.terrRej, rejRun := satInc s.tb.rejRun
                                        xtalGood := false } }
    if 8 ≤ s.tb.rejRun.toNat then crystalStop s else s
  else { s with tb := { s.tb with terrMeas := m, terrRej := 0, rejRun := 0, xtalGood := true
                                  terrHist := (m :: s.tb.terrHist).take 8 } }

/-- The tide source is measured against DT: in RUN, and on through an L2 reset (R27, R41). -/
def State.measures (s : State) : Bool :=
  match s.pwr.phase with
  | .run | .sleepEntry => true
  | .held => s.pwr.level == 2#2
  | _ => false

/-- TIDE_ERROR_MEASUREMENT (R27, R29). While the Farrier does not run the measurements stay in hardware. -/
def execTideErrorMeasurement (t : Instant) (trc : Bool) (dtTicks : W64) (s : State) : Out :=
  event t State.measures
    (fun s =>
      let e := tideError trc dtTicks
      let s := if trc then { s with tb := { s.tb with trcMeas := satInt 32 e, trcHist := (satInt 32 e :: s.tb.trcHist).take 8 } }
               else crystalMeasured e s
      if s.farrierWrites then storeMeans s else s) s

/-- TIDE_PAIR_REFRESH (R448): at the edges of the refresh grid, which began with the first edge after the GAP entry; the next
falls 32,768 tide periods later. -/
def execTidePairRefresh (t : Instant) (tide : TideCnt) (s : State) : Out :=
  let s1 := tidePass tide (advanceTo t s)
  .next (
    if s1.tb.refreshOn && s1.rsv.tide == s1.tb.refreshAt then
      latchPair false { s1 with tb := { s1.tb with refreshAt := s1.tb.refreshAt + 32768 } }
    else s)

/-- TIDE_RETURN_TO_CRYSTAL (R39): the Farrier returns the counter once the crystal has been measured inside ±500 ppm. -/
def execTideReturnToCrystal (t : Instant) (tide : TideCnt) (s : State) : Out :=
  event t (fun s => s.farrierWrites && s.pwr.phase == .run && s.rsv.onTrc && s.tb.xtalGood && !s.clkHeld 2)
    (fun s =>
      let s := tidePass tide s
      let s := if s.onTide then closeSpan s else s
      timeSource 1 s.tb.dt (pulse 192 { s with rsv := { s.rsv with onTrc := false } })) s

/-- TRC_FAIL (R49): source 193 follows the flag; without the crystal too, the stored time becomes invalid. -/
def execTrcFail (t : Instant) (s : State) : Out :=
  let s := advanceTo t s
  .next { s with rsv := { s.rsv with trcFail := true, tpValid := s.rsv.tpValid && !s.rsv.onTrc } }

/-! ### Clock failure (R46 to R48, 16_reset_power.md R364) -/

/-- The PLL has lost its clock: DT advances coarsely from here, and a wake that had the lock waits for it again. -/
def startCoarse (s : State) : State :=
  let s1 := if s.onTide then s else { beginSpan s with tb := { (beginSpan s).tb with coarseFrom := s.tb.dt } }
  { s1 with tb := { s1.tb with pllLock := false, coarse := true }
            pwr := { s1.pwr with phase := if s1.pwr.phase = .wakeLocked then .wakePll else s1.pwr.phase } }

/-- The CLK reset source: not before boot step 8 (16_reset_power.md R364), and never for walk mode (18_debug.md R413). -/
def raiseClk (s : State) : State :=
  if s.pwr.phase = .bootWait ∨ s.pwr.phase = .bootHalt ∨ s.dbg.walkDone then s else assertReset .clk s

/-- XTAL has failed: the reference is BRC and spread is off; source 190 and CLK are raised. Before boot step 8 source 190 waits
for that step and no CLK is raised (R46, R364). -/
def xtalLost (s : State) : State :=
  let s := startCoarse s
  let s := { s with tb := { s.tb with refBrc := true, disc := false, ssc := 0, sscPend := none } }
  if s.pwr.phase = .bootWait ∨ s.pwr.phase = .bootHalt then { s with pwr := { s.pwr with clkSrc190 := true } }
  else raiseClk { s with tb := { s.tb with xtalFailF := true } }

/-- The phases in which the XTAL and PLL monitors act: while the PLL runs or locks, in RUN, in boot and in the wake ladder. -/
def State.clocked (s : State) : Bool :=
  match s.pwr.phase with
  | .run | .sleepEntry | .bootWait | .bootHalt | .wakePll | .wakeLocked | .wakeReseeded => true
  | .held => s.pwr.level == 2#2
  | _ => false

/-- XTAL_FAIL (R46). -/
def execXtalFail (t : Instant) (s : State) : Out := event t (fun s => s.clocked && !s.tb.refBrc) xtalLost s

/-- Before the reseed of a wake the PLL's lock is told by WAKE_PLL_LOCK, and DT is still coarse for the wake's own reasons. -/
def State.preReseed (s : State) : Bool := s.pwr.phase == .wakePll || s.pwr.phase == .wakeLocked

/-- PLL_RELOCKED (R46 to R48): on XTAL, DT counts on ROOT again; on BRC it goes on coarsely until the first window. -/
def execPllRelocked (t : Instant) (tide : TideCnt) (s : State) : Out :=
  .next (
    if s.clocked && !s.preReseed && !s.tb.pllLock && !s.clkHeld 1 then
      let s := closeSpan (tidePass tide s)
      let s := { s with tb := { s.tb with pllLock := true } }
      if s.tb.refBrc then timeSource 4 s.tb.dt { s with tb := { s.tb with disc := true } }
      else timeSource 5 s.tb.dt (advanceTo t { s with tb := { s.tb with coarse := false } })
    else s)

/-- DISCIPLINE_WINDOW (R47): 4,096 tide periods in which `m` ROOT cycles were counted. -/
def execDisciplineWindow (t : Instant) (m : W32) (s : State) : Out :=
  .next (
    if s.clocked && s.tb.refBrc && s.tb.pllLock && !s.preReseed && m != 0 then
      let ticks := tideTicks s.rsv.onTrc (if s.rsv.onTrc then s.rsv.tpErrT else s.rsv.tpErrX) 4096
      advanceTo t { s with tb := { s.tb with coarse := false, disc := true, discInc := satNat 64 (openDiv (ticks * 2 ^ 32) m.toNat) } }
    else s)

/-- XTAL_RESTORE (R47): the reference returns to XTAL, and the PLL relocks on it. -/
def execXtalRestore (t : Instant) (s : State) : Out :=
  event t (fun s => s.clocked && !s.preReseed && s.tb.refBrc && !s.clkHeld 0)
    (fun s =>
      let s := timeSource 3 s.tb.dt (closeSpan s)
      { s with tb := { s.tb with refBrc := false, disc := false, pllLock := false, coarse := true, coarseFrom := s.tb.dt } }) s

/-- PLL_UNLOCK (R48), XTAL healthy; before boot step 8 the PLL takes BRC (R364). In the wake ladder the lock is waited for
again; walk mode never raises source 191 (18_debug.md R413). -/
def execPllUnlock (t : Instant) (s : State) : Out :=
  event t (fun s => s.clocked && s.tb.pllLock && !s.tb.refBrc)
    (fun s =>
      if s.pwr.phase = .bootWait ∨ s.pwr.phase = .bootHalt then xtalLost s
      else
        let s := startCoarse s
        { s with tb := { s.tb with pllUnlockF := s.tb.pllUnlockF || !s.dbg.walkDone } }) s

/-- PLL_UNLOCK_TIMEOUT (R48). -/
def execPllUnlockTimeout (t : Instant) (s : State) : Out :=
  event t (fun s => s.clocked && !s.preReseed && !s.tb.pllLock && !s.tb.refBrc) raiseClk s

/-! ### COARSE_TIDE_EDGE (R32, 04_channels.md R98) -/

/-- COARSE_TIDE_EDGE (R32, R98): the pads as the board drives them at the edge, and those it does not drive. In DEEP, and while the device is held in an
L1 or L0 reset, DT does not run and only the tide counts. -/
def execCoarseTideEdge (pads padZ : BitVec 40) (s : State) : Out :=
  .next (if s.coarseRuns then coarseEdges 1 { s with pad := pads &&& ~~~padZ, padZ := padZ }
    else if s.pwr.phase = .deep ∨ s.pwr.phase = .held then checkAlarm { s with rsv := { s.rsv with tide := s.rsv.tide + 1 } } else s)

end Sys2Proof.Machine
end

