-- ==== Sys2Proof/Machine/Power.lean ====
section
/-! DEFINITION. Epoch zero, sleep entry and wake, reset sources, supplies (02_time.md R33, R43; 15_interrupts.md R349 to R351;
16_reset_power.md R355 to R373; 17_health.md R382). -/

namespace Sys2Proof.Machine

/-! ### Epochs -/

/-- The payload and the status of the reply that waited for the epoch: NEW_EPOCH the epoch, REC_PROVISION the key check value,
any other the SEQ of its entry, which follows the start (12_sealed_record.md R277). -/
def epochReply (cmd : Byte) (s : State) : Byte × List Byte :=
  if cmd = 0x14 then (0, leBytes 2 s.tb.epochRun.toNat)
  else if cmd = 0x83 then (0, leBytes 4 (keyCheck (s.nv.key.getD []) s.nv.serial).toNat)
  else
    let e := s.rcd.q.reverse.find? fun e => e.kind == 4 || e.kind == 7 || e.kind == 8 || (e.kind == 0x0B && e.source == 1)
    match e with
    | none => (0x10, leBytes 4 0xFFFFFFFF ++ (if cmd = 0x12 then leBytes 8 s.tb.dt.toNat else []))
    | some e => (0, leBytes 4 e.seq.toNat ++ (if cmd = 0x12 then leBytes 8 e.dt.toNat else []))

/-- EPOCH_ZERO (02_time.md R43), with the reply of the command that asked for the epoch; while the Farrier, which starts it, does
not run the edge passes without it. -/
def execEpochZero (s : State) : Out :=
  .next (
    if s.rcd.epochPend.isNone || !s.farrierWrites then s
    else
      let s1 := epochZero s
      match s1.rcd.epochMb with
      | none => s1
      | some (mb, tag, cmd) =>
        let (st, pay) := epochReply cmd s1
        writeReply (bvFin 8 rfl mb) cmd tag st pay { s1 with rcd := { s1.rcd with epochMb := none } })

/-! ### Sleep entry (02_time.md R33, 16_reset_power.md R371) -/

/-- SLEEP_ENTRY_BEGIN (R371, 13_host_link.md R302). -/
def execSleepEntryBegin (csnHigh : Bool) (s : State) : Out :=
  .next (
    if s.pwr.phase == .run && s.far.sleepPend.isSome && csnHigh && s.host.reqBusy == 0 && !s.probing && !s.far.halted then
      { s with pwr := { s.pwr with phase := .sleepEntry }, rsv := { s.rsv with arm := s.ps.parkMask } }
    else s)

/-- The park alarm: PARK_INT after this entry, or after the previous alarm (11_probes.md R268). -/
def armPark (s : State) : State :=
  if s.ps.parkInt = 0 then s
  else
    let at_ : TideCnt := (if s.ps.parkRun then s.ps.parkAlarm else s.rsv.tide) + BitVec.ofNat 48 (tideCounts s s.ps.parkInt.toNat)
    { s with ps := { s.ps with parkAlarm := at_, parkRun := false }, rsv := { s.rsv with talarm := at_, talarmEn := true } }

/-- SLEEP_TIDE_LATCH (02_time.md R33): the pair with TP_SLEEP; the refresh stops; SLEEP goes on coarsely, and for DEEP the
core loses power. -/
def execSleepTideLatch (t : Instant) (tide : TideCnt) (s : State) : Out :=
  event t (fun s => s.pwr.phase == .sleepEntry)
    (fun s =>
      let deep := s.far.sleepPend == some 2
      let s := tidePass tide s
      let s := stopWdt (armPark (latchPair true (if s.onTide then closeSpan s else s)))
      let s := { s with ps := { s.ps with parkDeep := deep }, far := { s.far with sleepPend := none } }
      let s := if deep then
          let s := clearL0 s
          { s with pwr := { s.pwr with phase := .deep }, rsv := { s.rsv with deepFlag := true } }
        else
          { s with
            pwr := { s.pwr with phase := .sleep }
            tb := { s.tb with coarse := true, pllLock := false, refreshOn := false }
            link := { s.link with hg := 0, lg := 0, deadOn := 0, cpRun := false, cpReady := false } }
      checkAlarm s) s

/-! ### Wake latches and the wake ladder -/

/-- An edge that the latch of an input takes: WAKE rises, VBAT returns, a TIO as TIO_EDGE selects (15_interrupts.md R349,
R354). The tide alarm has its own command. -/
def edgeTaken (s : State) (which : Fin 11) (rise : Bool) : Bool :=
  if which.val = 0 then rise
  else if which.val = 1 then false
  else if which.val = 2 then rise
  else bit s.rsv.tioEdge (2 * (which.val - 3) + (if rise then 0 else 1))

/-- WAKE_LATCH_SET (15_interrupts.md R349, 02_time.md R33): the pins among its inputs can be cut (18_debug.md R404). -/
def execWakeLatchSet (which : Fin 11) (rise : Bool) (s : State) : Out :=
  .next (if edgeTaken s which rise && !(s.pinsCut && which.val != 2) then setLatch which.val s else s)

/-- WAKE_PLL_LOCK: step 3 of the wake ladder. -/
def execWakePllLock (s : State) : Out :=
  .next (if s.pwr.phase = .wakePll && !s.clkHeld 1 then
    { s with pwr := { s.pwr with phase := .wakeLocked }, tb := { s.tb with pllLock := true } } else s)

/-- Passes that ended unseen are skipped: PORG moves on to the pass that now runs, and what they crossed makes no match
(04_channels.md R99; 17_health.md R387). -/
def ChanUnit.skipPasses (c : ChanUnit) (now : EvTime) : ChanUnit :=
  if c.mode = 0#2 || !c.en then c
  else
    let len := 8 * max 1 c.passCounts
    let n := (now - c.porg).toNat / len
    { c with porg := c.porg + BitVec.ofNat 48 (n * len), dir := (c.position now).2, doneA := now - 1, doneB := now - 1 }

/-- The end of walk mode for a channel that did not run in it (04_channels.md R99). -/
def endWalkUnit (u : UnitId) (s : State) : State :=
  let c := s.units[u]
  if !c.held || (c.sleepRun && !gateLine s c.lchId) || !c.en then s
  else if c.mode ≠ 0 then s.modUnit u fun c => c.skipPasses s.nowEv
  else
    let fire (b : Bool) (s : State) : State :=
      if s.units[u].arm b && passed s.nowEv (s.units[u].cmp b + s.units[u].trim (s.units[u].freeAct b)) then fireFree u b true s else s
    fire true (fire false s)

/-- The entries that a wake from SLEEP owes for the interval up to this edge: a TIME_SOURCE where it crosses a source change, and
the GAP (R35, step 7 of the wake ladder). -/
def oweGap (s : State) : State :=
  let start := s.gapStart
  let l := gapSource start s ++ [gapEntry 1 start s]
  let s := noteChange start s
  { s with tb := { s.tb with gapDue := l } }

/-- The walk mode that a reseed ends: its TIME_SOURCE entry waits for the Farrier (18_debug.md R413), and the channels that did
not run go on (04_channels.md R99). -/
def endWalk (s : State) : State :=
  let s := closeSpan s
  let e := mkEntry 5 5 s.tb.dt (ticksMs (s.tb.dt - s.dbg.walkAt).toNat) (uncMs s.tb.unc) 0
  let s := logTime e s
  forEach (idxs 68) endWalkUnit { s with tb := { markSource 5 s.tb.dt s.tb with unc := 0, onBrc := s.tb.onBrc } }

/-- WAKE_RESEED: the accumulator takes the coarse DT of this TIDE edge, and ROOT counts on (02_time.md, wake ladder step 5);
with BRC for the reference DT stays coarse until the first window (R47). -/
def execWakeReseed (tide : TideCnt) (s : State) : Out :=
  .next (
    if s.pwr.phase = .wakeLocked then
      let s := tidePass tide s
      let s := { s with pwr := { s.pwr with phase := .wakeReseeded }, tb := { s.tb with coarse := s.tb.refBrc } }
      let s := if s.dbg.walkDone then endWalk s else oweGap s
      if s.tb.refBrc then beginSpan s else s
    else s)

/-- DOMAIN_CLOCKS_RELEASE: steps 6 and 7 of the wake ladder (03_crossings.md R65; 15_interrupts.md R350, R351). After walk
mode no GAP is due. A Farrier that is halted writes what it owes when it resumes. -/
def execDomainClocksRelease (t : Instant) (s : State) : Out :=
  event t (fun s => s.pwr.phase == .wakeReseeded && s.tb.pllLock)
    (fun s =>
      let s := countLate (rebaseEngines { s with pwr := { s.pwr with phase := .run }, host := { s.host with hwdAt := s.tb.dt } })
      if s.dbg.walkDone then
        let s := restartRefresh { s with pwr := { s.pwr with phase := s.dbg.walkFrom }, dbg := { s.dbg with walkDone := false } }
        if s.farrierWrites then writeDue s else s
      else if s.far.halted then s else finishWake (goWdt s)) s

/-! ### Reset sources (R355, R358) -/

/-- PO_RESET (R355). -/
def execPoReset (s : State) : Out := .next (assertReset .po { s with pwr := { s.pwr with vbat := true } })

/-- BO_RESET (R355). -/
def execBoReset (s : State) : Out := .next (assertReset .bo s)

/-- PIN_RESET (R358): under 2 µs ignored, from 10 µs always, between them as it may be. RSTN can be cut (18_debug.md R404). -/
def execPinReset (widthNs : Nat) (s : State) : Out :=
  .next (
    if widthNs < 2000 || s.pinsCut then s
    else if 10000 ≤ widthNs then assertReset .pin s
    else
      let s1 := { s with far := { s.far with free := s.far.free + 1 } }
      if Config.rstnRaises s.far.free then assertReset .pin s1 else s1)

/-- The watchdog counts: the Farrier is not halted, and the device runs (17_health.md R382). -/
def State.wdtRuns (s : State) : Bool := s.pwr.phase == .run && s.far.wdtStop.isNone && s.far.running

/-- WDG_WARNING (17_health.md R382): 8 ms are 12,800,000 ticks. -/
def execWdgWarning (t : Instant) (s : State) : Out :=
  event t (fun s => s.wdtRuns && !s.far.wdtWarned && decide (12800000 ≤ s.wdtTicks))
    (fun s =>
      let s1 := { s with far := { s.far with wdtWarned := true } }
      pulse 218 (health 0x09 0 5 s.hlt.wdtInj (BitVec.ofNat 32 (s.wdtTicks / 1600000)) s1)) s

/-- WDG_RESET (17_health.md R382): 10 ms are 16,000,000 ticks. -/
def execWdgReset (t : Instant) (s : State) : Out :=
  event t (fun s => s.wdtRuns && decide (16000000 ≤ s.wdtTicks))
    (fun s => assertReset .wdg (health 0x09 0 6 s.hlt.wdtInj (BitVec.ofNat 32 (s.wdtTicks / 1600000)) s)) s

/-- WDT_SERVICE (17_health.md R399). -/
def execWdtService (v : Byte) (s : State) : Out := .next (if v = 0x5A then wdtService s else s)

/-- CLK_RESET (R355, R364): from boot step 8 onward. -/
def execClkReset (s : State) : Out := .next (if s.pwr.phase = .run then assertReset .clk s else s)

/-- LOCK_RESET (R355). -/
def execLockReset (s : State) : Out := .next (assertReset .lock s)

/-- A write of SWRST (R375). -/
def writeSwrst (v : W32) (s : State) : State := if v = 0xA5C3 then assertReset .sw s else s

/-- SWRST_WRITE (R375). -/
def execSwrstWrite (v : W32) (s : State) : Out := .next (writeSwrst v s)

/-- RESET_RELEASE (R357): an L2 restart, or a boot. `parity`: the tide counter or the tide pair shows a parity error when boot
checks the reservoir (02_time.md R31). -/
def execResetRelease (t : Instant) (tide : TideCnt) (xtalOk parity : Bool) (s : State) : Out :=
  .next (
    if s.pwr.phase ≠ .held || !s.pwr.vbat then s
    else if s.pwr.level = 2 then restart (advanceTo t s)
    else boot tide xtalOk { s with rsv := { s.rsv with parityBad := s.rsv.parityBad || parity } })

/-! ### Supplies (R367, R373) -/

/-- VBAT_LOSS (R367): VRES moves to VBAK. -/
def execVbatLoss (s : State) : Out := .next { s with pwr := { s.pwr with vbat := false }, rsv := { s.rsv with vresSrc := true } }

/-- VBAT_RETURN (R367, R373): in SLEEP and DEEP the latch decides; otherwise PO. -/
def execVbatReturn (s : State) : Out :=
  .next (
    let s1 := { s with pwr := { s.pwr with vbat := true }
                       rsv := { s.rsv with vresSrc := false, powered := true, resLost := s.rsv.resLost || !s.rsv.powered } }
    if s.pwr.vbat then setLatch 2 s1
    else if s.rsv.deepFlag || s.pwr.phase == .sleep then setLatch 2 s1
    else assertReset .po s1)

/-- RESERVOIR_LOSS (R367): with neither supply holding VRES the reservoir and retained memory clear; the next boot starts a
new epoch. -/
def execReservoirLoss (s : State) : Out :=
  .next (
    if s.pwr.vbat then s
    else
      let s := clearL0 s
      { s with
        rsv := { Reservoir.reset with powered := false, vresSrc := true }
        rcd := RecordQ.reset
        ps := ProbeSys.reset
        prb := Vector.replicate 16 Probe.reset
        hlt := Health.reset
        tb := Timebase.reset
        pwr := { s.pwr with phase := .held, level := 0 } })

end Sys2Proof.Machine
end

