-- ==== Sys2Proof/Machine/HealthOps.lean ====
section
/-! DEFINITION. Health: unit failure and migration, engines, memory errors, injection (17_health.md R379 to R393), with the
writes of a logical channel that wait for a migration (07_microcode.md R164, R165). -/

namespace Sys2Proof.Machine

/-! ### The arm crossings (R165, 03_crossings.md R55) -/

/-- A write of crossing 70 + `x` reaches its register. Of the writes that reach one register of a channel at one FAB edge that of
the highest crossing stands, whatever the order of their rows; a DISARM has no value that another could replace. -/
def armApply (x : Nat) (w : ArmW) (s : State) : State :=
  if w.har then (match idx? 16 w.tgt.toNat with | some h => actHarness h (fld w.v 0 32) s | none => s)
  else match idx? 64 w.tgt.toNat with
    | none => s
    | some l =>
      let top := if sameCycle s.arm.at_ s.now then s.arm.top else []
      let loses := w.op != 5 && top.any fun q => q.1 == w.tgt && q.2.1 == w.op && decide (x < q.2.2.toNat)
      let s := { s with arm := { s.arm with at_ := s.now, top := (w.tgt, w.op, BitVec.ofNat 4 x) :: top } }
      if loses then s else chanOp l w.op w.v s

/-- The head of an engine's crossing leaves it, unless its channel is under migration. -/
def armHead (e : EngineId) (s : State) : State :=
  match s.arm.q[e] with
  | [] => s
  | w :: r =>
    if !w.har && ((idx? 64 w.tgt.toNat).any fun l => s.lmap[l].mig.isSome) then s
    else armApply e.val w { s with arm := { s.arm with q := vmod s.arm.q e fun _ => r } }

/-- What an engine's crossing holds leaves it in order, up to a write that a migration holds. -/
def armOut (e : EngineId) (s : State) : State := forEach (List.range 4) (fun _ => armHead e) s

/-- A write enters the crossing of an engine; none where its 4 entries are taken. -/
def armIn (e : EngineId) (w : ArmW) (s : State) : Option State :=
  if (s.arm.q[e]).length < 4 then some (armOut e { s with arm := { s.arm with q := vmod s.arm.q e (· ++ [w]) } }) else none

/-- A thread's write goes into its engine's crossing; at a full one the thread stalls until an entry frees (R55). -/
def armWrite (tid : Tid) (w : ArmW) (s : State) : State :=
  match armIn (slotEng s.thr[tid].slot) w s with
  | some s => s
  | none => s.modThr tid fun t => { t with st := .stall, stallOn := .arm, stallArm := some w }

/-- A thread stalled on its crossing goes on where its write finds room. -/
def armRetry (tid : Tid) (s : State) : State :=
  match s.thr[tid].stallArm with
  | none => s
  | some w =>
    match armIn (slotEng s.thr[tid].slot) w s with
    | none => s
    | some s =>
      let st := s.readyState tid
      s.modThr tid fun t => { t with st := st, stallOn := .none, stallArm := none }

/-- A migration has ended: the crossings go on, and threads that stalled on them. -/
def armRelease (s : State) : State := forEach ((forEach (idxs 8) armOut s).stalled .arm) armRetry (forEach (idxs 8) armOut s)

/-! ### Failure of a channel unit (R384, R386 to R388) -/

/-- The highest-numbered FREE unit (05_ostler.md R105). -/
def spareUnit (s : State) : Option UnitId := (idxs 68).reverse.find? fun u => s.units[u].ust == .free

/-- A unit is marked RETIRED; a mark that an injection caused is not kept in the reservoir (R106, R393). -/
def retireUnit (u : UnitId) (chk : BitVec 5) (inj : Bool) (s : State) : State :=
  let s1 := s.modUnit u fun c => { c with ust := .retired, hl := { c.hl with chk := c.hl.chk ||| chk, injMark := inj } }
  if inj then s1 else { s1 with rsv := { s1.rsv with unitMarks := setBit s1.rsv.unitMarks u.val true } }

/-- HEALTH of a retired unit: class 0x02, event 4, CHK (R378). -/
def unitReport (u : UnitId) (inj : Bool) (s : State) : State :=
  health 0x02 (BitVec.ofNat 8 u.val) 4 inj (s.units[u].hl.chk.zeroExtend 32) s

/-- A REMAP record and source 200 (05_ostler.md R132). -/
def postRemap (l : Lch) (old new : Byte) (start : EvTime) (len : W32) (s : State) : State :=
  pulse 200 (postB63 (sysRec start 0x10 (BitVec.ofNat 8 l.val) (new ++ old) len) s)

/-- The reply that a migration of the channel held back is written (07_microcode.md R165). -/
def answerHeld (l : Lch) (ok : Bool) (s : State) : State :=
  match s.far.migReply with
  | none => s
  | some (c, mb, cmd, tag, pay) =>
    if c.toNat ≠ l.val then s
    else writeReply (bvFin 8 rfl mb) cmd tag (if ok then 0 else 4) (if ok then pay else []) { s with far := { s.far with migReply := none } }

/-- No unit is FREE: the logical channel is retired and stays at its safe level (R388). The record's interval has no end. -/
def retireChannel (l : Lch) (old : UnitId) (start : EvTime) (inj : Bool) (s : State) : State :=
  let safe : BitVec 2 := s.units[old].safe
  let s := s.modUnit old fun c => { ChanUnit.reset with ust := .retired, hl := c.hl }
  let s := s.modLMap l fun m => { m with pch := 0x7F, mig := none, migTo := 0x7F, migInj := false, snap := none, xsafe := some safe, heldW := [] }
  let bad := s.entries fun e => e.conf && e.chan == some l
  let s := (dropEntries bad s).modSpw fun w => { w with target := satAdd w.target bad.length }
  let s := postRemap l (BitVec.ofNat 8 old.val) 0xFF start (Config.noFit start.toNat) (unitReport old inj s)
  armRelease (answerHeld l false (adoptCh l (setCause 0 inj s)))

/-- Take a spare for a migration, or retire the channel. -/
def takeSpare (l : Lch) (old : UnitId) (start : EvTime) (inj : Bool) (s : State) : State :=
  match spareUnit s with
  | none => retireChannel l old start inj s
  | some n => (s.modUnit n fun c => { c with ust := .held }).modLMap l fun m =>
      { m with mig := some start, migTo := BitVec.ofNat 7 n.val, migInj := inj }

/-- The channel for which a unit is held in reserve. -/
def reservedFor (s : State) (u : UnitId) : Option Lch :=
  (idxs 64).find? fun l => s.lmap[l].mig.isSome && s.lmap[l].migTo.toNat == u.val

/-- A unit fails (R384, R386, R388): a FREE unit is retired; a held one takes the safe drive of R94 at once, its registers as they
stood are kept for the new unit, and a spare is taken. The chosen spare of a migration gives way to the next. -/
def failUnit (u : UnitId) (chk : BitVec 5) (inj : Bool) (start : EvTime) (s : State) : State :=
  let c := s.units[u]
  if c.ust = .retired then s
  else if !c.held then
    let s1 := unitReport u inj (retireUnit u chk inj s)
    match reservedFor s u with
    | none => s1
    | some l =>
      match unitOf s l, s.lmap[l].mig with
      | some old, some st => takeSpare l old st s.lmap[l].migInj s1
      | _, _ => s1
  else
    let (lv, hz) := safeOut s u
    let s1 := (retireUnit u chk inj s).modUnit u fun c => { (c.stop s.nowEv).unarm false with
      level := lv, hiz := hz, outOld := none, lastAct := none, safeHeld := true, armB := false, disB := none }
    let s2 := if c.level != lv || c.hiz != hz then outChanged u start s1 else s1
    takeSpare c.lchId u start inj (s2.modLMap c.lchId fun m => { m with snap := some c })

/-- A compare of the old unit as the new one takes it: one timed inside the interval is disarmed (R387). -/
def ChanUnit.carryCmp (c : ChanUnit) (b : Bool) (fin : EvTime) : ChanUnit :=
  if c.mode = 0#2 && c.arm b && evDiff (c.cmp b + c.trim (c.freeAct b)) fin < 0 then c.unarm b else c

/-- Tag-area write of REMAPS, one more (04_channels.md R100, R103); a write that does not verify leaves the old value (R381). -/
def countRemap (l : Lch) (s : State) : State :=
  let a := 64 * l.val + 8
  if bit s.nv.worn 1 then s
  else { s with nv := { s.nv with tags := memPutLe s.nv.tags a 4 ((memLe s.nv.tags a 4 + 1) % 2 ^ 32) } }

/-- The resume edge of a migration: the new unit takes the channel's state by the table of R387, the writes held for it
apply, and the reports follow (R386). -/
def resumeMigration (l : Lch) (s : State) : State :=
  let m := s.lmap[l]
  match m.mig, unitOf s l, idx? 68 m.migTo.toNat with
  | some start, some old, some new =>
    let fin := s.nowEv + 64
    let c := m.snap.getD s.units[old]
    let c1 := ((c.carryCmp false fin).carryCmp true fin).skipPasses fin
    let (lv, hz) := safeOut s old
    let raw := inputLevel s new c.insel s.now
    let c2 : ChanUnit := { c1 with
      ust := .held, hl := s.units[new].hl, level := lv, hiz := hz, outOld := none, lastAct := none, pDone := false
      cap := { c1.cap with gotRise := false, prevRise := none, prdmNew := false, uncertain := true, cand := none, undo := none, raw := raw, inn := raw ^^ bit c.ctrl 12 } }
    let s := (s.modUnit new fun _ => c2).modUnit old fun c => { ChanUnit.reset with ust := .retired, hl := c.hl }
    let s := s.modLMap l fun m => { m with pch := BitVec.ofNat 7 new.val, mig := none, migTo := 0x7F, migInj := false, snap := none, heldW := [] }
    let s := forEach m.heldW (fun w s => unitOp new w.off w.v s) s
    let s := answerHeld l true (countRemap l (adoptCh l s))
    armRelease (postRemap l (BitVec.ofNat 8 old.val) (BitVec.ofNat 8 new.val) start (satNat 32 (fin - start).toNat) (unitReport old m.migInj s))
  | _, _, _ => s

/-- A corrected error in a register word of a unit: CE_CNT and CE_HOUR; at CORR_THR the unit fails (R384). -/
def eccCorrect (u : UnitId) (inj : Bool) (s : State) : State :=
  let hl := s.units[u].hl
  let fresh := hl.ceHour = 0 ∨ 5760000000000 ≤ (s.tb.dt - hl.ceStart).toNat
  let s1 := s.modUnit u fun c => { c with hl := { hl with
    ceCnt := satInc hl.ceCnt, ceHour := if fresh then 1 else satInc hl.ceHour, ceStart := if fresh then s.tb.dt else hl.ceStart } }
  if s.cal.corrThr ≤ s1.units[u].hl.ceHour then failUnit u 8 inj s.nowEv s1 else s1

/-- The injection code of class 0x02: 1 shadow, 2 readback, 3 register single-bit, 4 register double-bit (R377, R398). -/
def injectUnit (u : UnitId) (code : Nat) (s : State) : State :=
  match code with
  | 1 => failUnit u 1 true s.nowEv s
  | 2 => failUnit u 2 true s.nowEv s
  | 3 => eccCorrect u true s
  | 4 => failUnit u 4 true s.nowEv s
  | _ => s

/-- An interpolator out of range (R385): class 0x0F, source 216; a channel unit fails, a converter is failed. -/
def tapsFail (i : Fin 70) (taps : W32) (inj : Bool) (s : State) : State :=
  let s := pulse 216 (health 0x0F (BitVec.ofNat 8 i.val) 8 inj taps s)
  if h : i.val < 68 then failUnit ⟨i.val, h⟩ 16 inj s.nowEv s
  else
    let c : Fin 2 := ⟨i.val - 68, by omega⟩
    let s := if inj then s else { s with rsv := { s.rsv with convMarks := setBit s.rsv.convMarks c.val true } }
    setCause 7 inj (s.modConv c fun k => { k with failed := true })

/-! ### Memory errors (R379, R380, R392) -/

/-- Words of a memory that read with an error, double-bit ones or single-bit ones. -/
def markAt (s : State) (m : Byte) (w : Nat) : Option (Bool × Bool) :=
  (s.hlt.marks.find? fun k => k.1 == m && k.2.1.toNat == w).map fun k => (k.2.2.1, k.2.2.2)

/-- A word reads with an error until it is written. -/
def mark (m : Byte) (w : BitVec 24) (dbl inj : Bool) (s : State) : State :=
  { s with hlt := { s.hlt with marks := (m, w, dbl, inj) :: s.hlt.marks.filter fun k => !(k.1 == m && k.2.1 == w) } }

/-- Memory number as an index. -/
def memNo (m : Byte) : Fin 8 := ⟨m.toNat % 8, by omega⟩

/-- A corrected error: the count, the table of 16 words, and the threshold (R379, R380). -/
def corrected (m : Byte) (w : BitVec 24) (inj : Bool) (s : State) : State :=
  let s := clearMarks m w.toNat w.toNat { s with hlt := { s.hlt with ce := vmod s.hlt.ce (memNo m) satInc } }
  let old := s.hlt.corr.find? fun e => e.mem == m && e.word == w
  let rest := s.hlt.corr.filter fun e => !(e.mem == m && e.word == w)
  let fresh : CorrEnt := { mem := m, word := w, cnt := 1, start := s.tb.dt }
  let e := match old with
    | some e => if 5760000000000 ≤ (s.tb.dt - e.start).toNat then fresh else { e with cnt := satInc e.cnt }
    | none => fresh
  let (rest, s) :=
    if rest.length < 16 then (rest, s)
    else
      let low := rest.foldl (fun n e => min n e.cnt.toNat) 255
      let cands := rest.filter fun e => e.cnt.toNat == low
      let (out, s) := choose cands fresh s
      (rest.filter fun e => e != out, s)
  let s := { s with hlt := { s.hlt with corr := e :: rest } }
  if e.cnt = s.cal.corrThr then setCause 2 inj (pulse 211 (health 0x01 m 3 inj (w.zeroExtend 32) s)) else s

/-- What becomes of a retained-memory word that cannot be read (R379). Where in the queue an entry lies is not stated. -/
def retainedBad (w : Nat) (s : State) : State :=
  if w < 1664 then
    let n := s.rcd.q.length
    let (i, s) := choose (none :: (List.range n).map some) none s
    match i with
    | none => s
    | some i => { s with rcd := { s.rcd with q := s.rcd.q.modify i fun e => { e with damaged := true } } }
  else if w < 1672 then { s with rcd := { s.rcd with hdrBad := true } }
  else if w < 1792 then { s with ps := { s.ps with sched := none, pendSched := none } }
  else if w < 1794 then { s with rsv := { s.rsv with unitMarks := 0, convMarks := 0, engMarks := 0 } }
  else s

/-- A frame whose word cannot be read: a flash image's frame is filled again, a staged one's is not (R379). -/
def frameBad (f : Fin 128) (s : State) : State :=
  let k := s.frm[f]
  if !(k.used && k.valid) then s
  else s.modFrm f fun k => { k with valid := false, tries := 0, repair := !s.prog[bvFin 16 rfl k.prog].staged }

/-- An uncorrectable read of a word, with the outcome its memory gives it (R379). The reading thread, where a thread reads,
is stopped by the load itself. -/
def uncorrectable (m : Byte) (w : BitVec 24) (inj : Bool) (s : State) : State :=
  let s := { s with hlt := { s.hlt with ue := vmod s.hlt.ue (memNo m) satInc } }
  let data : W32 := if m = 4 then BitVec.ofNat 32 (w.toNat / 2) else w.zeroExtend 32
  let s := pulse 211 (health 0x01 m 2 inj data s)
  match m.toNat with
  | 0 | 7 => assertReset .lock s
  | 2 => match idx? 128 (w.toNat / 64) with | some f => frameBad f s | none => s
  | 5 =>
    match idx? 256 (w.toNat / 4) with
    | some i => if s.spw.ent[i].valid then (dropEntries [i] s).modSpw fun k => { k with target := satInc k.target } else s
    | none => s
  | 6 => retainedBad w.toNat s
  | _ => s

/-- A read of a word: a marked one reports its error; a corrected word is written back (R379, R392). -/
def readWord (m : Byte) (w : BitVec 24) (s : State) : State :=
  match markAt s m w.toNat with
  | none => s
  | some (dbl, inj) => if dbl then uncorrectable m w inj s else corrected m w inj s

/-- The host watchdog expires (13_host_link.md R301); what the Farrier does about it waits until it runs. -/
def hwdExpire (inj : Bool) (s : State) : State :=
  let s := { s with host := { s.host with hostLost := true } }
  if s.farrierUp then hwdReport inj s else { s with host := { s.host with hwdPost := some inj } }

/-! ### Injection (R377, R392) -/

/-- Bytes of an NV area. -/
def nvArea (area : Nat) (off : W16) (s : State) : State :=
  let b := s.nv
  let nv : NvBlock := match area with
    | 0 => { b with calBad := some off }
    | 1 => { b with tagBad := setBit b.tagBad (off.toNat / 64) true }
    | 2 => { b with epochBad := some off }
    | _ => { b with keyBad := some off }
  { s with nv := { nv with badInj := setBit nv.badInj area true } }

/-- A burst of events into a crossing; they carry nothing to deliver. -/
def burst (x : Fin 70) (n : Nat) (s : State) : State :=
  (List.range n).foldl (fun s _ => pushEvent x { XEv.reset with what := 7, stamp := s.nowEv } s) s

/-- The fault of a class at an index with its parameter; none where the field is out of its range (R377). -/
def inject (cls idx : Nat) (par : W32) (s : State) : Option State :=
  let p := par.toNat
  let until_ : W64 := s.tb.dt + BitVec.ofNat 64 (p * 1600000)
  let held := 1 ≤ p ∧ p ≤ 1000
  match cls with
  | 0x01 => if 8 ≤ idx ∨ 2 ^ 25 ≤ p then none else some (mark (BitVec.ofNat 8 idx) (fld par 0 24) (bit par 24) true s)
  | 0x02 => (idx? 68 idx).bind fun u => if 1 ≤ p ∧ p ≤ 4 then some (injectUnit u p s) else none
  | 0x03 => (idx? 8 idx).bind fun e =>
      if p = 0 then some (retireEngine e (Config.firmwareWord e.val s.far.free) true { s with far := { s.far with free := s.far.free + 1 } })
      else none
  | 0x04 =>
    if !(held) then none
    else
    let s := match idx? 4 idx with | some i => { s with hlt := { s.hlt with clkInj := vmod s.hlt.clkInj i fun _ => until_ } } | none => s
    match idx with
      | 0 => some (if s.clocked && !s.tb.refBrc then xtalLost s else s)
      | 1 => some (if s.clocked && s.tb.pllLock && !s.tb.refBrc then (let s := startCoarse s; { s with tb := { s.tb with pllUnlockF := true } }) else s)
      | 2 => some (crystalStop s)
      | 3 => some { s with rsv := { s.rsv with trcFail := true, tpValid := s.rsv.tpValid && !s.rsv.onTrc } }
      | _ => none
  | 0x05 => (idx? 70 idx).bind fun x => if 5 ≤ p ∧ p ≤ 16 then some (burst x p s) else none
  | 0x06 => if idx = 0 ∧ p = 0 then some { s with host := { s.host with badNext := true } } else none
  | 0x07 => if idx < 8 ∧ p = 0 then some { s with hlt := { s.hlt with mbInj := setBit s.hlt.mbInj idx true } } else none
  | 0x08 => if idx < 64 ∧ p = 0 then some { s with hlt := { s.hlt with dlnInj := setBit s.hlt.dlnInj idx true } } else none
  | 0x09 => if idx = 0 ∧ p = 0 then some { s with hlt := { s.hlt with wdtInj := true } } else none
  | 0x0A =>
    if idx < 4 ∧ p < (if idx = 3 then 32 else if idx = 2 then 65536 else 4096) then some (nvArea idx (par.truncate 16) s) else none
  | 0x0B => (idx? 2 idx).map fun d =>
      { s with hlt := { s.hlt with tempInj := vmod s.hlt.tempInj d fun _ => (par, s.tb.dt + 1600000000) } }
  | 0x0C => (idx? 5 idx).bind fun i =>
      if held then some { s with hlt := { s.hlt with supInj := vmod s.hlt.supInj i fun _ => until_ } } else none
  | 0x0D => (idx? 16 idx).bind fun h => if 1 ≤ p ∧ p ≤ 9 then some (faultHarness (par.truncate 8) 0 0 h s) else none
  | 0x0E => (idx? 16 idx).bind fun k => if p = 1 ∨ p = 2 then some (s.modPrb k fun r => { r with inj := par.truncate 2 }) else none
  | 0x0F => (idx? 70 idx).bind fun i =>
      if p = 0 then some (tapsFail i (Config.firmwareWord i.val s.far.free) true { s with far := { s.far with free := s.far.free + 1 } })
      else none
  | 0x10 => if idx = 0 ∧ p = 0 then some (hwdExpire true s) else none
  | _ => none

end Sys2Proof.Machine
end

