-- ==== Sys2Proof/Machine/IrqOps.lean ====
section
/-! DEFINITION. The interrupt controller: eligibility, claims and completes of targets F and H, and its word per source
(15_interrupts.md R337 to R347, R353). -/

namespace Sys2Proof.Machine

/-! ### Target F (R345) -/

/-- The group of a source at F: the top GW bits of PRI_F. -/
def irqGroup (q : Irq) (i : Fin 256) : Nat := q.pri[i].toNat / 2 ^ (4 - q.gw.toNat)

/-- Rank within all of F: group, then sub-priority, which together are PRI_F itself. -/
def irqRank (q : Irq) (i : Fin 256) : Nat := q.pri[i].toNat

/-- The sources active at F. -/
def activeF (q : Irq) : List (Fin 256) := maskIdx 256 q.actF

/-- The running group: the highest group among F's active sources, or none. -/
def runGroup (q : Irq) : Option Nat :=
  (activeF q).foldl (fun b i => match b with | none => some (irqGroup q i) | some g => some (max g (irqGroup q i))) none

/-- A pending source is eligible at F. -/
def eligF (s : State) (i : Fin 256) : Bool :=
  pendF s i.val && match runGroup s.irq with | none => true | some g => decide (g < irqGroup s.irq i)

/-- The winner at F. -/
def winnerF (s : State) : Option (Fin 256) :=
  ((idxs 256).filter (eligF s)).foldl (fun b i => match b with
    | none => some i
    | some c => if irqRank s.irq c < irqRank s.irq i then some i else some c) none

/-- A claim of target F (R341, R342): `ref` tells whether a source was eligible at the reference point. -/
def claimF (ref : Bool) (s : State) : State :=
  let q := s.irq
  if !q.gateF then { s with irq := { q with claimF := 0 } }
  else match winnerF s with
    | some i => { s with irq := { q with claimF := BitVec.ofNat 8 i.val, actF := setBit q.actF i.val true, latF := setBit q.latF i.val false } }
    | none => { s with irq := { q with claimF := if ref then 255 else 0 } }

/-! ### Target H (R347) -/

/-- The winner at H: the lowest pending ID, while none is active. -/
def winnerH (s : State) : Option (Fin 256) := if s.irq.activeH ≠ 0 then none else (idxs 256).find? fun i => pendH s i.val

/-- IRQ_H (13_host_link.md R303, R340). -/
def irqH (s : State) : Bool := s.irq.gateH && (winnerH s).isSome

/-- A source is pending at H, whatever is active there. -/
def anyPendH (s : State) : Bool := (idxs 256).any fun i => pendH s i.val

/-- A claim of target H: the ID returned is CLAIM_H (R341, R342, R347). -/
def claimH (ref : Bool) (s : State) : State :=
  let q := s.irq
  if q.activeH ≠ 0 then { s with irq := { q with claimH := 0, claimOrder := true } }
  else if !q.gateH then { s with irq := { q with claimH := 0 } }
  else match winnerH s with
    | some i => { s with irq := { q with
        claimH := BitVec.ofNat 8 i.val, activeH := BitVec.ofNat 8 i.val, actH := setBit q.actH i.val true, latH := setBit q.latH i.val false } }
    | none => { s with irq := { q with claimH := if ref then 255 else 0 } }

/-! ### Completes (R343, R344) -/

/-- The wake latch bits that drive a source are cleared at its complete. -/
def clearWake (i : Nat) (s : State) : State :=
  let wk := s.rsv.wk
  let wk := match i with
    | 224 => setBit wk 0 false
    | 225 => setBit wk 1 false
    | 226 => setBit wk 2 false
    | 227 => wk &&& 7
    | _ => wk
  { s with rsv := { s.rsv with wk := wk } }

/-- A complete at F. -/
def completeF (id : Byte) (s : State) : State :=
  let q := s.irq
  if !bit q.actF id.toNat then { s with irq := { q with cerrF := true } }
  else clearWake id.toNat { s with irq := { q with actF := setBit q.actF id.toNat false } }

/-- A complete at H. -/
def completeH (id : Byte) (s : State) : State :=
  let q := s.irq
  if !bit q.actH id.toNat then { s with irq := { q with cerrH := true } }
  else clearWake id.toNat { s with irq := { q with actH := setBit q.actH id.toNat false, activeH := 0 } }

/-! ### Registers (R353) -/

/-- The word of source `i`. -/
def irqWord (s : State) (i : Fin 256) : W32 :=
  let q := s.irq
  let n := i.val
  (0#16 : BitVec 16) ++ b2v 1 (bit q.actH n) ++ b2v 1 (bit q.actF n) ++ b2v 1 (pendH s n) ++ b2v 1 (pendF s n) ++
  b2v 1 (bit q.latH n) ++ b2v 1 (bit q.latF n) ++ b2v 1 (irqInput s n) ++ b2v 1 (irqLatched n) ++ q.pri[i] ++
  (0#2 : BitVec 2) ++ b2v 1 (bit q.enH n) ++ b2v 1 (bit q.enF n)

/-- A write of the word of a source: clearing an enable ends what is pending there, its latch with it. -/
def writeIrqWord (i : Fin 256) (v : W32) (s : State) : State :=
  let q := s.irq
  let n := i.val
  { s with irq := { q with
      enF := setBit q.enF n (bit v 0), enH := setBit q.enH n (bit v 1), pri := q.pri.set i (fld v 4 4)
      latF := if bit v 0 then q.latF else setBit q.latF n false
      latH := if bit v 1 then q.latH else setBit q.latH n false } }

end Sys2Proof.Machine
end

