-- ==== Sys2Proof/Machine/BusOps.lean ====
section
/-! DEFINITION. The internal register map as the Farrier and the debug port reach it: the value of a word (`busPeek`), what
a read does besides (`busReadFx`), and a write (`busWrite`), by the register tables of the spec (00_scope.md R8 to R14). -/

namespace Sys2Proof.Machine

/-! ### Fields put together -/

/-- Two halves of a word. -/
def w2 (hi lo : W16) : W32 := hi ++ lo

/-- A 32-bit word from a value of 16 bits or fewer. -/
def wz {w : Nat} (v : BitVec w) : W32 := v.zeroExtend 32

/-- A 32-bit word from flags, bit 0 first. -/
def wBits (l : List Bool) : W32 := BitVec.ofNat 32 ((l.zipIdx.filter (·.1)).foldl (fun n p => n + 2 ^ p.2) 0)

/-! ### Channel units and TIO (04_channels.md R101, R102; 17_health.md R398) -/

/-- Word of a unit. CMPx_LO and SHx_LO read what was last staged (DESIGN CHOICE after a shadow transfer, log entry 40). -/
def unitPeek (s : State) (u : UnitId) (off : Nat) : Option W32 :=
  let c := s.units[u]
  let now := s.nowEv
  let hi (t : EvTime) : W32 := wz (fld t 32 16)
  let lo (t : EvTime) : W32 := fld t 0 32
  match off with
  | 0x00 => some c.ctrl
  | 0x04 => some c.act
  | 0x08 => some c.cmpALo
  | 0x0C => some (hi c.cmpA)
  | 0x10 => some c.cmpBLo
  | 0x14 => some (hi c.cmpB)
  | 0x18 => some c.shALo
  | 0x1C => some (hi c.shA)
  | 0x20 => some c.shBLo
  | 0x24 => some (hi c.shB)
  | 0x28 => some c.prd
  | 0x2C => some c.prdSh
  | 0x30 => some (c.cntNow now)
  | 0x34 => some (lo c.cap.capR)
  | 0x38 => some (wz c.cap.capRHiL)
  | 0x3C => some (lo c.cap.capF)
  | 0x40 => some (wz c.cap.capFHiL)
  | 0x44 => some c.cap.pw
  | 0x48 => some c.cap.prdm
  | 0x4C => some (c.status s.now)
  | 0x50 => some (wz c.flags)
  | 0x54 => some (wz c.cap.rej)
  | 0x58 => some (wz c.cap.ovrcnt)
  | 0x5C => some (wz (b2v 1 c.held ++ (0#1 : BitVec 1) ++ c.lch))
  | 0x60 => some (w2 (c.trimFall.zeroExtend 16) (c.trimRise.zeroExtend 16))
  | 0x64 => some (w2 (c.ctrimFall.zeroExtend 16) (c.ctrimRise.zeroExtend 16))
  | 0x68 => some 0
  | 0x6C => some (lo c.porg)
  | 0x70 => some (wz c.cap.porgHiL)
  | 0x80 => some (wz (b2v 1 c.hl.injMark ++ c.hl.chk))
  | 0x84 => some (wz (c.hl.ceHour ++ c.hl.ceCnt))
  | 0x88 => some (wz c.hl.taps)
  | 0x8C => some 0
  | _ => none

/-- What a read of a unit's word does besides (R93, R101, R398). -/
def unitReadFx (u : UnitId) (off : Nat) (s : State) : State :=
  s.modUnit u fun c =>
    let k := c.cap
    match off with
    | 0x34 => { c with cap := { k with capRHiL := fld k.capR 32 16 } }
    | 0x38 => c.readCapHi false
    | 0x3C => { c with cap := { k with capFHiL := fld k.capF 32 16 } }
    | 0x40 => c.readCapHi true
    | 0x44 => c.readPw
    | 0x54 => { c with cap := { k with rej := 0 } }
    | 0x58 => { c with cap := { k with ovrcnt := 0 } }
    | 0x6C => { c with cap := { k with porgHiL := fld c.porg 32 16 } }
    | 0x84 => { c with hl := { c.hl with ceCnt := 0 } }
    | _ => c

/-- A write of a unit's word. -/
def unitWrite (u : UnitId) (off : Nat) (v : W32) (s : State) : State :=
  let d := effTime s u
  let hi (lo : W32) : EvTime := fld v 0 16 ++ lo
  match off with
  | 0x00 => writeCtrl u v s
  | 0x04 => s.modUnit u fun c => { c with act := v &&& 0x00FFFFFF }
  | 0x08 => s.modUnit u fun c => c.stageLo 0 v
  | 0x0C => s.modUnit u fun c => c.loadCmp d false (hi c.cmpALo)
  | 0x10 => s.modUnit u fun c => c.stageLo 1 v
  | 0x14 => s.modUnit u fun c => c.loadCmp d true (hi c.cmpBLo)
  | 0x18 => s.modUnit u fun c => c.stageLo 2 v
  | 0x1C => s.modUnit u fun c => c.writeShadow d s.now false (hi c.shALo)
  | 0x20 => s.modUnit u fun c => c.stageLo 3 v
  | 0x24 => s.modUnit u fun c => c.writeShadow d s.now true (hi c.shBLo)
  | 0x28 => unitOp u 10 (v.zeroExtend 48) s
  | 0x2C => s.modUnit u fun c => c.writePrdSh d s.now v
  | 0x30 => unitOp u 11 (v.zeroExtend 48) s
  | 0x50 => s.modUnit u fun c => { c with flags := c.flags &&& ~~~(fld v 0 11) }
  | 0x60 => s.modUnit u fun c => { c with trimRise := fld v 0 10, trimFall := fld v 16 10 }
  | 0x64 => s.modUnit u fun c => { c with ctrimRise := fld v 0 10, ctrimFall := fld v 16 10 }
  | 0x68 => force u (fld v 2 2) (unitOp u 5 (v.zeroExtend 48) s)
  | 0x8C => if s.far.injOpen then injectUnit u (fld v 0 3).toNat s else s
  | _ => s

/-! ### Harnesses (08_power_harnesses.md R213) -/

/-- Code of HSTATE. -/
def HState.code : HState → BitVec 2
  | .idle => 0
  | .run => 1
  | .safe => 2
  | .fault => 3

/-- Word of a harness. -/
def harPeek (s : State) (h : HarnessId) (off : Nat) : Option W32 :=
  let k := s.har[h]
  match off with
  | 0x00 => some (wz (k.hsd ++ (0#1 : BitVec 1) ++ b2v 1 k.rideL2 ++ k.hstate.code ++ (0#1 : BitVec 1) ++ k.kind))
  | 0x04 => some k.mch
  | 0x08 => some (fld k.grp 0 32)
  | 0x0C => some (fld k.grp 32 32)
  | 0x10 => some (wz k.mls)
  | 0x14 => some k.w14
  | 0x18 => some k.w18
  | 0x1C => some k.w1C
  | 0x60 => some k.flt
  | 0x64 => some (wz (k.defd ++ k.win ++ k.peak ++ (0#3 : BitVec 3) ++ b2v 1 k.regLs ++ (0#3 : BitVec 3) ++ k.phase))
  | 0x68 => some (w2 k.cancelCnt k.deferCnt)
  | 0x6C => some (wz k.openCnt)
  | 0x70 => some (fld k.actTime 0 32)
  | 0x74 => some (wz (b2v 1 k.actPend ++ fld k.actTime 32 16))
  | 0x78 => some k.actWord
  | 0x7C => some 0
  | _ =>
    if 0x20 ≤ off ∧ off < 0x60 then
      match idx? 4 ((off - 0x20) / 16), off % 16 with
      | some m, 0 => some k.mem[m].w0
      | some m, 4 => some k.mem[m].w1
      | some m, 8 => some k.mem[m].w2
      | _, _ => none
    else none

/-- What a read of a harness's word does besides. -/
def harReadFx (h : HarnessId) (off : Nat) (s : State) : State :=
  match off with
  | 0x68 => s.modHar h fun k => { k with deferCnt := 0, cancelCnt := 0 }
  | 0x6C => s.modHar h fun k => { k with openCnt := 0 }
  | _ => s

/-- Clear fault and error flags: HSTATE goes from FAULT to SAFE when the last latching flag clears (R213). -/
def clearFaults (h : HarnessId) (m : W32) (s : State) : State :=
  s.modHar h fun k =>
    let f := k.flt &&& ~~~m
    { k with flt := f, hstate := if k.hstate = .fault ∧ fld f 0 14 = 0#14 then .safe else k.hstate }

/-- CFG_ERR of a harness. -/
def harCfgErr (h : HarnessId) (s : State) : State := s.modHar h fun k => { k with flt := setBit k.flt 26 true }

/-- The writable bits of a configuration word. -/
def harLegal (off : Nat) : W32 :=
  match off with
  | 0x00 => 0xF47
  | 0x04 => 0xBFBFBFBF
  | 0x10 => 0xFFFF
  | 0x14 => 0x0FFF00FF
  | 0x18 => 0x01FF03FF
  | 0x1C => 0x000F7777
  | 0x08 | 0x0C => 0xFFFFFFFF
  | _ => if off % 16 = 0 then 0xFFFFFF03 else if off % 16 = 4 then 0x0FFFFFFF else 0xFFFF

/-- A configuration word has a field outside its range (R193, R196, R203, R205, R207, R213). -/
def harOutOfRange (off : Nat) (v : W32) : Bool :=
  let code (lo : Nat) : Bool := decide (250 < (fld v lo 8).toNat)
  let amps (lo : Nat) : Bool := decide (4 < (fld v lo 3).toNat)
  match off with
  | 0x00 => decide (5 ≤ (fld v 0 3).toNat)
  | 0x04 | 0x08 | 0x0C | 0x10 => false
  | 0x14 => decide (200 < (fld v 0 8).toNat) || decide ((fld v 16 12).toNat < 40) || decide (4000 < (fld v 16 12).toNat)
  | 0x18 => decide (1000 < (fld v 0 10).toNat)
  | 0x1C => amps 0 || amps 4 || amps 8 || amps 12 || decide (9 < (fld v 16 4).toNat)
  | _ =>
    if off % 16 = 0 then fld v 0 2 == 3#2 || code 8 || code 16 || code 24
    else if off % 16 = 4 then code 0 || code 8 || fld v 16 12 == 0 || decide (2000 < (fld v 16 12).toNat)
    else fld v 0 8 == 0 || fld v 8 8 == 0 || decide ((fld v 0 8).toNat + (fld v 8 8).toNat < 20)

/-- Put a configuration word into a harness. -/
def Harness.setWord (k : Harness) (off : Nat) (v : W32) : Harness :=
  match off with
  | 0x00 => { k with kind := fld v 0 3, rideL2 := bit v 6, hsd := fld v 8 4 }
  | 0x04 => { k with mch := v }
  | 0x08 => { k with grp := fld k.grp 32 32 ++ v }
  | 0x0C => { k with grp := v ++ fld k.grp 0 32 }
  | 0x10 => { k with mls := fld v 0 16 }
  | 0x14 => { k with w14 := v }
  | 0x18 => { k with w18 := v }
  | 0x1C => { k with w1C := v }
  | _ =>
    match idx? 4 ((off - 0x20) / 16), off % 16 with
    | some m, 0 => { k with mem := vmod k.mem m fun x => { x with w0 := v } }
    | some m, 4 => { k with mem := vmod k.mem m fun x => { x with w1 := v } }
    | some m, 8 => { k with mem := vmod k.mem m fun x => { x with w2 := v } }
    | _, _ => k

/-- A write of a configuration word is refused with CFG_ERR: a field out of range, or outside IDLE and SAFE a write of any field but
RIDE_L2 and DEFER (R213). In a word that holds one of these two, the others count as written where they change (DEDUCED). -/
def harRefused (s : State) (h : HarnessId) (off : Nat) (v : W32) : Bool :=
  let k := s.har[h]
  let v := v &&& harLegal off
  let free : W32 := if off = 0 then 0x40 else if off = 0x14 then 0xFF else 0
  let old := (harPeek s h off).getD 0 &&& harLegal off
  harOutOfRange off v || (k.hstate != .idle && k.hstate != .safe && (free == 0 || ((v ^^^ old) &&& ~~~free) != 0))

/-- A write of a configuration word (R213). -/
def harConfig (h : HarnessId) (off : Nat) (v : W32) (s : State) : State :=
  if harRefused s h off v then harCfgErr h s else s.modHar h fun k => k.setWord off (v &&& harLegal off)

/-- The write travels to the P-die over the link (03_crossings.md R57): the pre-driver's settings of a power harness. -/
def overLink (k : Harness) (off : Nat) : Bool := k.power && decide (0x10 ≤ off) && decide (off < 0x60)

/-- A write of a harness's word. -/
def harWrite (h : HarnessId) (off : Nat) (v : W32) (s : State) : State :=
  if off = 0x60 then clearFaults h v s
  else if off = 0x7C then actHarness h v s
  else if overLink s.har[h] off then
    { s with link := { s.link with queue := s.link.queue ++ [(0x21000000 + BitVec.ofNat 32 (0x100 * h.val + off), v)] } }
  else if off < 0x60 then harConfig h off v s
  else s

/-! ### Trackers (10_gait.md R255) -/

/-- Word of a tracker. -/
def gtPeek (s : State) (n : Fin 2) (off : Nat) : Option W32 :=
  let k := s.gt[n]
  match off with
  | 0x30 => some (w2 k.idxReads (k.gs.code.zeroExtend 16))
  | 0x34 => some (fld k.last 0 32)
  | 0x38 => some (wz k.lastHiL)
  | 0x3C => some (satNat 32 k.per.toNat)
  | 0x40 => some (wz (k.rsn ++ (0#2 : BitVec 2) ++ k.flags))
  | 0x44 => some (w2 k.missedCnt k.noiseCnt)
  | 0x48 => some (wz k.lossCnt)
  | _ => if off % 4 = 0 then (idx? 11 (off / 4)).map fun i => k.cfg[i] else none

/-- What a read of a tracker's word does besides. -/
def gtReadFx (n : Fin 2) (off : Nat) (s : State) : State :=
  match off with
  | 0x34 => s.modGt n fun k => { k with lastHiL := fld k.last 32 16 }
  | 0x44 => s.modGt n fun k => { k with noiseCnt := 0, missedCnt := 0 }
  | 0x48 => s.modGt n fun k => { k with lossCnt := 0 }
  | _ => s

/-- A write of a tracker's word. -/
def gtWrite (n : Fin 2) (off : Nat) (v : W32) (s : State) : State :=
  if off = 0x40 then s.modGt n fun k => { k with flags := k.flags &&& ~~~(fld v 0 6) }
  else match idx? 11 (off / 4) with
    | some i => writeTracker n i v s
    | none => s

/-! ### Probes (11_probes.md R271) -/

/-- Word of the probe block. -/
def prbPeek (s : State) (off : Nat) : Option W32 :=
  if off < 0x100 then
    match idx? 2 (off / 0x80) with
    | none => none
    | some c =>
      let k := s.conv[c]
      match off % 0x80 with
      | 0x00 => some (wz (b2v 1 k.cfgErr ++ (0#1 : BitVec 1) ++ k.nslot ++ (0#1 : BitVec 1) ++ k.avg ++ (0#1 : BitVec 1) ++
                          b2v 1 k.refSel ++ b2v 1 k.busy ++ (0#1 : BitVec 1)))
      | 0x04 => some (wz k.chg)
      | 0x08 => some k.tshort
      | 0x0C => some k.topen
      | 0x10 => some (wz k.ofs)
      | _ => none
  else if 0x200 ≤ off ∧ off < 0x400 then
    match idx? 16 ((off - 0x200) / 0x20) with
    | none => none
    | some p =>
      let r := s.prb[p]
      match off % 0x20 with
      | 0x00 => some (fld r.tRef 0 32)
      | 0x04 => some (wz r.tRefHiL)
      | 0x08 => some (fld r.tPrb 0 32)
      | 0x0C => some (wz r.tPrbHiL)
      | 0x10 => some r.ratio
      | 0x14 => some (wz (r.flags ++ b2v 1 r.full))
      | _ => none
  else if 0x400 ≤ off then
    match idx? 2 ((off - 0x400) / 0x40), idx? 8 ((off % 0x40) / 4) with
    | some c, some i => if off % 0x40 < 0x20 then some (wz s.conv[c].slots[i]) else none
    | _, _ => none
  else none

/-- What a read of the probe block does besides. -/
def prbReadFx (off : Nat) (s : State) : State :=
  if 0x200 ≤ off ∧ off < 0x400 then
    match idx? 16 ((off - 0x200) / 0x20) with
    | none => s
    | some p => s.modPrb p fun r =>
      match off % 0x20 with
      | 0x00 => { r with tRefHiL := fld r.tRef 32 8 }
      | 0x08 => { r with tPrbHiL := fld r.tPrb 32 8 }
      | 0x10 => { r with full := false }
      | _ => r
  else s

/-- A write of the probe block: refused with CFG_ERR while BUSY, with AVG 5 to 7 (R271), or with CHG outside 1 to 1,000 (R260). -/
def prbWrite (off : Nat) (v : W32) (s : State) : State :=
  let refuse (c : Fin 2) : State := s.modConv c fun k => { k with cfgErr := true }
  if off < 0x100 then
    match idx? 2 (off / 0x80) with
    | none => s
    | some c =>
      let k := s.conv[c]
      match off % 0x80 with
      | 0x00 =>
        let s := s.modConv c fun k => { k with cfgErr := k.cfgErr && !bit v 12 }
        let same := bit v 2 = k.refSel ∧ fld v 4 3 = k.avg ∧ fld v 8 3 = k.nslot
        let s := if same then s
          else if k.busy ∨ 5 ≤ (fld v 4 3).toNat then s.modConv c fun k => { k with cfgErr := true }
          else s.modConv c fun k => { k with refSel := bit v 2, avg := fld v 4 3, nslot := fld v 8 3 }
        if bit v 0 then startConv c s else s
      | 0x04 =>
        if k.busy || fld v 0 10 == 0 || decide (1000 < (fld v 0 10).toNat) then refuse c
        else s.modConv c fun k => { k with chg := fld v 0 10 }
      | 0x08 => if k.busy then refuse c else s.modConv c fun k => { k with tshort := v }
      | 0x0C => if k.busy then refuse c else s.modConv c fun k => { k with topen := v }
      | 0x10 => if k.busy then refuse c else s.modConv c fun k => { k with ofs := fld v 0 16 }
      | _ => s
  else if 0x200 ≤ off ∧ off < 0x400 then
    match idx? 16 ((off - 0x200) / 0x20) with
    | some p => if off % 0x20 = 0x14 then s.modPrb p fun r => { r with flags := r.flags &&& ~~~(fld v 1 4) } else s
    | none => s
  else
    match idx? 2 ((off - 0x400) / 0x40), idx? 8 ((off % 0x40) / 4) with
    | some c, some i =>
      if s.conv[c].busy then refuse c else s.modConv c fun k => { k with slots := k.slots.set i (fld v 0 3) }
    | _, _ => s

/-! ### The spillway (06_spillway.md R151, R152) -/

/-- The 32 bytes of an entry. -/
def SpwEnt.bytes (e : SpwEnt) : List Byte :=
  leBytes 6 e.time.toNat ++ [e.tkind, e.tgt, e.ckind, e.csrc] ++ leBytes 2 e.carg.toNat ++ leBytes 6 e.expiry.toNat ++
  [(b2v 1 e.valid ++ (0#6 : BitVec 6) ++ b2v 1 e.trel), e.owner] ++ leBytes 4 e.hact.toNat ++ [e.gen, 0, 0, 0, 0, 0, 0, 0]

/-- Word of the spillway block. -/
def spwPeek (s : State) (off : Nat) : Option W32 :=
  let k := s.spw
  match off with
  | 0x00 => some (BitVec.ofNat 32 ((idxs 256).filter fun i => k.ent[i].valid).length)
  | 0x04 => some (w2 k.late k.confirmed)
  | 0x08 => some (w2 k.sync k.expired)
  | 0x0C => some (w2 k.conflict k.target)
  | 0x10 => some (w2 k.rstDisc k.withdrawn)
  | 0x14 => some (wz k.refused)
  | 0x18 => some (wBits [k.lateFlag])
  | _ =>
    if 0x1000 ≤ off ∧ off < 0x3000 then
      (idx? 256 ((off - 0x1000) / 32)).map fun i => BitVec.ofNat 32 (leAt k.ent[i].bytes (off % 32) 4)
    else none

/-- What a read of the spillway block does besides. -/
def spwReadFx (off : Nat) (s : State) : State :=
  s.modSpw fun k => match off with
    | 0x04 => { k with confirmed := 0, late := 0 }
    | 0x08 => { k with expired := 0, sync := 0 }
    | 0x0C => { k with target := 0, conflict := 0 }
    | 0x10 => { k with withdrawn := 0, rstDisc := 0 }
    | 0x14 => { k with refused := 0 }
    | _ => k

/-- A write of the spillway block. -/
def spwWriteReg (off : Nat) (v : W32) (s : State) : State :=
  if off = 0x18 then s.modSpw fun k => { k with lateFlag := k.lateFlag && !bit v 0 } else s

/-! ### The Ostler (05_ostler.md R135, R136) -/

/-- Codes of USTATE and STATE. -/
def UState.code : UState → BitVec 2
  | .free => 0
  | .held => 1
  | .retired => 2

def TState.code : TState → BitVec 3
  | .free => 0
  | .wait => 1
  | .ready => 2
  | .stall => 3
  | .halt => 4
  | .stopped => 5

/-- Thread slots that can still be taken: on engines that are not retired. -/
def State.freeSlots (s : State) : Nat :=
  ((idxs 8).map fun e => if s.eng[e].retired then 0 else 8 - s.eng[e].threads.toNat).foldl (· + ·) 0

/-- Units FREE. -/
def State.freeUnits (s : State) : Nat := ((idxs 68).filter fun u => s.units[u].ust == .free).length

/-- ESTATE. -/
def Engine.state (e : Engine) : BitVec 2 := if e.retired then 2 else if e.halted then 3 else if e.doze then 1 else 0

/-- Word of the Ostler block. -/
def ostPeek (s : State) (off : Nat) : Option W32 :=
  if off = 0 then
    some (wz (BitVec.ofNat 9 s.poolFree ++ (0#1 : BitVec 1) ++ BitVec.ofNat 7 s.freeSlots ++ (0#1 : BitVec 1) ++ BitVec.ofNat 7 s.freeUnits))
  else if off = 4 then
    some (wz (BitVec.ofNat 8 ((idxs 128).filter fun i => s.frm[i].used && s.frm[i].pin).length ++ BitVec.ofNat 8 (freeFrames s).length))
  else if off = 8 then some (wz s.ost.headroom)
  else if off = 12 then some (wz (s.ost.fillErr ++ s.ost.pfCnt))
  else if 0x100 ≤ off ∧ off < 0x200 then
    (idx? 64 ((off - 0x100) / 4)).map fun l =>
      let m := s.lmap[l]
      wz (b2v 1 m.tbind ++ m.tid ++ b2v 1 m.open_ ++ m.pch)
  else if 0x200 ≤ off ∧ off < 0x310 then (idx? 68 ((off - 0x200) / 4)).map fun u => wz s.units[u].ust.code
  else if 0x800 ≤ off ∧ off < 0x840 then
    if off % 8 = 0 then
      (idx? 8 ((off - 0x800) / 8)).map fun e =>
        let g := s.eng[e]
        wz (g.state ++ g.threads ++ (0#1 : BitVec 1) ++ g.rtLoad)
    else none
  else if 0xC00 ≤ off ∧ off < 0xE00 then
    (idx? 128 ((off - 0xC00) / 4)).map fun f =>
      let k := s.frm[f]
      wz (b2v 1 k.pref ++ b2v 1 k.pin ++ b2v 1 k.valid ++ k.prog ++ k.page)
  else if 0x1000 ≤ off ∧ off < 0x1400 then
    (idx? 64 ((off - 0x1000) / 16)).map fun b =>
      let k := s.bas[b]
      match off % 16 with
      | 0 => k.wrCnt
      | 4 => k.rdCnt
      | 8 => k.word8
      | _ => k.wordC
  else if 0x2000 ≤ off ∧ off < 0x2400 then
    (idx? 64 ((off - 0x2000) / 16)).map fun t =>
      let k := s.thr[t]
      match off % 16 with
      | 0 => wz (b2v 1 k.onOvr ++ k.prog ++ (0#2 : BitVec 2) ++ k.slot ++ k.prio ++ b2v 1 k.rt ++ k.st.code)
      | 4 => w2 k.budget (k.load.zeroExtend 16)
      | 8 => wz (k.dlnCnt ++ k.evqLoss ++ BitVec.ofNat 8 k.evq.length)
      | _ => w2 k.maxCyc k.lastCyc
  else if 0x3000 ≤ off ∧ off < 0x3200 then
    (idx? 64 ((off - 0x3000) / 8)).map fun b =>
      let k := s.bas[b]
      if off % 8 = 0 then wz (b2v 1 k.open_ ++ k.policy ++ (0#1 : BitVec 1) ++ k.ceil ++ (0#1 : BitVec 1) ++ k.floor)
      else wz (k.age ++ (0#3 : BitVec 3) ++ k.thresh)
  else none

/-- What a read of the Ostler block does besides. -/
def ostReadFx (off : Nat) (s : State) : State :=
  if off = 12 then { s with ost := { s.ost with pfCnt := 0, fillErr := 0 } }
  else if 0x2000 ≤ off ∧ off < 0x2400 then
    match idx? 64 ((off - 0x2000) / 16) with
    | none => s
    | some t => s.modThr t fun k => match off % 16 with
      | 8 => { k with evqLoss := 0, dlnCnt := 0 }
      | 12 => { k with maxCyc := 0 }
      | _ => k
  else s

/-- A write of the Ostler block. -/
def ostWrite (off : Nat) (v : W32) (s : State) : State :=
  if off = 8 then { s with ost := { s.ost with headroom := fld v 0 10 } }
  else if 0x100 ≤ off ∧ off < 0x200 then
    match idx? 64 ((off - 0x100) / 4) with
    | some l => s.modLMap l fun m => { m with tid := fld v 8 6, tbind := bit v 14 }
    | none => s
  else if 0x1000 ≤ off ∧ off < 0x1400 then
    match idx? 64 ((off - 0x1000) / 16) with
    | some b => if off % 16 = 4 then (writeRdCnt b v s).1 else s
    | none => s
  else if 0x2000 ≤ off ∧ off < 0x2400 then
    match idx? 64 ((off - 0x2000) / 16) with
    | some t => s.modThr t fun k => match off % 16 with
      | 0 => { k with rt := bit v 3, prio := fld v 4 4, prog := fld v 16 4, onOvr := bit v 20 }
      | 4 => { k with load := fld v 0 10, budget := fld v 16 16 }
      | _ => k
    | none => s
  else if 0x3000 ≤ off ∧ off < 0x3200 then
    match idx? 64 ((off - 0x3000) / 8) with
    | some b =>
      resettle b (s.modBas b fun k => if off % 8 = 0 then { k with floor := fld v 0 7, ceil := fld v 8 7, policy := fld v 16 2 }
        else { k with thresh := fld v 0 13, age := fld v 16 8 })
    | none => s
  else s

/-! ### Thread contexts (07_microcode.md R187) -/

/-- Flags as word 0x084 gives them. -/
def Ctx.flagWord (c : Ctx) : W32 := wBits [c.z, c.n, c.c, c.v, c.f, c.th]

/-- Word of a context. -/
def ctxPeek (s : State) (t : Tid) (off : Nat) : Option W32 :=
  let c := s.thr[t].ctx
  if off < 0x80 then
    let g := c.getG (BitVec.ofNat 4 (off / 8))
    some (if off % 8 = 0 then fld g 0 32 else fld g 32 32)
  else match off with
    | 0x80 => some (wz c.pc)
    | 0x84 => some c.flagWord
    | 0x88 => some (wz c.tcause)
    | 0x8C => some (wz c.tpc)
    | _ => if 0x400 ≤ off then some (BitVec.ofNat 32 (memLe c.tlm (off - 0x400) 4)) else none

/-- A write of a context: only while STATE is HALT or STOPPED. -/
def ctxWrite (t : Tid) (off : Nat) (v : W32) (s : State) : State :=
  let k := s.thr[t]
  if k.st ≠ .halt ∧ k.st ≠ .stopped then s
  else
    let w := 0x100 * t.val + off / 8
    let put (f : Ctx → Ctx) : State := clearMarks 3 w w (s.modThr t fun k => { k with ctx := f k.ctx })
    if off < 0x80 then
      put fun c =>
        let r : BitVec 4 := BitVec.ofNat 4 (off / 8)
        let g := c.getG r
        c.setG r (if off % 8 = 0 then fld g 32 32 ++ v else v ++ fld g 0 32)
    else match off with
      | 0x80 => (put fun c => { c with pc := fld v 0 19 }).modThr t fun k => { k with fell := false }
      | 0x84 => put fun c => { c with z := bit v 0, n := bit v 1, c := bit v 2, v := bit v 3, f := bit v 4, th := bit v 5 }
      | _ => if 0x400 ≤ off then put fun c => { c with tlm := memPutLe c.tlm (off - 0x400) 4 v.toNat } else s

/-! ### Interrupts (15_interrupts.md R353) -/

/-- Word of the interrupt controller. -/
def irqPeek (s : State) (off : Nat) : Option W32 :=
  let q := s.irq
  if off < 0x400 then (if off = 0 ∨ off = 0x3FC then none else (idx? 256 (off / 4)).map (irqWord s))
  else if off < 0x500 then
    match idx? 256 (off - 0x400), idx? 256 (off - 0x3FF), idx? 256 (off - 0x3FE), idx? 256 (off - 0x3FD) with
    | some a, some b, some c, some d => some (q.loss[d] ++ q.loss[c] ++ q.loss[b] ++ q.loss[a])
    | _, _, _, _ => none
  else match off with
    | 0x800 => some (wz (q.gw ++ (0#2 : BitVec 2) ++ b2v 1 q.gateH ++ b2v 1 q.gateF))
    | 0x804 => some (match (if q.gateF then winnerF s else none) with | some i => BitVec.ofNat 32 i.val | none => 0)
    | 0x808 => some 0
    | 0x80C =>
      match runGroup q with
      | none => some 8
      | some g => some (wz (if g < 8 then BitVec.ofNat 3 g else (Config.noFit g).truncate 3 : BitVec 3))
    | 0x810 => some (match (if q.gateH then winnerH s else none) with | some i => BitVec.ofNat 32 i.val | none => 0)
    | 0x814 => some 0
    | 0x818 => some (wz q.activeH)
    | 0x81C => some (wBits [q.claimOrder, q.cerrF, q.cerrH])
    | _ => none

/-- What a read of the interrupt controller does besides: LOSS clears; a read of CLAIM_F claims. -/
def irqReadFx (off : Nat) (s : State) : State :=
  if 0x400 ≤ off ∧ off < 0x500 then
    { s with irq := { s.irq with loss := Vector.ofFn fun (i : Fin 256) => if i.val / 4 = (off - 0x400) / 4 then 0 else s.irq.loss[i] } }
  else if off = 0x804 then claimF false s
  else s

/-- A write of the interrupt controller; GW keeps its value at a write of 5 to 7. -/
def irqWrite (off : Nat) (v : W32) (s : State) : State :=
  let q := s.irq
  if off < 0x400 then match idx? 256 (off / 4) with | some i => writeIrqWord i v s | none => s
  else match off with
    | 0x800 => { s with irq := { q with gateF := bit v 0, gateH := bit v 1, gw := if 5 ≤ (fld v 4 3).toNat then q.gw else fld v 4 3 } }
    | 0x808 => completeF (fld v 0 8) s
    | 0x81C => { s with irq := { q with claimOrder := q.claimOrder && !bit v 0, cerrF := q.cerrF && !bit v 1, cerrH := q.cerrH && !bit v 2 } }
    | _ => s

/-! ### Reset and power, timebase, reservoir, health -/

/-- Word of the reset and power block (16_reset_power.md R375). -/
def pwrPeek (s : State) (off : Nat) : Option W32 :=
  match off with
  | 0x00 => some (wz s.pwr.cause)
  | 0x04 => some (wz (s.pwr.bootStep ++ b2v 1 s.pwr.limp ++ b2v 1 s.pwr.wakeBoot ++ s.pwr.lastLevel))
  | 0x08 => some (wz (b2v 1 s.fsh.mapLock ++ s.fsh.map))
  | 0x0C => some (wBits [s.fsh.bootSrc, s.fsh.dbgLock])
  | 0x10 => some 0
  | _ => none

/-- A write of the reset and power block. -/
def pwrWrite (off : Nat) (v : W32) (s : State) : State :=
  match off with
  | 0x00 => { s with pwr := { s.pwr with cause := s.pwr.cause &&& ~~~(fld v 0 8) } }
  | 0x10 => writeSwrst v s
  | _ => s

/-- The increment in force, in units of 2^-32 tick. -/
def Timebase.incNow (b : Timebase) : Nat := if b.refBrc then b.discInc.toNat else sscInc (sscN b.ssc b.sscStep)

/-- Word of the clock and timebase block (02_time.md R50). -/
def tbPeek (s : State) (off : Nat) : Option W32 :=
  let b := s.tb
  match off with
  | 0x00 => some (wz (b.sscPend.getD b.ssc))
  | 0x04 => some (wz (BitVec.ofNat 10 b.sscStep ++ (0#3 : BitVec 3) ++ b2v 1 s.rsv.onTrc ++ b2v 1 b.coarse ++ b2v 1 b.disc ++
                      b2v 1 b.refBrc ++ b2v 1 b.pllLock))
  | 0x08 => some (fld b.dt 0 32)
  | 0x0C => some b.dtHi
  | 0x10 => some (wz b.fineL)
  | 0x14 => some (BitVec.ofInt 32 ((b.incNow : Int) - 2 ^ 32))
  | 0x20 => some b.terrMeas
  | 0x24 => some b.trcMeas
  | 0x28 => some (wBits [b.xtalFailF, b.pllUnlockF, s.rsv.tideFail, s.rsv.trcFail, b.terrRange])
  | 0x2C => some (wz b.terrRej)
  | _ => none

/-- What a read of the timebase block does besides. -/
def tbReadFx (off : Nat) (s : State) : State :=
  match off with
  | 0x08 => { s with tb := { s.tb with dtHi := fld s.tb.dt 32 32, fineL := fld s.tb.frac 30 2 } }
  | 0x2C => { s with tb := { s.tb with terrRej := 0 } }
  | _ => s

/-- A write of SSC waits for modulation step 0; 0b11 is ignored (R23, R50). -/
def writeSsc (v : BitVec 2) (s : State) : State :=
  if v = 3#2 then s else { s with tb := { s.tb with sscPend := some v, sscAt := s.tb.dt } }

/-- A write of the timebase block. -/
def tbWrite (off : Nat) (v : W32) (s : State) : State :=
  match off with
  | 0x00 => writeSsc (fld v 0 2) s
  | 0x28 => { s with tb := { s.tb with xtalFailF := s.tb.xtalFailF && !bit v 0, pllUnlockF := s.tb.pllUnlockF && !bit v 1
                                       terrRange := s.tb.terrRange && !bit v 4 }
                     rsv := { s.rsv with tideFail := s.rsv.tideFail && !bit v 2, trcFail := s.rsv.trcFail && (!bit v 3 || s.clkHeld 3) } }
  | _ => s

/-- Retirement marks as the 16 bytes at 0x3800 of retained memory: units in bits 67:0, engines in bits 79:72 (16_reset_power.md R369).
The converters' marks, from which REPLACE cause 7 is rebuilt (17_health.md R390), are DEDUCED to stand in bits 69:68 (log entry 47). -/
def Reservoir.markBits (r : Reservoir) : BitVec 128 := (0#48 : BitVec 48) ++ r.engMarks ++ (0#2 : BitVec 2) ++ r.convMarks ++ r.unitMarks

/-- Word of the reservoir block and of retained memory (02_time.md R50, 15_interrupts.md R354, 16_reset_power.md R369, R376).
Where the spec does not lay retained memory out, the word is open. -/
def rsvPeek (s : State) (off : Nat) : Option W32 :=
  let r := s.rsv
  if off < 0x80 then (idx? 32 (off / 4)).map fun i => r.backup[i]
  else if 0x4000 ≤ off ∧ off < 0x8000 then
    if 0x7800 ≤ off ∧ off < 0x7810 then some (fld r.markBits (8 * (off - 0x7800)) 32) else some (Config.firmwareWord off s.far.free)
  else match off with
    | 0x100 => some (fld r.tide 0 32)
    | 0x104 => some (wz r.tideHiL)
    | 0x108 => some (fld r.tpDt 0 32)
    | 0x10C => some (fld r.tpDt 32 32)
    | 0x110 => some (fld r.tpTide 0 32)
    | 0x114 => some (wz (fld r.tpTide 32 16))
    | 0x118 => some (wBits [r.tpValid && !r.parityBad, r.tpSleep, r.tpSrc])
    | 0x11C => some (wBits [r.onTrc, r.tideFail, r.trcFail])
    | 0x120 => some (fld r.chgTide 0 32)
    | 0x124 => some (wz (b2v 1 r.chgValid ++ fld r.chgTide 32 16))
    | 0x128 => some (fld r.talarm 0 32)
    | 0x12C => some (wz (b2v 1 r.talarmEn ++ fld r.talarm 32 16))
    | 0x130 => some (wz s.tb.epochRun)
    | 0x200 => some (wz r.wk)
    | 0x204 => some (wz r.arm)
    | 0x208 => some (wz r.tioEdge)
    | 0x300 => some (wBits [r.deepFlag, r.vresSrc, r.resLost, r.vbakOk])
    | _ => none

/-- What a read of the reservoir block does besides. -/
def rsvReadFx (off : Nat) (s : State) : State :=
  if off = 0x100 then { s with rsv := { s.rsv with tideHiL := fld s.rsv.tide 32 16 } } else s

/-- A write of the reservoir block. Backup registers 25 and 31 are Reserved (16_reset_power.md R368). -/
def rsvWrite (off : Nat) (v : W32) (s : State) : State :=
  let r := s.rsv
  if off < 0x80 then
    match idx? 32 (off / 4) with
    | some i => if i.val = 25 ∨ i.val = 31 then s else { s with rsv := { r with backup := r.backup.set i v } }
    | none => s
  else if 0x7800 ≤ off ∧ off < 0x7810 then
    let new := setFld r.markBits (8 * (off - 0x7800)) 32 v
    clearMarks 6 ((off - 0x4000) / 8) ((off - 0x4000) / 8) { s with rsv := { r with unitMarks := fld new 0 68, convMarks := fld new 68 2, engMarks := fld new 72 8 } }
  else match off with
    | 0x11C => { s with rsv := { r with tideFail := r.tideFail && !bit v 1, trcFail := r.trcFail && (!bit v 2 || s.clkHeld 3) } }
    | 0x124 => { s with rsv := { r with chgValid := r.chgValid && !bit v 16 } }
    | 0x128 => writeTalarm false v s
    | 0x12C => writeTalarm true v s
    | 0x200 => { s with rsv := { r with wk := r.wk &&& ~~~(fld v 0 11) } }
    | 0x204 => { s with rsv := { r with arm := fld v 0 11 } }
    | 0x208 => { s with rsv := { r with tioEdge := fld v 0 16 } }
    | 0x300 => { s with rsv := { r with resLost := r.resLost && !bit v 2 } }
    | _ => s

/-- Microseconds that the watchdog has counted since its last service. -/
def State.wdtCnt (s : State) : BitVec 14 := satNat 14 (s.wdtTicks / 1600)

/-- Four bytes of a vector of counters as a word. -/
def word4 {n : Nat} (v : Vector Byte n) (i : Nat) : W32 :=
  let at_ (k : Nat) : Byte := match idx? n k with | some j => v[j] | none => 0
  at_ (i + 3) ++ at_ (i + 2) ++ at_ (i + 1) ++ at_ i

/-- Word of the health block (17_health.md R399, 03_crossings.md). -/
def hltPeek (s : State) (off : Nat) : Option W32 :=
  let h := s.hlt
  if 0x10 ≤ off ∧ off < 0x30 then (idx? 8 ((off - 0x10) / 4)).map fun m => w2 h.ue[m] h.ce[m]
  else if 0x400 ≤ off ∧ off < 0x448 then some (word4 (s.xing.map fun (x : Crossing) => x.ovrCnt) (off - 0x400))
  else
    let flags (lo n : Nat) : W32 := wBits ((List.range n).map fun i => match idx? 70 (lo + i) with | some j => s.xing[j].ovrFlag | none => false)
    match off with
    | 0x000 => some h.cause
    | 0x004 => some (wBits [h.cause != 0])
    | 0x008 => some 0
    | 0x00C => some (wz s.wdtCnt)
    | 0x040 => some (wBits [s.far.injOpen])
    | 0x050 => some (word4 h.mbBad 0)
    | 0x054 => some (word4 h.mbBad 4)
    | 0x060 => some (wz h.dtemp[0])
    | 0x064 => some (wz h.dtemp[1])
    | 0x480 => some (flags 0 32)
    | 0x484 => some (flags 32 32)
    | 0x488 => some (flags 64 6)
    | 0x48C => some (wz (s.link.retry ++ (0#7 : BitVec 7) ++ b2v 1 s.link.fault))
    | _ => none

/-- What a read of the health block does besides. -/
def hltReadFx (off : Nat) (s : State) : State :=
  if 0x10 ≤ off ∧ off < 0x30 then
    match idx? 8 ((off - 0x10) / 4) with
    | some m => { s with hlt := { s.hlt with ce := s.hlt.ce.set m 0, ue := s.hlt.ue.set m 0 } }
    | none => s
  else if 0x400 ≤ off ∧ off < 0x448 then
    { s with xing := Vector.ofFn fun (i : Fin 70) => if i.val / 4 = (off - 0x400) / 4 then { s.xing[i] with ovrCnt := 0 } else s.xing[i] }
  else
    let clear (lo : Nat) : State :=
      { s with hlt := { s.hlt with mbBad := Vector.ofFn fun (i : Fin 8) => if i.val / 4 = lo then 0 else s.hlt.mbBad[i] } }
    match off with
    | 0x050 => clear 0
    | 0x054 => clear 1
    | 0x48C => { s with link := { s.link with retry := 0 } }
    | _ => s

/-- A write of the health block. -/
def hltWrite (off : Nat) (v : W32) (s : State) : State :=
  let w1c (lo : Nat) : State :=
    { s with xing := Vector.ofFn fun (i : Fin 70) =>
        if lo ≤ i.val ∧ i.val < lo + 32 ∧ bit v (i.val - lo) then { s.xing[i] with ovrFlag := false } else s.xing[i] }
  match off with
  | 0x008 => if fld v 0 8 = 0x5A#8 ∧ fld v 8 24 = 0#24 then wdtService s else s
  | 0x480 => w1c 0
  | 0x484 => w1c 32
  | 0x488 => w1c 64
  | 0x48C => { s with link := { s.link with fault := s.link.fault && !bit v 0 } }
  | _ => s

/-! ### The map -/

/-- A block of the internal map. -/
inductive Block where
  | ctx (t : Tid)
  | unit (u : UnitId)
  | tio (k : Fin 40)
  | har (h : HarnessId)
  | gt (n : Fin 2)
  | prb
  | spw
  | ost
  | bmem
  | irq
  | pwr
  | tb
  | hlt
  | rsv
deriving DecidableEq, Repr

/-- The block an address lies in, and the offset there; none where no block is. -/
def blockOf (a : W32) : Option (Block × Nat) :=
  let n := a.toNat
  if n % 4 ≠ 0 then none
  else if 0x12000000 ≤ n ∧ n < 0x12020000 then (idx? 64 ((n - 0x12000000) / 0x800)).map fun t => (.ctx t, n % 0x800)
  else if 0x20000000 ≤ n ∧ n < 0x20004400 then (idx? 68 ((n - 0x20000000) / 0x100)).map fun u => (.unit u, n % 0x100)
  else if 0x20004400 ≤ n ∧ n < 0x200044A0 then (idx? 40 ((n - 0x20004400) / 4)).map fun k => (.tio k, 0)
  else if 0x21000000 ≤ n ∧ n < 0x21001000 then (idx? 16 ((n - 0x21000000) / 0x100)).map fun h => (.har h, n % 0x100)
  else if 0x22000000 ≤ n ∧ n < 0x22000200 then (idx? 2 ((n - 0x22000000) / 0x100)).map fun g => (.gt g, n % 0x100)
  else if 0x23000000 ≤ n ∧ n < 0x23000480 then some (.prb, n - 0x23000000)
  else if 0x24000000 ≤ n ∧ n < 0x24003000 then some (.spw, n - 0x24000000)
  else if 0x25000000 ≤ n ∧ n < 0x25003200 then some (.ost, n - 0x25000000)
  else if 0x30000000 ≤ n ∧ n < 0x30040000 then some (.bmem, n - 0x30000000)
  else if 0x40000000 ≤ n ∧ n < 0x40000820 then some (.irq, n - 0x40000000)
  else if 0x41000000 ≤ n ∧ n < 0x41000014 then some (.pwr, n - 0x41000000)
  else if 0x42000000 ≤ n ∧ n < 0x42000030 then some (.tb, n - 0x42000000)
  else if 0x43000000 ≤ n ∧ n < 0x43000490 then some (.hlt, n - 0x43000000)
  else if 0x50000000 ≤ n ∧ n < 0x50008000 then some (.rsv, n - 0x50000000)
  else none

/-- The value of a word, read without side effect (R9); none at an address that names no register. -/
def busPeek (s : State) (a : W32) : Option W32 :=
  match blockOf a with
  | none => none
  | some (b, off) =>
    match b with
    | .ctx t => ctxPeek s t off
    | .unit u => unitPeek s u off
    | .tio k => some s.tio[k]
    | .har h => harPeek s h off
    | .gt n => gtPeek s n off
    | .prb => prbPeek s off
    | .spw => spwPeek s off
    | .ost => ostPeek s off
    | .bmem => some (BitVec.ofNat 32 (memLe s.bmem off 4))
    | .irq => irqPeek s off
    | .pwr => pwrPeek s off
    | .tb => tbPeek s off
    | .hlt => hltPeek s off
    | .rsv => rsvPeek s off

/-- What a read of a word by the Farrier does besides: high words latch, RC fields clear, FULL bits clear, CLAIM_F claims; a
memory word with an error reports it. -/
def busReadFx (a : W32) (s : State) : State :=
  match blockOf a with
  | none => s
  | some (b, off) =>
    match b with
    | .ctx t => readWord 3 (BitVec.ofNat 24 (0x100 * t.val + off / 8)) s
    | .unit u => unitReadFx u off s
    | .tio _ => s
    | .har h => harReadFx h off s
    | .gt n => gtReadFx n off s
    | .prb => prbReadFx off s
    | .spw => if 0x1000 ≤ off then readWord 5 (BitVec.ofNat 24 ((off - 0x1000) / 8)) s else spwReadFx off s
    | .ost => ostReadFx off s
    | .bmem => readWord 4 (BitVec.ofNat 24 (off / 8)) s
    | .irq => irqReadFx off s
    | .pwr => s
    | .tb => tbReadFx off s
    | .hlt => hltReadFx off s
    | .rsv => if 0x4000 ≤ off then readWord 6 (BitVec.ofNat 24 ((off - 0x4000) / 8)) s else rsvReadFx off s

/-- A write of a word by the Farrier or the debug port. -/
def busWrite (a v : W32) (s : State) : State :=
  match blockOf a with
  | none => s
  | some (b, off) =>
    match b with
    | .ctx t => ctxWrite t off v s
    | .unit u => unitWrite u off v s
    | .tio k => writeTio k v s
    | .har h => harWrite h off v s
    | .gt n => gtWrite n off v s
    | .prb => prbWrite off v s
    | .spw => spwWriteReg off v s
    | .ost => ostWrite off v s
    | .bmem => clearMarks 4 (off / 8) (off / 8) { s with bmem := memPutLe s.bmem off 4 v.toNat }
    | .irq => irqWrite off v s
    | .pwr => pwrWrite off v s
    | .tb => tbWrite off v s
    | .hlt => hltWrite off v s
    | .rsv => rsvWrite off v s

end Sys2Proof.Machine
end

