-- ==== Sys2Proof/Machine/Bus.lean ====
section
/-! DEFINITION. The commands on the internal bus, the dispatch of events from the crossings, and the die-to-die link
(00_scope.md R8 to R13; 03_crossings.md R53, R57 to R59; 05_ostler.md R112). -/

namespace Sys2Proof.Machine

/-! ### Register accesses -/

/-- The address names a register. -/
def State.mapped (s : State) (a : W32) : Bool := (busPeek s a).isSome

/-- The RC counters of a word that were incremented in the cycle of the read that cleared them hold 1 (R13): bit `i` of `inc`
names the word's counter number `i`, the lowest first. A MAX_CYC that was updated in that cycle keeps the update `max`. -/
def rcHeldOne (a : W32) (inc : BitVec 4) (max : W16) (s : State) : State :=
  let one {w : Nat} (i : Nat) (v : BitVec w) : BitVec w := if bit inc i then 1#w else v
  let word {n : Nat} (v : Vector Byte n) (lo : Nat) : Vector Byte n :=
    Vector.ofFn fun (i : Fin n) => if lo ≤ i.val ∧ i.val < lo + 4 then one (i.val - lo) v[i] else v[i]
  match blockOf a with
  | some (.unit u, 0x54) => s.modUnit u fun c => { c with cap := { c.cap with rej := one 0 c.cap.rej } }
  | some (.unit u, 0x58) => s.modUnit u fun c => { c with cap := { c.cap with ovrcnt := one 0 c.cap.ovrcnt } }
  | some (.unit u, 0x84) => s.modUnit u fun c => { c with hl := { c.hl with ceCnt := one 0 c.hl.ceCnt } }
  | some (.har h, 0x68) => s.modHar h fun k => { k with deferCnt := one 0 k.deferCnt, cancelCnt := one 1 k.cancelCnt }
  | some (.har h, 0x6C) => s.modHar h fun k => { k with openCnt := one 0 k.openCnt }
  | some (.gt n, 0x44) => s.modGt n fun k => { k with noiseCnt := one 0 k.noiseCnt, missedCnt := one 1 k.missedCnt }
  | some (.gt n, 0x48) => s.modGt n fun k => { k with lossCnt := one 0 k.lossCnt }
  | some (.spw, 0x04) => s.modSpw fun k => { k with confirmed := one 0 k.confirmed, late := one 1 k.late }
  | some (.spw, 0x08) => s.modSpw fun k => { k with expired := one 0 k.expired, sync := one 1 k.sync }
  | some (.spw, 0x0C) => s.modSpw fun k => { k with target := one 0 k.target, conflict := one 1 k.conflict }
  | some (.spw, 0x10) => s.modSpw fun k => { k with withdrawn := one 0 k.withdrawn, rstDisc := one 1 k.rstDisc }
  | some (.spw, 0x14) => s.modSpw fun k => { k with refused := one 0 k.refused }
  | some (.tb, 0x2C) => { s with tb := { s.tb with terrRej := one 0 s.tb.terrRej } }
  | some (.ost, off) =>
    if off = 12 then { s with ost := { s.ost with pfCnt := one 0 s.ost.pfCnt, fillErr := one 1 s.ost.fillErr } }
    else if 0x2000 ≤ off ∧ off < 0x2400 then
      match idx? 64 ((off - 0x2000) / 16), off % 16 with
      | some t, 8 => s.modThr t fun k => { k with evqLoss := one 0 k.evqLoss, dlnCnt := one 1 k.dlnCnt }
      | some t, 12 => s.modThr t fun k => { k with maxCyc := if bit inc 0 then max else k.maxCyc }
      | _, _ => s
    else s
  | some (.irq, off) =>
    if 0x400 ≤ off ∧ off < 0x500 then { s with irq := { s.irq with loss := word s.irq.loss (off - 0x400) } } else s
  | some (.hlt, off) =>
    if 0x10 ≤ off ∧ off < 0x30 then
      match idx? 8 ((off - 0x10) / 4) with
      | some m => { s with hlt := { s.hlt with ce := s.hlt.ce.set m (one 0 s.hlt.ce[m]), ue := s.hlt.ue.set m (one 1 s.hlt.ue[m]) } }
      | none => s
    else if 0x400 ≤ off ∧ off < 0x448 then
      forEach (idxs 4) (fun i s => match idx? 70 (off - 0x400 + i.val) with
        | some x => s.modXing x fun k => { k with ovrCnt := one i.val k.ovrCnt }
        | none => s) s
    else match off with
      | 0x50 => { s with hlt := { s.hlt with mbBad := word s.hlt.mbBad 0 } }
      | 0x54 => { s with hlt := { s.hlt with mbBad := word s.hlt.mbBad 4 } }
      | 0x48C => { s with link := { s.link with retry := one 0 s.link.retry } }
      | _ => s
  | _ => s

/-- LO_WORD_LATCH_READ (R93, R101, R50, R255, R271). -/
def execLoWordLatchRead (addr : W32) (s : State) : Out :=
  if s.mapped addr then .next (busReadFx addr s) else .fault (.noRegister addr)

/-- CAP_HI_READ (04_channels.md R93). -/
def execCapHiRead (u : UnitId) (fall : Bool) (s : State) : Out := .next (s.modUnit u fun c => c.readCapHi fall)

/-- PW_READ (04_channels.md R93). -/
def execPwRead (u : UnitId) (s : State) : Out := .next (s.modUnit u fun c => c.readPw)

/-- RC_FIELD_READ (R8, R13). -/
def execRcFieldRead (addr : W32) (inc : BitVec 4) (max : W16) (s : State) : Out :=
  if s.mapped addr then .next (rcHeldOne addr inc max (busReadFx addr s))
  else .fault (.noRegister addr)

/-- RATIO_READ (11_probes.md R271). -/
def execRatioRead (p : Fin 16) (s : State) : Out := .next (s.modPrb p fun r => { r with full := false })

/-- The W1C bits of a word (R8). -/
def w1cBits (a : W32) : W32 :=
  match blockOf a with
  | some (.unit _, 0x50) => 0x7FF
  | some (.har _, 0x60) => 0xFFFFFFFF
  | some (.gt _, 0x40) => 0x3F
  | some (.prb, off) => if off < 0x100 then (if off % 0x80 = 0 then 0x1000 else 0) else if off < 0x400 ∧ off % 0x20 = 0x14 then 0x1E else 0
  | some (.spw, 0x18) => 1
  | some (.irq, 0x81C) => 7
  | some (.pwr, 0x00) => 0xFF
  | some (.tb, 0x28) => 0x1F
  | some (.hlt, 0x480) | some (.hlt, 0x484) => 0xFFFFFFFF
  | some (.hlt, 0x488) => 0x3F
  | some (.hlt, 0x48C) => 1
  | some (.rsv, 0x11C) => 6
  | some (.rsv, 0x124) => 0x10000
  | some (.rsv, 0x200) => 0x7FF
  | some (.rsv, 0x300) => 4
  | _ => 0

/-- REGISTER_WRITE (R8, R11, R12, R56): a W1C bit that hardware sets in the cycle of the write (`hw`) stays set. -/
def execRegisterWrite (addr v hw : W32) (s : State) : Out :=
  if s.mapped addr then .next (busWrite addr (v &&& ~~~(hw &&& w1cBits addr)) s) else .fault (.noRegister addr)

/-! ### Event dispatch (05_ostler.md R112) -/

/-- The Ostler runs: ENG is clocked. -/
def State.engClock (s : State) : Bool := s.rootRuns && s.pwr.phase != .wakeReseeded

/-- The capture mirror takes what a capture event carries (07_microcode.md R166). -/
def Mirror.take (m : Mirror) (e : XEv) : Mirror :=
  match e.what.toNat with
  | 3 => { val := m.val.set 0 e.stamp, fresh := setBit m.fresh 0 true }
  | 4 => { val := m.val.set 1 e.stamp, fresh := setBit m.fresh 1 true }
  | 5 =>
    let m1 : Mirror := { val := ((m.val.set 0 e.stamp).set 1 e.capf).set 2 (e.pw.zeroExtend 48), fresh := m.fresh ||| 7 }
    match e.prdm with
    | some v => { val := m1.val.set 3 (v.zeroExtend 48), fresh := m1.fresh ||| 8 }
    | none => m1
  | _ => m

/-- The record of a channel post (05_ostler.md R131). -/
def XEv.record (e : XEv) : Rec :=
  { time := e.stamp, kind := e.what.zeroExtend 8 + 1, src := e.lch.zeroExtend 8, flags := e.rflags, aux := 0,
    data := if e.what = 2 ∨ e.what = 5 then e.pw else 0 }

/-- A capture selector of the spillway is met by an event (06_spillway.md R140). -/
def XEv.meets (e : XEv) (carg : W16) : Bool :=
  match carg.toNat with
  | 0 => e.what == 3
  | 1 => e.what == 4
  | 2 => e.what == 3 || e.what == 4
  | 3 => e.what == 5
  | _ => false

/-- A capture event reaches the spillway, with the stamp of R141. -/
def captureConfirm (e : XEv) (s : State) : State :=
  if e.what.toNat < 3 then s
  else confirmWhere (fun k => k.ckind == 2 && k.csrc.toNat == e.lch.toNat && e.meets k.carg) (if e.what = 5 then e.capf else e.stamp) s

/-- A rising capture on the secondary channel of a tracker in pulse mode counts (10_gait.md R241). -/
def secondaryPulse (e : XEv) (n : Fin 2) (s : State) : State :=
  if (e.what = 3 ∨ e.what = 5) ∧ s.gt[n].sec = 2 ∧ s.gt[n].gs ≠ .off ∧ s.gt[n].secCh.val = e.lch.toNat then
    s.modGt n fun k => { k with pulses := satInc k.pulses }
  else s

/-- Every capture event of the wheel channel goes to its tracker (10_gait.md R232, R234). -/
def toTracker (e : XEv) (n : Fin 2) (s : State) : State :=
  if 3 ≤ e.what.toNat ∧ s.gt[n].gs ≠ .off ∧ s.gt[n].wheelCh.val = e.lch.toNat then
    s.modGt n fun k => { k with inbox := k.inbox ++ [e] }
  else s

/-- A capture on a phase channel of a bridge is a back-EMF crossing for its program (09_motion.md R220). -/
def phaseCrossing (e : XEv) (h : HarnessId) (s : State) : State :=
  let k := s.har[h]
  if k.mot.prog = .bridge ∧ (e.what = 3 ∨ e.what = 4) then
    match (List.range 3).find? fun p => (k.memberCh p).map (·.val) == some e.lch.toNat with
    | some p => bemfCrossing h p (e.what == 3) e.stamp s
    | none => s
  else s

/-- Route one event (R112): mirror, spillway, thread, basin, trackers and motion. -/
def dispatch (e : XEv) (s : State) : State :=
  if e.what.toNat > 5 then s
  else
    let l : Lch := bvFin 64 rfl e.lch
    let m := s.lmap[l]
    let s := s.modLMap l fun m => { m with mir := m.mir.take e }
    let s := captureConfirm e s
    let s := if m.open_ && m.tbind then
        let tid : Tid := bvFin 64 rfl m.tid
        let s := s.modEng (slotEng s.thr[tid].slot) fun g => { g with doze := false }
        enqueue tid { kind := 1, src := e.lch.zeroExtend 8, arg := e.what.zeroExtend 16, data := if e.what = 5 then e.pw else 0, time := e.stamp } s
      else s
    let s := match e.post with | some b => postBasin (bvFin 64 rfl b) e.record s | none => s
    let s := toTracker e 1 (toTracker e 0 (secondaryPulse e 1 (secondaryPulse e 0 s)))
    forEach (idxs 16) (phaseCrossing e) s

/-- An L2 reset is held, or its restart has not placed the threads again. -/
def State.unplaced (s : State) : Bool := s.pwr.restart || (s.pwr.phase == .held && s.pwr.level == 2#2)

/-- An event wakes a thread. -/
def wakesThread (s : State) (e : XEv) : Bool :=
  let m := s.lmap[(bvFin 64 rfl e.lch : Lch)]
  decide (e.what.toNat ≤ 5) && m.open_ && m.tbind

/-- The event has been in its FIFO for `n` ENG cycles, of 16 fines (03_crossings.md R53). -/
def XEv.inFor (e : XEv) (n : Nat) (now : Instant) : Bool := decide (e.at_.toNat + 16 * n ≤ now.toNat) || decide (now.toNat < e.at_.toNat)

/-- An event of crossing `x` waits, none of its channel's old unit goes before it (17_health.md R387), and it is no wake that
an L2 reset holds in its crossing (R134). -/
def dispatchDue (s : State) (x : Fin 70) : Bool :=
  match s.xing[x].fifo with
  | [] => false
  | e :: _ => s.engClock && !(s.unplaced && wakesThread s e) && !(idxs 68).any fun u =>
      u.val != x.val && s.units[u].ust == .retired && s.xing[(⟨u.val, by omega⟩ : Fin 70)].fifo.any fun o => o.lch == e.lch

/-- Take the oldest event of a crossing. -/
def takeEvent (x : Fin 70) (s : State) : State :=
  match s.xing[x].fifo with
  | [] => s
  | e :: r =>
    let seen := if sameEng s.ost.dispAt s.now then s.ost.dispSeen else []
    let x7 := BitVec.ofNat 7 x.val
    dispatch e { (s.modXing x fun k => { k with fifo := r }) with
      ost := { s.ost with dispFrom := x7, dispAt := s.now, dispSeen := x7 :: seen } }

/-- The Ostler serves crossing `x` now: its head has been in for 2 ENG cycles, this ENG cycle has taken fewer than 4 events and none
from `x`, and no crossing that comes before it in the round has an event that must have arrived, 3 ENG cycles after it entered. -/
def dispatchTurn (s : State) (x : Fin 68) : Bool :=
  let seen := if sameEng s.ost.dispAt s.now then s.ost.dispSeen else []
  let head (y : Fin 68) (n : Nat) : Bool :=
    dispatchDue s ⟨y.val, by omega⟩ && (match s.xing[(⟨y.val, by omega⟩ : Fin 70)].fifo with | e :: _ => e.inFor n s.now | [] => false) &&
    !seen.contains (BitVec.ofNat 7 y.val)
  let pos (y : Fin 68) : Nat := (y.val + 135 - s.ost.dispFrom.toNat) % 68
  head x 2 && decide (seen.length < 4) && !(idxs 68).any fun y => decide (pos y < pos x) && head y 3

/-- EVENT_DISPATCH (R112). A tracker classifies the capture it is handed at GAIT_EDGE. -/
def execEventDispatch (t : Instant) (x : Fin 68) (s : State) : Out :=
  event t (fun s => dispatchTurn s x) (takeEvent ⟨x.val, by omega⟩) s

/-! ### The die-to-die link (03_crossings.md R57 to R59) -/

/-- LINK_WRITE_FRAME (R57): the oldest write on its way reaches the P-die. -/
def execLinkWriteFrame (s : State) : Out :=
  .next (
    match s.link.queue with
    | [] => s
    | (a, v) :: r =>
      let s1 := { s with link := { s.link with queue := r, tries := 0 } }
      match blockOf a with
      | some (.har h, off) => cfgStep (harRefused s1 h off v) (harConfig h off v s1)
      | _ => cfgStep false s1)

/-- Failures so far of a frame: the write at the head of the queue (`own`), or another frame (R58). -/
def LinkBlk.failed (l : LinkBlk) (own : Bool) : Nat := if l.tryOwn = own then l.tries else 0

/-- LINK_FRAME_CRC_FAIL (R58): three repeats, then LINK_FAULT; the frame is not sent again. -/
def execLinkFrameCrcFail (t : Instant) (own : Bool) (s : State) : Out :=
  event t (fun s => !own || !s.link.queue.isEmpty)
    (fun s =>
      if s.link.failed own < 3 then
        { s with link := { s.link with tries := s.link.failed own + 1, tryOwn := own, retry := satInc s.link.retry } }
      else
        let s1 := linkFault { s with link := { s.link with tries := 0, queue := if own then s.link.queue.drop 1 else s.link.queue } }
        if own then cfgStep true s1 else s1) s

/-- A switch or PWM member's last window was long enough for OPEN: 20 µs after TBLANK (08_power_harnesses.md R207, DEDUCED: the time
after TBLANK is what the condition counts). -/
def openDue (s : State) (h : HarnessId) (m : Fin 4) (sense : BitVec 10) : Bool :=
  let k := s.har[h]
  k.kind == 1#3 && fld k.mem[m].w0 0 2 != 1#2 && decide (k.blank + 128000 ≤ k.mem[m].winLen.toNat) &&
  decide (sense.toNat < (fld k.mem[m].w1 8 8).toNat)

/-- The P-die has a flag to send for the harness: the one of its cut, or OPEN of a member's window that has ended (R207). -/
def flagDue (s : State) (h : HarnessId) (code member : Byte) (sense : BitVec 10) : Bool :=
  s.har[h].flag == some (code, member, sense) ||
  (code == 8 && match idx? 4 member.toNat with | some m => openDue s h m sense | none => false)

/-- FAULT_FRAME (R59; 08_power_harnesses.md R207 to R209). -/
def execFaultFrame (t : Instant) (h : HarnessId) (code : Byte) (member : Byte) (sense : BitVec 10) (s : State) : Out :=
  event t (fun s => s.har[h].power && flagDue s h code member sense)
    (fun s =>
      let s1 := { s with link := { s.link with silent := false, tries := if s.link.tryOwn then s.link.tries else 0 } }
      faultHarness code member sense h (s1.modHar h fun k =>
        { k with mem := if code = 8 then vmod k.mem (bvFin 4 rfl (fld member 0 2)) fun x => { x with winLen := 0 } else k.mem })) s

end Sys2Proof.Machine
end

