-- ==== Sys2Proof/Machine/HostOps.lean ====
section
/-! DEFINITION. The host link: the status word and BSY, the host address space, the checks of a frame, what each frame does
and answers (13_host_link.md R288 to R304). A frame is the bytes of SDI from CSN low to CSN high; `bad` tells that CSN cut
a byte or that the host FIFO overran (R61, R290). -/

namespace Sys2Proof.Machine

/-! ### The status word (R294, R295, R303) -/

/-- A boot is in progress (R303). -/
def State.booting (s : State) : Bool :=
  s.pwr.phase == .bootWait || s.pwr.phase == .bootHalt || (s.pwr.phase == .held && s.pwr.level != 2#2)

/-- The Farrier is not running: a debug halt, or a restart after L2 (R303). -/
def State.fHalt (s : State) : Bool := s.far.halted || s.pwr.restart || (s.pwr.phase == .held && s.pwr.level == 2#2)

/-- A basin selected in BASIN_MASK asserts its threshold source. -/
def State.basinAttn (s : State) : Bool := (idxs 64).any fun b => bit s.host.basinMask b.val && s.bas[b].thrOn

/-- The status word, live (R303). BOOT and BOOT_FAIL are never set together. -/
def statusWord (s : State) : W16 :=
  b2v 1 (s.booting && !s.pwr.limp) ++ b2v 1 s.pwr.limp ++ b2v 1 (s.hlt.cause != 0) ++ b2v 1 s.host.hostLost ++ b2v 1 s.host.crcErr ++
  b2v 1 s.fHalt ++ b2v 1 (irqH s) ++ b2v 1 s.basinAttn ++ s.host.replyRdy

/-- The link serves frames: PER is clocked and no L1 or L0 reset is asserted (R294, R302; 18_debug.md R412). -/
def State.serving (s : State) : Bool :=
  match s.pwr.phase with
  | .run | .sleepEntry | .bootWait | .bootHalt => true
  | .held => s.pwr.level == 2#2
  | _ => false

/-- BSY while CSN is high: the attention reasons, or the pull-up (R295). -/
def attention (s : State) : Bool :=
  if !s.serving then true
  else
    let w := statusWord s
    let en := s.host.attnEn
    bit w 15 || bit w 14 || (bit en 0 && fld w 0 8 != 0#8) || (bit en 1 && bit w 9) || (bit en 2 && bit w 8) ||
    (bit en 3 && bit w 12) || (bit en 4 && bit w 13)

/-! ### The host address space (R292, R297, R300, R304) -/

/-- A region of the host address space, with its base and its size. -/
inductive HostReg where
  | regs
  | request (r : MailboxId)
  | reply (r : MailboxId)
  | window
  | desc (b : BasinId)
deriving DecidableEq, Repr

/-- The region that holds `n` bytes from a host address, when one region holds them all. -/
def hostRegion (a n : Nat) : Option HostReg :=
  let fits (lo size : Nat) : Bool := decide (lo ≤ a) && decide (a + n ≤ lo + size)
  if fits 0 0x100 then some .regs
  else if fits 0x10000 0x40000 then some .window
  else
    match (idxs 8).find? fun r => fits (0x1000 + 0x100 * r.val) 0x100 with
    | some r => some (.request r)
    | none =>
      match (idxs 8).find? fun r => fits (0x2000 + 0x100 * r.val) 0x100 with
      | some r => some (.reply r)
      | none => (if fits 0x50000 0x400 then (idxs 64).find? fun b => decide (0x50000 + 16 * b.val ≤ a) && decide (a < 0x50010 + 16 * b.val) else none).map .desc

/-- Word of a host-interface register (R304). -/
def hostReg (s : State) (off : Nat) : W32 :=
  let h := s.host
  match off with
  | 0x00 => (statusWord s).zeroExtend 32
  | 0x04 => 0x26408C3F
  | 0x08 => (b2v 1 h.hostLost ++ b2v 1 h.mbErr ++ b2v 1 h.dbErr ++ b2v 1 h.addrErr ++ b2v 1 h.crcErr : BitVec 5).zeroExtend 32
  | 0x0C => h.crcCnt.zeroExtend 32
  | 0x10 => h.attnEn.zeroExtend 32
  | 0x14 => h.reqBusy.zeroExtend 32
  | 0x18 => h.replyRdy.zeroExtend 32
  | 0x1C => (b2v 1 h.hwdAct ++ h.hwdTo : BitVec 9).zeroExtend 32
  | 0x20 => s.irq.activeH.zeroExtend 32
  | 0x24 => h.musterSeq
  | 0x28 => fld h.basinMask 0 32
  | 0x2C => fld h.basinMask 32 32
  | _ => 0

/-- The 16 bytes of a basin descriptor (05_ostler.md R136). -/
def descBytes (k : Basin) : List Byte :=
  leBytes 4 k.wrCnt.toNat ++ leBytes 4 k.rdCnt.toNat ++ leBytes 4 k.word8.toNat ++ leBytes 4 k.wordC.toNat

/-- Bytes of the host registers from an offset. -/
def regBytes (s : State) : Nat → Nat → List Byte
  | _, 0 => []
  | off, n + 1 => leBytes 4 (hostReg s off).toNat ++ regBytes s (off + 4) n

/-- The bytes of a read from a region; the descriptors are a row of 16-byte blocks. -/
def hostRead (s : State) (r : HostReg) (a n : Nat) : List Byte :=
  match r with
  | .regs => regBytes s a (n / 4)
  | .request _ | .reply _ => memBytes s.host.mb a n
  | .window => memBytes s.bmem (a - 0x10000) n
  | .desc _ => (((idxs 64).flatMap fun b => descBytes s.bas[b]).drop (a - 0x50000)).take n

/-- What a read does besides: CRC_CNT clears, and words of basin memory that read with an error are reported (17_health.md
R379). -/
def hostReadFx (r : HostReg) (a n : Nat) (s : State) : State :=
  match r with
  | .regs => if a ≤ 0x0C ∧ 0x0C < a + n then { s with host := { s.host with crcCnt := 0 } } else s
  | .window =>
    let lo := (a - 0x10000) / 8
    let hi := (a - 0x10000 + n + 7) / 8
    forEach ((List.range (hi - lo)).map (lo + ·)) (fun w => readWord 4 (BitVec.ofNat 24 w)) s
  | _ => s

/-! ### Writes (R293, R298, R301, R304) -/

/-- Release of replies: each mailbox of the mask that is REPLIED becomes FREE (R297). The release of a RESET's reply applies
the reset (14_farrier_commands.md R323). -/
def releaseReplies (mask : Byte) (s : State) : State :=
  let due := s.far.rstPend && !s.far.halted && bit (s.host.replyRdy &&& mask) s.far.rstMb.toNat
  let s1 := { s with host := { s.host with replyRdy := s.host.replyRdy &&& ~~~mask } }
  if due then assertReset .sw s1 else s1

/-- A write of HWD_TO: the count restarts (R301). -/
def writeHwd (v : W32) (s : State) : State :=
  { s with host := { s.host with hwdTo := fld v 0 8, hwdAct := bit v 8, hwdAt := s.tb.dt } }

/-- A write of 1 to HOST_LOST: it clears and the count restarts (R301). -/
def clearHostLost (s : State) : State := { s with host := { s.host with hostLost := false, hwdAt := s.tb.dt } }

/-- A write of a host-interface register; read-only fields keep their values. -/
def writeHostReg (off : Nat) (v : W32) (s : State) : State :=
  let h := s.host
  match off with
  | 0x08 =>
    let s1 := { s with host := { h with
      crcErr := h.crcErr && !bit v 0, addrErr := h.addrErr && !bit v 1, dbErr := h.dbErr && !bit v 2, mbErr := h.mbErr && !bit v 3 } }
    if bit v 4 then clearHostLost s1 else s1
  | 0x10 => { s with host := { h with attnEn := fld v 0 5 } }
  | 0x18 => releaseReplies (fld v 0 8) s
  | 0x1C => writeHwd v s
  | 0x28 => { s with host := { h with basinMask := fld h.basinMask 32 32 ++ v } }
  | 0x2C => { s with host := { h with basinMask := v ++ fld h.basinMask 0 32 } }
  | _ => s

/-- Whole words of a write, lowest address first. -/
def writeHostWords : Nat → List Byte → State → State
  | off, b0 :: b1 :: b2 :: b3 :: r, s => writeHostWords (off + 4) r (writeHostReg off (BitVec.ofNat 32 (ofLe [b0, b1, b2, b3])) s)
  | _, _, s => s

/-- A write is refused with ADDR_ERR (R292). -/
def writeRefused (a n : Nat) : Bool :=
  match hostRegion a n with
  | none => true
  | some .regs => a % 4 != 0 || n % 4 != 0
  | some (.request _) => false
  | some (.reply _) => true
  | some .window => true
  | some (.desc b) => !(a == 0x50004 + 16 * b.val && n == 4)

/-- A checked write applies (R293): a request mailbox that is PENDING is not written, with MB_ERR (R298). -/
def applyWrite (a : Nat) (data : List Byte) (s : State) : State :=
  match hostRegion a data.length with
  | some .regs => writeHostWords a data s
  | some (.request r) =>
    if bit s.host.reqBusy r.val then { s with host := { s.host with mbErr := true } }
    else { s with host := { s.host with mb := memPut s.host.mb a data } }
  | some (.desc b) => (writeRdCnt b (BitVec.ofNat 32 (ofLe data)) s).1
  | _ => s

/-- The writes that wait apply in frame order (R293). -/
def flushWrites (s : State) : State :=
  let l := s.host.stage
  forEach l (fun (a, d) => applyWrite a.toNat d) { s with host := { s.host with stage := [] } }

/-! ### Doorbells (R297, R298) -/

/-- A doorbell: a FREE mailbox becomes PENDING and source 173 + r is raised; any other sets DB_ERR. -/
def doorbell (r : MailboxId) (s : State) : State :=
  if bit s.host.reqBusy r.val || bit s.host.replyRdy r.val then { s with host := { s.host with dbErr := true } }
  else
    pulse ⟨173 + r.val, by omega⟩ { s with host := { s.host with
      reqBusy := setBit s.host.reqBusy r.val true, taken := setBit s.host.taken r.val false
      order := s.host.order ++ [BitVec.ofNat 3 r.val] } }

/-! ### Frames (R288 to R293) -/

/-- The 24-bit address of a frame. -/
def frameAddr (l : List Byte) : Nat := ofBe ((l.drop 1).take 3)

/-- The length that a frame's layout gives, where its CMD has a fixed one; a write has 6 to 261 bytes (R288). -/
def frameLen (l : List Byte) : Option Nat :=
  match (byteAt l 0).toNat with
  | 0xA0 => some 5
  | 0xA1 => some (8 + (byteAt l 4).toNat)
  | 0xA4 => some 7
  | 0xA5 => some 6
  | 0xA6 => some 6
  | _ => none

/-- Bytes ahead of the frame's CRC. -/
def crcAt (l : List Byte) : Nat :=
  match (byteAt l 0).toNat with
  | 0xA0 => 4
  | 0xA1 => 5
  | 0xA4 => 4
  | 0xA5 => 5
  | 0xA6 => 5
  | _ => l.length - 1

/-- CMD is one of R288. -/
def knownCmd (c : Byte) : Bool := decide (0xA0 ≤ c.toNat) && decide (c.toNat ≤ 0xA6) && c.toNat != 0xA3

/-- The frame is discarded for its bytes: its CRC fails, or its length is not its layout's (R290). -/
def frameBroken (l : List Byte) : Bool :=
  (match frameLen l with
   | some n => l.length != n
   | none => (byteAt l 0).toNat == 0xA2 && !(decide (6 ≤ l.length) && decide (l.length ≤ 261))) ||
  crc8 (l.take (crcAt l)) != byteAt l (crcAt l)

/-- The bytes on SDO: the status word, its CRC, zeros, and data from an offset. -/
def sdoBytes (snap : W16) (n off : Nat) (data : List Byte) : List Byte :=
  let st := [fld snap 8 8, fld snap 0 8]
  let l := st ++ [crc8 st] ++ List.replicate (off - 3) 0 ++ data
  (l ++ List.replicate (n - l.length) 0).take n

/-- Bytes of data with their CRC. -/
def withCrc (l : List Byte) : List Byte := l ++ [crc8 l]

/-- The zero answer of a read or claim that has no effect. -/
def zeroAnswer (l : List Byte) : Nat × List Byte :=
  match (byteAt l 0).toNat with
  | 0xA1 => (6, withCrc (List.replicate ((byteAt l 4).toNat + 1) 0))
  | 0xA4 => (5, withCrc [0])
  | _ => (3, [])

/-- Answer a frame. -/
def answer (snap : W16) (l : List Byte) (off : Nat) (data : List Byte) (s : State) : State :=
  { s with host := { s.host with sdo := sdoBytes snap l.length off data, snap := snap } }

/-- A discarded frame (R290). -/
def discardFrame (snap : W16) (l : List Byte) (inj : Bool) (s : State) : State :=
  let (off, d) := zeroAnswer l
  let s := { s with host := { s.host with crcErr := true, crcCnt := satInc s.host.crcCnt, badNext := false } }
  answer snap l off d (detEvent 0x06 0 0 inj (s.host.crcCnt.zeroExtend 32) s)

/-- A refused frame (R292). -/
def refuseFrame (snap : W16) (l : List Byte) (s : State) : State :=
  let (off, d) := zeroAnswer l
  answer snap l off d { s with host := { s.host with addrErr := true } }

/-- A read: the writes ahead of it apply at its hold point (R288, R292, R293). -/
def readFrame (snap : W16) (l : List Byte) (s : State) : State :=
  let a := frameAddr l
  let n := (byteAt l 4).toNat + 1
  let r := if 0x50000 ≤ a ∧ a + n ≤ 0x50400 then hostRegion a 1 else hostRegion a n
  match r with
  | none => refuseFrame snap l s
  | some r =>
    if r = .regs ∧ (a % 4 ≠ 0 ∨ n % 4 ≠ 0) then refuseFrame snap l s
    else
      let s := flushWrites s
      answer snap l 6 (withCrc (hostRead s r a n)) (hostReadFx r a n s)

/-- A write: held in the staging buffer; one that waits there applies first (R293). -/
def writeFrame (snap : W16) (l : List Byte) (s : State) : State :=
  let a := frameAddr l
  let data := (l.drop 4).take (l.length - 5)
  if writeRefused a data.length then refuseFrame snap l s
  else
    let s := flushWrites s
    answer snap l 3 [] { s with host := { s.host with stage := [(BitVec.ofNat 24 a, data)] } }

/-- A claim frame (15_interrupts.md R341, R342, R347): `ref` is what the status snapshot saw. -/
def claimFrame (snap : W16) (ref : Bool) (l : List Byte) (s : State) : State :=
  let s := claimH ref (flushWrites s)
  answer snap l 5 (withCrc [s.irq.claimH]) s

/-- What a checked frame does, by its CMD. -/
def frameBody (snap : W16) (ref : Bool) (l : List Byte) (s : State) : State :=
  match (byteAt l 0).toNat with
  | 0xA0 => answer snap l 3 [] s
  | 0xA1 => readFrame snap l s
  | 0xA2 => writeFrame snap l s
  | 0xA4 => claimFrame snap ref l s
  | 0xA5 => answer snap l 3 [] (completeH (byteAt l 4) (flushWrites s))
  | 0xA6 =>
    match idx? 8 (byteAt l 4).toNat with
    | some r => answer snap l 3 [] (doorbell r (flushWrites s))
    | none => refuseFrame snap l s
  | _ => refuseFrame snap l s

/-- The address of a frame that has none shall be 0 (R288); a CMD that R288 does not list, or another address there, is
refused (R292). -/
def frameRefused (l : List Byte) : Bool :=
  !knownCmd (byteAt l 0) || (byteAt l 0 != 0xA1 && byteAt l 0 != 0xA2 && frameAddr l != 0)

/-- What SDO shows while it is cut from the link: the boundary register's level, or the pull-up's (18_debug.md R403, R404). -/
def cutSdo (s : State) : Byte := if s.dbg.ir != 4 && bit s.dbg.bsr 140 && !bit s.dbg.bsr 139 then 0 else 0xFF

/-- One frame (R288 to R294). -/
def serveFrame (l : List Byte) (bad : Bool) (s : State) : State :=
  if s.pinsCut then { s with host := { s.host with sdo := List.replicate l.length (cutSdo s) } }
  else if !s.serving then { s with host := { s.host with sdo := List.replicate l.length 0xFF, snap := 0xFFFF } }
  else
    let snap := statusWord s
    let ref := s.irq.gateH && (winnerH s).isSome
    let s := { s with host := { s.host with snapElig := ref } }
    if l.length ≤ 3 then answer snap l 3 [] s
    else if s.host.badNext then discardFrame snap l true s
    else if bad then discardFrame snap l false s
    else if !knownCmd (byteAt l 0) then refuseFrame snap l { s with host := { s.host with hwdAt := s.tb.dt } }
    else if frameBroken l then discardFrame snap l false s
    else
      let s := { s with host := { s.host with hwdAt := s.tb.dt } }
      if frameRefused l then refuseFrame snap l s else frameBody snap ref l s

end Sys2Proof.Machine
end

