-- ==== Sys2Proof/Machine/FarrierOps.lean ====
section
/-! DEFINITION. How the Farrier carries a request out: when it takes one, what it refuses, the reply it writes, and the
requests that wait (14_farrier_commands.md R305 to R314; 13_host_link.md R299). -/

namespace Sys2Proof.Machine

/-! ### Answers (R307, R308, R310) -/

/-- What carrying out a request comes to: a reply with its status and payload, or a reply that is due later, or an
acceptance that waits, the request still to be taken. -/
inductive Ans where
  | reply (status : Byte) (payload : List Byte) (s : State)
  | later (s : State)
  | waits

/-- OK without payload. -/
def okAns (s : State) : Ans := .reply 0x00 [] s

/-- OK with a payload. -/
def okWith (payload : List Byte) (s : State) : Ans := .reply 0x00 payload s

/-- A refusal: no effect (R308). -/
def refuse (status : Byte) (s : State) : Ans := .reply status [] s

/-- The status codes of R307 that the bodies use. -/
def badCmd : Byte := 0x01
def badLen : Byte := 0x02
def badField : Byte := 0x03
def badState : Byte := 0x04
def noResource : Byte := 0x05
def busyCode : Byte := 0x06
def aborted : Byte := 0x07
def notOpen : Byte := 0x08
def inUse : Byte := 0x09
def locked : Byte := 0x0A
def nvError : Byte := 0x0B
def imageError : Byte := 0x0C
def epochLimit : Byte := 0x0D
def notProvisioned : Byte := 0x0E
def keyPresent : Byte := 0x0F
def dropped : Byte := 0x10
def hwRefused : Byte := 0x14

/-- Writes of an NV area do not read back correctly: the old value stays (17_health.md R381). -/
def State.nvFails (s : State) (area : Fin 4) : Bool := bit s.nv.worn area.val

/-! ### Payloads -/

def le2 (v : W16) : List Byte := leBytes 2 v.toNat
def le4 (v : W32) : List Byte := leBytes 4 v.toNat
def le6 (v : EvTime) : List Byte := leBytes 6 v.toNat
def le8 (v : W64) : List Byte := leBytes 8 v.toNat
def zeros (n : Nat) : List Byte := List.replicate n 0
def flagByte (l : List Bool) : Byte := (wBits l).truncate 8

/-- A count as one byte. -/
def count8 (n : Nat) : Byte := BitVec.ofNat 8 n

/-! ### Taking and refusing (R306, R309, R314) -/

/-- The commands of the boot wait, and those of ROM limp mode (R314). -/
def bootWaitCmds : List Byte := [0x00, 0x01, 0xF0, 0xF1, 0xF2]
def limpCmds : List Byte := [0x00, 0x01, 0x02, 0x04, 0x05, 0x80, 0x81, 0x85]

/-- The Farrier waits for the host at boot step 7 (R320). -/
def State.inBootWait (s : State) : Bool := s.pwr.phase == .bootWait && !s.far.halted

/-- The Farrier takes requests: it runs, or waits at boot step 7, no request is being carried out, and no accepted RESET is
about to apply. -/
def State.takes (s : State) : Bool := (s.farrierUp || s.inBootWait) && !s.inRequest && !s.far.rstPend

/-- The command is not accepted in the present state (R314). The boot-wait commands serve the boot wait alone. -/
def stateRefuses (s : State) (cmd : Byte) : Bool :=
  if s.inBootWait then !bootWaitCmds.contains cmd
  else decide (0xF0 ≤ cmd.toNat) || (s.pwr.limp && !limpCmds.contains cmd)

/-- A malformed request counts, with a HEALTH record and source 217 (R306; 17_health.md R377). -/
def malformed (mb : MailboxId) (cmd : Byte) (inj : Bool) (s : State) : State :=
  let s := { s with hlt := { s.hlt with mbBad := vmod s.hlt.mbBad mb satInc, mbInj := setBit s.hlt.mbInj mb.val false } }
  pulse 217 (health 0x07 (BitVec.ofNat 8 mb.val) 5 inj (cmd.zeroExtend 32) s)

/-- The Farrier has taken the request of a mailbox (R299). -/
def markTaken (mb : MailboxId) (s : State) : State := { s with host := { s.host with taken := setBit s.host.taken mb.val true } }

/-- A request whose reply is due later keeps its mailbox PENDING (R310). -/
def hold (mb : MailboxId) (s : State) : State := { s with host := { s.host with reqBusy := setBit s.host.reqBusy mb.val true } }

/-- A malformed request is refused with its status. -/
def refuseMalformed (cmd : Byte) (q : Req) (status : Byte) (inj : Bool) (s : State) : State :=
  writeReply q.mb cmd q.tag status [] (malformed q.mb cmd inj s)

/-- Carry out a request (R305 to R310, R314): an injected refusal first, then the limits of the state, then the command. A
reset that the command raised ends it without a reply (R299). -/
def carryOut (cmd : Byte) (q : Req) (body : State → Ans) (s : State) : State :=
  if !s.takes then s
  else if bit s.hlt.mbInj q.mb.val then refuseMalformed cmd q badField true s
  else if stateRefuses s cmd then writeReply q.mb cmd q.tag badState [] s
  else match body (markTaken q.mb s) with
    | .waits => s
    | .later s1 => hold q.mb s1
    | .reply st pay s1 =>
      if s1.pwr.phase = .held then s1
      else if st = badLen ∨ st = badField then refuseMalformed cmd q st false s1
      else writeReply q.mb cmd q.tag st pay s1

/-! ### Objects that are bound (R307, R326) -/

/-- A program has the harness. -/
def harnessHeld (s : State) (h : HarnessId) : Bool :=
  (idxs 16).any fun p => s.prog[p].open_ && (bit s.prog[p].hMask h.val || (s.prog[p].shipped && s.prog[p].har.toNat == h.val))

/-- A program has the channel. -/
def channelHeld (s : State) (l : Lch) : Bool := (idxs 16).any fun p => s.prog[p].open_ && bit s.prog[p].chMask l.val

/-- A program has the basin. -/
def basinHeld (s : State) (b : BasinId) : Bool := (idxs 16).any fun p => s.prog[p].open_ && bit s.prog[p].bMask b.val

/-- The channel is a member of an open harness. -/
def harnessMember (s : State) (l : Lch) : Bool := (idxs 16).any fun h => s.har[h].kind != 0 && s.har[h].channels.contains l

/-- A MOT_START is pending on the harness (R311). -/
def startPending (s : State) (h : HarnessId) : Bool := s.har[h].mot.startMb.isSome

/-! ### Record entries of commands (R308, R331) -/

/-- A command whose effect is a record entry: NOT_PROVISIONED while writing is disabled; the SEQ the entry got, or
0xFFFF_FFFF with DROPPED. Where the entry waits for an epoch start, so does the reply. -/
def entryAns (cmd : Byte) (q : Req) (e : Entry) (pay : W32 → List Byte) (s : State) : Ans :=
  match record e s with
  | (s1, some seq) => okWith (pay seq) s1
  | (s1, none) =>
    if s1.rcd.epochPend.isSome then .later { s1 with rcd := { s1.rcd with epochMb := some (BitVec.ofNat 3 q.mb.val, q.tag, cmd) } }
    else .reply dropped (pay 0xFFFFFFFF) s1

/-- A NOTE entry beside another effect: the status is DROPPED where the entry was dropped; with writing disabled no entry is
written. -/
def withNote (sub : Byte) (value : W32) (flags : W16) (s : State) : State × Byte :=
  if !s.writes then (s, 0x00)
  else
    let (s1, r) := note sub value flags s
    (s1, if r.isNone && s1.rcd.epochPend.isNone then dropped else 0x00)

end Sys2Proof.Machine
end

