-- ==== Sys2Proof/Machine/Harness.lean ====
section
/-! DEFINITION. The commands on harnesses and the power stage (08_power_harnesses.md R190 to R210). -/

namespace Sys2Proof.Machine

/-! ### Actions (R190 to R192) -/

/-- HARNESS_COMMIT (R191). -/
def execHarnessCommit (h : HarnessId) (s : State) : Out := .next (actHarness h 0x10000000 s)

/-- HARNESS_SAFE (R190, R191). -/
def execHarnessSafe (h : HarnessId) (s : State) : Out := .next (actHarness h 0x20000000 s)

/-- HARNESS_RESUME (R190, R191). -/
def execHarnessResume (h : HarnessId) (s : State) : Out := .next (actHarness h 0x30000000 s)

/-- HARNESS_PHASE (R191, R204). -/
def execHarnessPhase (h : HarnessId) (phases : BitVec 9) (s : State) : Out :=
  .next (actHarness h (4#4 ++ (0#19 : BitVec 19) ++ phases) s)

/-- HARNESS_LEVELS (R191). -/
def execHarnessLevels (h : HarnessId) (levels : BitVec 28) (s : State) : Out := .next (actHarness h (5#4 ++ levels) s)

/-- The pending timed action is effective and its time has come (R192). -/
def timedDue (s : State) (h : HarnessId) : Bool :=
  let k := s.har[h]
  s.rootRuns && k.actPend && passed s.nowEv k.actEff && passed s.nowEv k.actTime

/-- TIMED_ACTION_APPLY (R192): a PHASE action of the commutation program begins its next step (09_motion.md R220). -/
def execTimedActionApply (t : Instant) (h : HarnessId) (s : State) : Out :=
  event t (fun s => timedDue s h)
    (fun s => if fld s.har[h].actWord 28 4 = 4#4 then commuted h (applyTimed h s) else applyTimed h s) s

/-! ### Peak and hold (R196, R197, R206) -/

/-- The member of a bank is in its peak phase. -/
def inPeak (s : State) (h : HarnessId) (m : Fin 4) : Bool := s.har[h].kind == 1#3 && s.har[h].live && bit s.har[h].peak m.val

/-- A peak phase ends: the hold phase follows, and a deferred member starts (R196, R199, R200). -/
def peakOver (h : HarnessId) (m : Fin 4) (s : State) : State :=
  regate h (s.modHar h fun k => Harness.startDeferred { k with peak := setBit k.peak m.val false } s.nowEv)

/-- The time since a member's window started, in fines. -/
def inWindow (s : State) (h : HarnessId) (m : Fin 4) : Nat := (s.nowEv - s.har[h].mem[m].start).toNat

/-- PEAK_END (R196): the sense reaches IPEAK after TBLANK. -/
def execPeakEnd (t : Instant) (h : HarnessId) (m : Fin 4) (sense : Byte) (s : State) : Out :=
  event t (fun s => inPeak s h m && decide (s.har[h].blank ≤ inWindow s h m) &&
                    decide ((fld s.har[h].mem[m].w0 8 8).toNat ≤ sense.toNat)) (peakOver h m) s

/-- The report at TPEAK_MAX: OPEN below IOPEN, PEAK_SHORT from there to below IPEAK (R207). -/
def peakReport (k : Harness) (m : Fin 4) (sense : Byte) : Option Byte :=
  if sense.toNat < (fld k.mem[m].w1 8 8).toNat then some 8
  else if sense.toNat < (fld k.mem[m].w0 8 8).toNat then some 9
  else none

/-- PEAK_TIMEOUT (R196, R207). -/
def execPeakTimeout (t : Instant) (h : HarnessId) (m : Fin 4) (sense : Byte) (s : State) : Out :=
  event t (fun s => inPeak s h m && decide (6400 * (fld s.har[h].mem[m].w1 16 12).toNat ≤ inWindow s h m))
    (fun s =>
      let s1 := peakOver h m s
      match peakReport s.har[h] m sense with
      | some code => faultHarness code (BitVec.ofNat 8 m.val) (sense.zeroExtend 10) h s1
      | none => s1) s

/-- The member or phase is one whose current is being regulated: in hold, or in BRAKE. -/
def regulating (s : State) (h : HarnessId) (m : Fin 4) : Bool :=
  let k := s.har[h]
  k.live &&
  (if k.kind = 1#3 then fld k.mem[m].w0 0 2 == 1#2 && k.started m.val && !bit k.peak m.val
   else k.kind == 2#3 && decide (m.val < 3) && k.phaseOf m.val == 5#3)

/-- The time since the regulating driver last switched, in fines; TMIN_ON and TMIN_OFF count 0.5 µs, 3,200 fines. -/
def sinceSwitch (s : State) (h : HarnessId) (m : Fin 4) : Nat := (s.nowEv - s.har[h].mem[m].sw).toNat

/-- Switch the regulating driver of a member or phase. A low side in BRAKE comes back at once, with no DEADT (R206). -/
def holdSwitch (h : HarnessId) (m : Fin 4) (off : Bool) (s : State) : State :=
  let k := s.har[h]
  let s := s.modHar h fun k => { k with mem := vmod k.mem m fun x => { x with off := off, sw := s.nowEv } }
  let d := 6 + k.hsd.toNat + m.val
  let s := if k.kind = 2#3 && !off && !k.cut && !s.link.isOn (d - 6) then { s with link := s.link.drive d true s.nowEv } else s
  regate h s

/-- HOLD_SWITCH_OFF (R196, R206): in hold the sense reaches IHOLD_HI after TMIN_ON, in BRAKE it reaches ILIM. -/
def execHoldSwitchOff (t : Instant) (h : HarnessId) (m : Fin 4) (sense : Byte) (s : State) : Out :=
  event t (fun s =>
      let x := s.har[h].mem[m]
      regulating s h m && !x.off &&
      (if s.har[h].kind = 1#3 then decide ((fld x.w0 16 8).toNat ≤ sense.toNat) && decide (3200 * (fld x.w2 0 8).toNat ≤ sinceSwitch s h m)
       else decide ((fld x.w0 8 8).toNat ≤ sense.toNat)))
    (holdSwitch h m true) s

/-- HOLD_SWITCH_ON (R196, R206): TMIN_OFF has elapsed, and in hold the sense has fallen to IHOLD_LO. -/
def execHoldSwitchOn (t : Instant) (h : HarnessId) (m : Fin 4) (sense : Byte) (s : State) : Out :=
  event t (fun s =>
      let x := s.har[h].mem[m]
      regulating s h m && x.off && decide (3200 * (fld x.w2 8 8).toNat ≤ sinceSwitch s h m) &&
      (s.har[h].kind != 1#3 || decide (sense.toNat ≤ (fld x.w0 24 8).toNat)))
    (holdSwitch h m false) s

/-- REGULATION_HANDOVER (R197): 1 µs after the overlap ended. -/
def execRegulationHandover (t : Instant) (h : HarnessId) (s : State) : Out :=
  event t (fun s => s.har[h].kind == 1#3 && s.har[h].regLs && decide (s.har[h].startedCount < 2) &&
                    s.har[h].ovEnd.any fun e => decide (6400 ≤ (s.nowEv - e).toNat))
    (fun s => regate h (s.modHar h fun k => { k with regLs := false, ovEnd := none })) s

/-! ### The bank rule (R201, R202) -/

/-- DEFER of a bank in fines. -/
def Harness.deferFines (k : Harness) : Nat := (fld k.w14 0 8).toNat * 6400

/-- A deferred start has reached its limit (R201). -/
def deferDue (s : State) (h : HarnessId) (m : Fin 4) : Bool :=
  let k := s.har[h]
  k.kind == 1#3 && k.live && bit k.defd m.val && decide (k.deferFines ≤ (s.nowEv - k.mem[m].req).toNat)

/-- A deferred start is cancelled: the member stays off for the rest of the window (R201, R202). -/
def cancelDeferred (h : HarnessId) (m : Fin 4) (s : State) : State :=
  let limit := s.har[h].deferFines
  postCancel h m limit (s.modHar h fun k =>
    Harness.settle { k with win := setBit k.win m.val false, defd := setBit k.defd m.val false })

/-- DEFER_CANCEL (R201). -/
def execDeferCancel (t : Instant) (h : HarnessId) (m : Fin 4) (s : State) : Out :=
  event t (fun s => deferDue s h m) (cancelDeferred h m) s

/-- BANK_DEFER_REPORT (R202): `cycles` of the P clock, 32 fines each. -/
def execBankDeferReport (h : HarnessId) (m : Fin 4) (start : EvTime) (cycles : BitVec 24) (s : State) : Out :=
  .next (
    if s.har[h].kind = 1#3 then
      postB63 (sysRec start 0x14 (BitVec.ofNat 8 h.val) (BitVec.ofNat 16 m.val) (BitVec.ofNat 32 (32 * cycles.toNat)))
        (s.modHar h fun k => { k with deferCnt := satInc k.deferCnt })
    else s)

/-! ### Bridges (R205) -/

/-- A driver that waited waits no longer: DEADT has passed and its opposite is off. -/
def deadOver (s : State) (h : HarnessId) (d opp : Nat) : Bool :=
  bit s.link.deadOn d && !s.link.isOn opp &&
  match idx? 18 d with | some i => decide (s.har[h].deadt ≤ (s.nowEv - s.link.dueAt[i]).toNat) | none => false

/-- A driver whose DEADT has passed turns on. -/
def deadDone (h : HarnessId) (d opp : Nat) (s : State) : State :=
  if deadOver s h d opp then { s with link := s.link.drive d true s.nowEv } else s

/-- DEADTIME_END (R205). -/
def execDeadtimeEnd (t : Instant) (h : HarnessId) (phase : Fin 3) (s : State) : Out :=
  event t (fun s => s.har[h].kind == 2#3 && s.har[h].live && !s.har[h].cut)
    (fun s =>
      let hi := s.har[h].hsd.toNat + phase.val
      deadDone h (6 + hi) hi (deadDone h hi (6 + hi) s)) s

/-! ### Faults of the power stage (R194, R207, R210) -/

/-- The P-die cuts the gates of a harness by itself; its flag follows (FAULT_FRAME). -/
def cutGates (flag : Byte × Byte × BitVec 10) (h : HarnessId) (s : State) : State :=
  let k := s.har[h]
  let ds := k.hss ++ (gateTargets s k).filterMap fun (d, _) => if d < 6 then none else some d
  let s1 := { s with link := ds.foldl (fun l d => l.drive d false s.nowEv) s.link }
  s1.modHar h fun k => { k with cut := true, flag := some flag }

/-- The drivers of a harness that are on, and the latest time at which one of some drivers turned on is TBLANK or more ago. -/
def blanked (s : State) (h : HarnessId) (ds : List Nat) : Bool :=
  ds.all fun d => !s.link.isOn d || match idx? 18 d with
    | some i => decide (s.har[h].blank ≤ (s.nowEv - s.link.onAt[i]).toNat)
    | none => true

/-- The drivers of a member or phase: its low side and the harness's high side, or the phase's own two. -/
def Harness.driversOf (k : Harness) (m : Nat) : List Nat :=
  if k.kind = 1#3 then [k.hsd.toNat, 6 + k.ls m] else [k.hsd.toNat + m, 6 + k.hsd.toNat + m]

/-- The condition of a fault that the P-die detects (R207). TBLANK counts from the latest switch-on of the drivers concerned, and
OC_HARD trips at a threshold of 210 mV or more, 230 mV less its tolerance (DESIGN CHOICE, log entry 43). -/
def faultSeen (s : State) (h : HarnessId) (code member : Byte) (sense : BitVec 10) (mv : W16) : Bool :=
  let k := s.har[h]
  let m := member.toNat
  let has (m : Nat) : Bool := decide (m < 4) && (k.memberCh m).isSome
  match code.toNat with
  | 1 => has m && (match idx? 4 m with | some i => decide ((fld k.mem[i].w1 0 8).toNat ≤ sense.toNat) | none => false) &&
         blanked s h (k.driversOf m)
  | 2 => k.kind == 1#3 && member == 0xFF && decide ((fld k.w18 0 10).toNat ≤ sense.toNat) &&
         blanked s h (k.hss ++ ((List.range 4).filter has).map fun m => 6 + k.ls m)
  | 3 => has m && decide (210 * 10 ≤ 8 * sense.toNat)
  | 4 => match k.hss[m]? with
    | some d => s.link.isOn d && decide (200 * ((fld k.w1C 16 4).toNat + 1) < mv.toNat) && blanked s h [d]
    | none => false
  | 5 => k.kind == 2#3 && decide (m < 3)
  | _ => false

/-- POWER_FAULT_CUT (R207): OC, OC_SUM, OC_HARD, HS_SHORT and SHOOT. CP_UV and LINK have rows of their own, and codes 8 and 9 cut
nothing. -/
def execPowerFaultCut (t : Instant) (h : HarnessId) (code member : Byte) (sense : BitVec 10) (mv : W16) (s : State) : Out :=
  event t (fun s => s.har[h].power && s.har[h].live && !s.har[h].cut && faultSeen s h code member sense mv)
    (cutGates (code, member, sense) h) s

/-- LINK_SILENCE (R210). -/
def execLinkSilence (s : State) : Out :=
  .next (
    if s.link.hg = 0 && s.link.lg = 0 then s
    else
      let s1 := forEach (powerHarnesses s) (cutGates (7, 0xFF, 0)) s
      { s1 with link := { s1.link with silent := true, hg := 0, lg := 0, deadOn := 0 } })

/-- CP_UNDERVOLTAGE (R194, R207). -/
def execCpUndervoltage (t : Instant) (s : State) : Out :=
  event t (fun s => s.link.cpRun) (fun s => forEach (powerHarnesses s) (faultHarness 6 0xFF 0) s) s

end Sys2Proof.Machine
end

