-- ==== Sys2Proof/Machine/FarrierHar.lean ====
section
/-! DEFINITION. Harness commands of the Farrier, and the end of the charge-pump wait (14_farrier_commands.md R326;
08_power_harnesses.md R188, R194, R213). -/

namespace Sys2Proof.Machine

/-! ### Opening a harness (R188) -/

/-- Members of an MCH word are valid in order from 0: how many, or none where the order is broken. -/
def memberCount (mch : W32) : Option Nat :=
  match [bit mch 7, bit mch 15, bit mch 23, bit mch 31] with
  | [false, false, false, false] => some 0
  | [true, false, false, false] => some 1
  | [true, true, false, false] => some 2
  | [true, true, true, false] => some 3
  | [true, true, true, true] => some 4
  | _ => none

/-- The harness as H_OPEN binds it: IDLE, with the bindings of the request. -/
def Harness.bound (k : Harness) (r : HOpenReq) : Harness :=
  { k with kind := fld r.kind 0 3, hstate := .idle, hsd := fld r.hsd 0 4, mch := r.mch, grp := r.grp, mls := r.mls }

/-- Low-side drivers, and with them the sense inputs, of a power-class harness. -/
def Harness.lss (k : Harness) : List Nat :=
  if k.power then ((List.range 4).filter fun m => (k.memberCh m).isSome).map k.ls else []

/-- Low sides of a harness, a bridge's three phases whatever its channels. -/
def Harness.lows (k : Harness) : List Nat := if k.kind = 2#3 then k.hss else k.lss

/-- The fields of an H_OPEN lie in range: the kind, its members and drivers. -/
def hOpenFields (r : HOpenReq) : Bool :=
  let k := Harness.reset.bound r
  let ch := k.channels
  let n := memberCount r.mch
  (r.mch &&& 0x40404040) == 0 && decide (r.hsd.toNat < 16) && ch.eraseDups.length == ch.length &&
  match r.kind.toNat with
  | 1 => decide (r.hsd.toNat ≤ 5) && n.isSome && n != some 0 && k.lows.all (fun l => decide (l ≤ 11)) &&
         k.lows.eraseDups.length == k.lows.length
  | 2 => (r.hsd == 0 || r.hsd == 3) && n == some 3
  | 3 => n == some 2
  | 4 => decide (1 ≤ ch.length) && decide (ch.length ≤ 16)
  | _ => false

/-- Some OUT_SEL names the channel (R188, axis). -/
def onTio (s : State) (l : Lch) : Bool := s.tio.toList.any fun w => (fld w 0 7).toNat == l.val

/-- Another harness holds a driver, sense input or channel that the request names. -/
def harnessTaken (s : State) (k : Harness) : Bool :=
  (idxs 16).any fun i =>
    let o := s.har[i]
    o.kind != 0 && (o.channels.any k.channels.contains || o.hss.any k.hss.contains || o.lows.any k.lows.contains)

/-- The status of an H_OPEN that is refused before the charge pump is tried. -/
def hOpenStatus (s : State) (r : HOpenReq) : Option Byte :=
  let k := Harness.reset.bound r
  if !hOpenFields r then some badField
  else if s.har[bvFin 16 rfl r.h].kind ≠ 0 then some inUse
  else if k.channels.any fun l => !s.lmap[l].open_ then some notOpen
  else if harnessTaken s k then some inUse
  else if k.kind = 3#3 && !k.channels.all (onTio s) then some badState
  else none

/-- The harness opens; a bank member whose output is high already has its window (R196). -/
def bindHarness (r : HOpenReq) (s : State) : State :=
  let h : HarnessId := bvFin 16 rfl r.h
  let s := s.modHar h fun k => k.bound r
  let s := forEach s.har[h].channels (fun l s => if s.har[h].kind = 1#3 && levelOf s (some l) then gateReact l s.nowEv s else s) s
  forEach s.har[h].channels feedPins (adoptHar h s)

/-- H_OPEN (R326, R194): the first power-class open waits for the charge pump. -/
def reqHOpen (q : Req) (h kind hsd reserved : Byte) (mch : W32) (grp : W64) (mls : W16) (s : State) : State :=
  carryOut 0x30 q (fun s =>
    if 15 < h.toNat ∨ reserved ≠ 0 then refuse badField s
    else
      let r : HOpenReq := ⟨BitVec.ofNat 3 q.mb.val, q.tag, h.truncate 4, kind, hsd, mch, grp, mls⟩
      match hOpenStatus s r with
      | some st => refuse st s
      | none =>
        if (Harness.reset.bound r).power && !s.link.cpReady then
          .later { s with link := { s.link with cpOpen := some r, cpRun := true, cpAt := s.nowEv } }
        else okAns (bindHarness r s)) s

/-- An injected VCP start failure is held (17_health.md R377). -/
def pumpHeld (s : State) : Bool := decide (0 < (s.hlt.supInj[4] - s.tb.dt).toInt)

/-- The time since the charge pump started, in fines; 1 ms is 6,400,000. -/
def pumpTime (s : State) : Nat := (s.nowEv - s.link.cpAt).toNat

/-- The open that waits for the charge pump completes; a halted Farrier completes it when it runs on. -/
def openFinish (s : State) : State :=
  match s.link.cpOpen with
  | none => s
  | some r =>
    if s.link.cpReady && s.farrierUp then
      writeReply (bvFin 8 rfl r.mb) 0x30 r.tag 0 [] (bindHarness r { s with link := { s.link with cpOpen := none } })
    else s

/-- CHARGE_PUMP_READY (R194): VCP − VBAT exceeds 8 V within 1 ms; the open that waits completes. -/
def execChargePumpReady (t : Instant) (s : State) : Out :=
  event t (fun s => s.link.cpRun && !s.link.cpReady && !pumpHeld s && decide (pumpTime s ≤ 6400000))
    (fun s => openFinish { s with link := { s.link with cpReady := true } }) s

/-- CHARGE_PUMP_TIMEOUT (R194): the Farrier refuses the open whole, reports and stops the pump. -/
def execChargePumpTimeout (t : Instant) (mv : W32) (s : State) : Out :=
  event t (fun s => s.farrierUp && s.link.cpRun && !s.link.cpReady && decide (6400000 ≤ pumpTime s))
    (fun s =>
      let s1 := { s with link := { s.link with cpRun := false, cpOpen := none } }
      let s2 := pulse 215 (health 0x0C 4 6 (pumpHeld s) mv s1)
      match s.link.cpOpen with
      | none => s2
      | some r => writeReply (bvFin 8 rfl r.mb) 0x30 r.tag hwRefused [] s2) s

/-! ### A command on an open harness -/

/-- A harness by its number: BAD_FIELD out of range, NOT_OPEN while closed. -/
def withHarness (h : Byte) (body : HarnessId → State → Ans) (s : State) : Ans :=
  match idx? 16 h.toNat with
  | none => refuse badField s
  | some i => if s.har[i].kind = 0 then refuse notOpen s else body i s

/-- A command that would change a harness: BUSY while a MOT_START is pending on it (R311). -/
def changeHarness (h : Byte) (body : HarnessId → State → Ans) (s : State) : Ans :=
  withHarness h (fun i s => if startPending s i then refuse busyCode s else body i s) s

/-- H_CLOSE (R326). -/
def reqHClose (q : Req) (h : Byte) (s : State) : State :=
  carryOut 0x31 q (changeHarness h fun i s => if harnessHeld s i then refuse inUse s else okAns (closeHarness i s)) s

/-! ### Configuration (R326; 17_health.md R394) -/

/-- A current-threshold code as the Farrier writes it, scaled by the ISG of its sense input; a result outside the code's
range is not stated (log entry 7). -/
def scaleCode (isg : BitVec 32) (top code : Nat) : Nat :=
  let v := openDiv (code * (1000000 + isg.toInt).toNat) 1000000
  if v ≤ top then v else (Config.noFit v).toNat % (top + 1)

/-- ISG of the sense input of a member or phase. -/
def isgOf (s : State) (h : HarnessId) (m : Nat) : BitVec 32 :=
  match idx? 12 (s.har[h].ls m) with
  | some i => s.cal.isg[i]
  | none => 0

/-- Scale the threshold codes of a word at the given bits. -/
def scaleAt (isg : BitVec 32) (los : List Nat) (w : W32) : W32 :=
  los.foldl (fun w lo => setFld w lo 8 (BitVec.ofNat 8 (scaleCode isg 250 (fld w lo 8).toNat))) w

/-- The words of a member's section, scaled. -/
def scaleMember (s : State) (h : HarnessId) (m : Nat) (w0 w1 : W32) : W32 × W32 :=
  if s.har[h].power then (scaleAt (isgOf s h m) [8, 16, 24] w0, scaleAt (isgOf s h m) [0, 8] w1) else (w0, w1)

/-- BANK_OC scaled by the ISG that the bank's sense inputs share; where they differ no rule states it. -/
def scaleSum (s : State) (h : HarnessId) (w : W32) : W32 :=
  let k := s.har[h]
  match if k.kind = 1#3 then ((List.range 4).filter fun m => (k.memberCh m).isSome).map (isgOf s h) else [] with
  | [] => w
  | g :: r =>
    let code := (fld w 0 10).toNat
    setFld w 0 10 (BitVec.ofNat 10 (if r.all (· == g) then scaleCode g 1000 code else (Config.noFit code).toNat % 1001))

/-- Write a section's three words, over the link where they reach the P-die (03_crossings.md R57); a refused word refuses the section
with CFG_ERR (R196, R213). The reply comes when the last of them has applied (R308). -/
def writeSection (q : Req) (h : HarnessId) (base : Nat) (raw : List W32) (scaled : List W32) (s : State) : Ans :=
  let offs := [base, base + 4, base + 8]
  if (offs.zip raw).any fun x => (x.2 &&& ~~~(harLegal x.1)) != 0 then refuse badField s
  else if ((offs.zip raw).any fun x => harOutOfRange x.1 x.2) || (offs.zip scaled).any fun x => harRefused s h x.1 x.2 then
    .reply hwRefused [] (harCfgErr h s)
  else
    let s := forEach (offs.zip scaled) (fun x s => harWrite h x.1 x.2 s) s
    if s.har[h].power then
      .later { s with link := { s.link with cfgReply := some ⟨BitVec.ofNat 3 q.mb.val, q.tag, s.link.queue.length, false⟩ } }
    else okAns s

/-- H_CFG (R326). -/
def reqHCfg (q : Req) (h sec : Byte) (reserved : W16) (w0 w1 w2 : W32) (s : State) : State :=
  carryOut 0x32 q (fun s =>
    if 4 < sec.toNat ∨ reserved ≠ 0 then refuse badField s
    else changeHarness h (fun i s =>
      if sec = 0 then writeSection q i 0x14 [w0, w1, w2] [w0, scaleSum s i w1, w2] s
      else
        let m := sec.toNat - 1
        let (v0, v1) := scaleMember s i m w0 w1
        writeSection q i (0x20 + 0x10 * m) [w0, w1, w2] [v0, v1, w2] s) s) s

/-! ### Actions and state (R326, R191) -/

/-- LEVELS as the Farrier writes it: each code scaled by the ISG of the member; for all phases by the ISG they share. -/
def scaleLevels (s : State) (h : HarnessId) (w : W32) : W32 :=
  let m := (fld w 24 2).toNat
  if s.har[h].kind = 2#3 ∧ m = 3 then
    if isgOf s h 0 = isgOf s h 1 ∧ isgOf s h 1 = isgOf s h 2 then scaleAt (isgOf s h 0) [0, 8, 16] w
    else [0, 8, 16].foldl (fun w lo => setFld w lo 8 (BitVec.ofNat 8 ((Config.noFit (fld w lo 8).toNat).toNat % 251))) w
  else scaleAt (isgOf s h m) [0, 8, 16] w

/-- The action word as it reaches the harness. -/
def farrierAction (s : State) (h : HarnessId) (w : W32) : W32 :=
  if fld w 28 4 = 5#4 ∧ levelsOk w then scaleLevels s h w else w

/-- H_ACT (R326): HW_REFUSED where the action sets ACT_ERR or CFG_ERR (R307); RESUME is held off while a trip is in
force (17_health.md R383). -/
def reqHAct (q : Req) (h : Byte) (reserved : BitVec 24) (word : W32) (s : State) : State :=
  carryOut 0x33 q (fun s =>
    if reserved ≠ 0 then refuse badField s
    else changeHarness h (fun i s =>
      if fld word 28 4 = 3#4 && actionValid s.har[i].kind word && s.har[i].power && s.tripped then refuse badState s
      else
        let err : W32 := 0x06000000
        let s0 := s.modHar i fun k => { k with flt := k.flt &&& ~~~err }
        let s1 := actHarness i (farrierAction s i word) s0
        let bad := s1.har[i].flt &&& err
        let s2 := s1.modHar i fun k => { k with flt := k.flt ||| (s.har[i].flt &&& err) }
        if bad ≠ 0 then .reply hwRefused [] s2 else okAns (adoptMembers i s2)) s) s

/-- H_STATUS (R326): the read-clearing counters clear. -/
def reqHStatus (q : Req) (h : Byte) (s : State) : State :=
  carryOut 0x34 q (withHarness h fun i s =>
    let rd (off : Nat) : List Byte := le4 ((harPeek s i off).getD 0)
    okWith (rd 0x60 ++ rd 0x64 ++ rd 0x68 ++ [s.har[i].openCnt, 0, 0, 0])
      (s.modHar i fun k => { k with deferCnt := 0, cancelCnt := 0, openCnt := 0 })) s

/-- H_CLEAR (R326, R213). -/
def reqHClear (q : Req) (h : Byte) (reserved : BitVec 24) (mask : W32) (s : State) : State :=
  carryOut 0x35 q (fun s =>
    if reserved ≠ 0 ∨ (mask &&& ~~~(0x073FFFFF : W32)) ≠ 0 then refuse badField s
    else changeHarness h (fun i s => okAns (adoptHar i (clearFaults i mask s))) s) s

/-- H_RIDE (R326). -/
def reqHRide (q : Req) (h v : Byte) (s : State) : State :=
  carryOut 0x36 q (fun s =>
    if 1 < v.toNat then refuse badField s
    else changeHarness h (fun i s => okAns (s.modHar i fun k => { k with rideL2 := bit v 0 })) s) s

/-! ### The commands -/

/-- H_OPEN. -/
def execHOpen (q : Req) (h kind hsd reserved : Byte) (mch : W32) (grp : W64) (mls : W16) (s : State) : Out :=
  .next (reqHOpen q h kind hsd reserved mch grp mls s)
/-- H_CLOSE. -/
def execHClose (q : Req) (h : Byte) (s : State) : Out := .next (reqHClose q h s)
/-- H_CFG. -/
def execHCfg (q : Req) (h sec : Byte) (reserved : W16) (w0 w1 w2 : W32) (s : State) : Out := .next (reqHCfg q h sec reserved w0 w1 w2 s)
/-- H_ACT. -/
def execHAct (q : Req) (h : Byte) (reserved : BitVec 24) (word : W32) (s : State) : Out := .next (reqHAct q h reserved word s)
/-- H_STATUS. -/
def execHStatus (q : Req) (h : Byte) (s : State) : Out := .next (reqHStatus q h s)
/-- H_CLEAR. -/
def execHClear (q : Req) (h : Byte) (reserved : BitVec 24) (mask : W32) (s : State) : Out := .next (reqHClear q h reserved mask s)
/-- H_RIDE. -/
def execHRide (q : Req) (h v : Byte) (s : State) : Out := .next (reqHRide q h v s)

end Sys2Proof.Machine
end

