-- ==== Sys2Proof/Machine/Flags.lean ====
section
/-! DEFINITION. The flags of a groom thread and the conditions over them (07_microcode.md R153, R185, R186). -/

namespace Sys2Proof.Machine

/-- Z and N follow a 64-bit result. -/
def Ctx.zn (c : Ctx) (r : W64) : Ctx := { c with z := r == 0, n := r.msb }

/-- C and V of an addition: the carry out of bit 63, and signed overflow. -/
def Ctx.cvAdd (c : Ctx) (a b : W64) : Ctx :=
  { c with c := decide (2 ^ 64 ≤ a.toNat + b.toNat), v := a.msb == b.msb && (a + b).msb != a.msb }

/-- C and V of a subtraction: the borrow, and signed overflow. -/
def Ctx.cvSub (c : Ctx) (a b : W64) : Ctx :=
  { c with c := decide (a.toNat < b.toNat), v := a.msb != b.msb && (a - b).msb != a.msb }

/-- All of Z, N, C and V of an addition. -/
def Ctx.flagsAdd (c : Ctx) (a b : W64) : Ctx := (c.cvAdd a b).zn (a + b)

/-- All of Z, N, C and V of a subtraction. -/
def Ctx.flagsSub (c : Ctx) (a b : W64) : Ctx := (c.cvSub a b).zn (a - b)

/-- The outcome flag F: cleared on success, set otherwise. -/
def Ctx.setF (c : Ctx) (f : Bool) : Ctx := { c with f := f }

/-- Whether a branch condition holds; none for a condition code that is reserved (R186). -/
def Ctx.cond (c : Ctx) (k : BitVec 4) : Option Bool :=
  match k.toNat with
  | 0 => some true
  | 1 => some c.z
  | 2 => some (!c.z)
  | 3 => some (c.n != c.v)
  | 4 => some (c.n == c.v)
  | 5 => some c.c
  | 6 => some (!c.c)
  | 7 => some c.n
  | 8 => some (!c.n)
  | 9 => some c.f
  | 10 => some (!c.f)
  | 11 => some (!c.z && c.n == c.v)
  | 12 => some (c.z || c.n != c.v)
  | _ => none

end Sys2Proof.Machine
end

