-- ==== Sys2Proof/Machine/Operands.lean ====
section
/-! DEFINITION. Operands of the groom instructions: immediates, the fields that shall be zero, register pairs, data
addresses, branch targets and the objects that a program may name (07_microcode.md R154, R155, R158, R161, R164, R167,
R168, R184, R185). -/

namespace Sys2Proof.Machine

/-- Trap causes (R174). -/
def causeIllegal : Byte := 1
def causeAlign : Byte := 2
def causeBus : Byte := 3
def causeChan : Byte := 4
def causeBasin : Byte := 5
def causeHarness : Byte := 6
def causeDiv0 : Byte := 7
def causeSw : Byte := 8
def causeTracker : Byte := 9

/-! ### Immediates (R184) -/

/-- imm18 sign-extended: `addi`, `cmpi`, `movi`, loads and stores. -/
def immS (o : IOps) : W64 := o.imm.signExtend 64

/-- imm18 zero-extended: `andi`, `ori`, `xori`. -/
def immZ (o : IOps) : W64 := o.imm.zeroExtend 64

/-- The shift count of imm18. -/
def immShift (o : IOps) : Nat := (fld o.imm 0 6).toNat

/-! ### Encodings that trap ILLEGAL (R174, R184, R185) -/

/-- The zero field of an R-format word holds 0. -/
def rOk (o : ROps) : Bool := o.zero == 0#8

/-- imm18 bits 17:6 of a shift hold 0. -/
def shiftOk (o : IOps) : Bool := fld o.imm 6 12 == 0#12

/-- The zero field of an S-format word holds 0, X is 0 and SUB is one of the values given. -/
def sOk (o : SOps) (subs : List Nat) : Bool := !o.zero && !o.x && subs.contains o.sub.toNat

/-- The same for a channel or harness instruction, where X may be 1. -/
def sOkX (o : SOps) (subs : List Nat) : Bool := !o.zero && subs.contains o.sub.toNat

/-- A register pair starts at an even register from g2 to g14 (R154). -/
def pairOk (rd : BitVec 4) : Bool := rd != 0 && !bit rd 0

/-- Object number of a channel or harness instruction: k, or rb bits 5:0 when X is 1 (R164). -/
def objectOf (o : SOps) (c : Ctx) : BitVec 6 := if o.x then fld (c.getG o.rb) 0 6 else o.k

/-! ### Objects of a program -/

/-- The channel is open and bound to the program (R164). -/
def chanBound (s : State) (p : ProgId) (l : Lch) : Bool := s.lmap[l].open_ && bit s.prog[p].chMask l.val

/-- The basin is open and bound to the program; B62 and B63 never are (R161, R168). -/
def basinBound (s : State) (p : ProgId) (b : BasinId) : Bool :=
  decide (b.val < 62) && s.bas[b].open_ && bit s.prog[p].bMask b.val

/-- The harness, when it is open and bound to the program (R167). -/
def harnessBound (s : State) (p : ProgId) (k : Nat) : Option HarnessId :=
  (idx? 16 k).filter fun h => s.har[h].kind != 0 && bit s.prog[p].hMask h.val

/-! ### Data addresses (R155) -/

/-- A place in the data space: thread-local memory or the program's shared-data block, by byte offset. -/
inductive DataRef where
  | localMem (off : Nat)
  | shared (off : Nat)
deriving DecidableEq, Repr

/-- Where an access of `size` bytes goes, or the cause of its trap: BUS outside the data space, and for an atomic on
thread-local memory; ALIGN when it is misaligned. An access with any byte
outside the data space is outside it (R155, DEDUCED). DESIGN CHOICE (log entry 40): an atomic at a misaligned thread-local address,
for which R155 names both causes, traps BUS. -/
def dataRef (g : Prog) (addr : W64) (size : Nat) (atomic : Bool) : Byte ⊕ DataRef :=
  let a := addr.toNat
  if a + size ≤ 0x400 then
    if atomic then .inl causeBus else if a % size = 0 then .inr (.localMem a) else .inl causeAlign
  else if 0x10000 ≤ a ∧ a + size ≤ 0x10000 + g.sdSize.toNat then
    if a % size = 0 then .inr (.shared (a - 0x10000)) else .inl causeAlign
  else .inl causeBus

/-! ### Code addresses (R158) -/

/-- The number of code addresses of the image; a shipped program has no image to bound it. -/
def codeEnd (g : Prog) : Nat := if g.shipped then 2 ^ 19 else 128 * g.pages.toNat

/-- A branch or call target: instructions from the branch itself; none outside the image. -/
def relTarget (g : Prog) (pc : BitVec 19) (imm : BitVec 22) : Option (BitVec 19) :=
  let t : Int := pc.toNat + imm.toInt
  if 0 ≤ t ∧ t < codeEnd g then some (BitVec.ofInt 19 t) else none

/-- The target of a jump to a register. -/
def absTarget (g : Prog) (v : W64) : Option (BitVec 19) :=
  if v.toNat < codeEnd g then some (BitVec.ofNat 19 v.toNat) else none

end Sys2Proof.Machine
end

