-- ==== Sys2Proof/Machine/GroomOps.lean ====
section
/-! DEFINITION. How a groom thread issues one instruction: the checks ahead of it, its outcome, the advance of the PC,
traps, breakpoints and watchpoints, and access to the data space (07_microcode.md R153 to R159, R174, R175;
05_ostler.md R109 to R120; 18_debug.md R409, R410; 17_health.md R379). -/

namespace Sys2Proof.Machine

/-! ### Halts (18_debug.md R409 to R411) -/

/-- Halt one thread: a READY or waiting one at once, a stalled one when its stall ends. -/
def haltThread (tid : Tid) (s : State) : State :=
  s.modThr tid fun t => { t with haltReq := true, stepping := false,
                                 st := if t.st = .ready ∨ t.st = .wait then .halt else t.st }

/-- A debugger's match on an engine: the thread halts, or with ALL every thread of the engine. -/
def matchHalt (tid : Tid) (all : Bool) (cause : BitVec 3) (s : State) : State :=
  let e := slotEng s.thr[tid].slot
  let l := if all then (idxs 64).filter fun t => s.thr[t].st != .free && s.thr[t].st != .stopped && slotEng s.thr[t].slot == e else [tid]
  forEach l haltThread (s.modEng e fun g => { g with cause := cause })

/-- The breakpoint that the thread's PC matches, if any, as its ALL bit. -/
def breakpoint (s : State) (tid : Tid) : Option Bool :=
  let t := s.thr[tid]
  (s.eng[slotEng t.slot].bp.toList.find? fun w =>
    bit w 23 && fld w 0 19 == t.ctx.pc && fld w 19 4 == t.prog && (!bit w 30 || fld w 24 6 == BitVec.ofFin tid)).map (bit · 31)

/-- The watchpoint that an access matches, if any, as its ALL bit: IGN low address bits are ignored. -/
def watchpoint (s : State) (tid : Tid) (addr : W64) (read write : Bool) : Option Bool :=
  let t := s.thr[tid]
  (s.eng[slotEng t.slot].wp.toList.find? fun w =>
    let ign := (fld w 24 5).toNat
    bit w 23 && fld w 19 4 == t.prog && (fld w 0 17).toNat >>> ign == addr.toNat >>> ign &&
    ((bit w 17 && read) || (bit w 18 && write))).map (bit · 31)

/-! ### Reads and writes of a thread's own words -/

/-- Number of a thread's context word in memory 3 (R379): word n is register gn, 16 the PC and flags, 17 TCAUSE and TPC,
0x80 on the local memory. -/
def ctxWord (tid : Tid) (n : Nat) : Nat := 0x100 * tid.val + n

/-- Read memory words one after another; the first that cannot be read stops the thread (17_health.md R379). -/
def readWords (tid : Tid) (m : Byte) : List Nat → State → State × Bool
  | [], s => (s, true)
  | w :: r, s =>
    match markAt s m w with
    | none => readWords tid m r s
    | some (dbl, _) =>
      if dbl then (stopThread 3 tid (readWord m (BitVec.ofNat 24 w) s), false)
      else readWords tid m r (readWord m (BitVec.ofNat 24 w) s)

/-- Change a thread's context. -/
def State.modCtx (s : State) (tid : Tid) (f : Ctx → Ctx) : State := s.modThr tid fun t => { t with ctx := f t.ctx }

/-- Write a register of a thread. -/
def setReg (tid : Tid) (rd : BitVec 4) (v : W64) (s : State) : State :=
  clearMarks 3 (ctxWord tid rd.toNat) (ctxWord tid rd.toNat) (s.modCtx tid fun c => c.setG rd v)

/-! ### Traps (R174, R175) -/

/-- A thread traps: it is stopped where the image has no TRAP_ENTRY or TH is set, and goes to TRAP_ENTRY otherwise. -/
def trapThread (tid : Tid) (cause sub : Byte) (s : State) : State :=
  let t := s.thr[tid]
  let g := s.prog[t.progId]
  if g.trapEntry = 0xFFFFFFFF#32 ∨ t.ctx.th then stopThread 5 tid s
  else
    gotoPc tid (fld g.trapEntry 0 19) (s.modThr tid fun t => { t with
      ctx := { t.ctx with th := true, tcause := sub ++ cause, tpc := t.ctx.pc }, cyc := t.cyc.map (· + 3), busy := t.busy + 3, fell := false })

/-! ### The outcome of an instruction -/

/-- What an instruction came to: it completed in a number of cycles and goes on, or jumps, or it traps with no effect, or
its thread was stopped. -/
inductive GRes where
  | ok (s : State) (cycles : Nat)
  | jump (s : State) (pc : BitVec 19) (cycles : Nat)
  | trap (cause sub : Byte)
  | stop (s : State)

/-- Cycles of an activation go on counting (05_ostler.md R114). -/
def addCycles (tid : Tid) (n : Nat) (s : State) : State := s.modThr tid fun t => { t with cyc := t.cyc.map (· + n), busy := t.busy + n }

/-- A completed instruction goes on to the next code address; past the end of the image it traps BUS with TCAUSE 15:8 = 1,
at once or, for a thread that waits or is stalled, when it would go on (R158). -/
def advancePc (tid : Tid) (s : State) : State :=
  let t := s.thr[tid]
  if t.ctx.pc.toNat + 1 < codeEnd s.prog[t.progId] then
    if t.st = .ready then gotoPc tid (t.ctx.pc + 1) s else s.modCtx tid fun c => { c with pc := c.pc + 1 }
  else if t.st = .ready then trapThread tid causeBus 1 s
  else s.modThr tid fun t => { t with fell := true }

/-- A stepped thread returns to HALT; one that waits does so when it has taken its event (18_debug.md R410). -/
def endStep (tid : Tid) (s : State) : State :=
  let t := s.thr[tid]
  if !t.stepping then s
  else match t.st with
    | .ready => (s.modThr tid fun t => { t with st := .halt, stepping := false }).modEng (slotEng t.slot) fun g => { g with cause := 4 }
    | .wait => s
    | _ => s.modThr tid fun t => { t with stepping := false }

/-- Carry out the body of an instruction. -/
def perform (tid : Tid) (body : State → GRes) (s : State) : State :=
  match body s with
  | .ok s1 n => advancePc tid (addCycles tid n s1)
  | .jump s1 pc n => gotoPc tid pc (addCycles tid n s1)
  | .trap cause sub => trapThread tid cause sub s
  | .stop s1 => s1

/-! ### Issue (R109, R110, R116 to R120) -/

/-- The thread is READY on an engine that runs, its earlier instruction's cycles aside. -/
def readyNow (s : State) (tid : Tid) : Bool :=
  let t := s.thr[tid]
  s.engClock && t.st == .ready && !s.eng[slotEng t.slot].retired && !(s.eng[slotEng t.slot].halted && !t.stepping)

/-- The first ENG cycle in which the thread is READY and its engine free (R109). -/
def issueCycle (s : State) (tid : Tid) : Nat := max (s.eng[slotEng s.thr[tid].slot].sync s.now).clk s.thr[tid].busy

/-- Place of a thread in the slot order of its rank, counted from the slot that last issued at that rank (R110). -/
def slotTurn (s : State) (tid : Tid) : Nat :=
  let t := s.thr[tid]
  let last := (s.eng[slotEng t.slot].lastHw.toList.getD t.rank 7).toNat
  (t.slot.toNat % 8 + 7 - last) % 8

/-- Another thread of the engine issues before this one: it is READY in an earlier cycle, or in the same cycle with a higher rank or
an earlier turn (R110). The code of the shipped programs is no part of the spec, so their threads are left out (log entry 19). -/
def issuesFirst (s : State) (tid o : Tid) : Bool :=
  let a := s.thr[tid]
  let b := s.thr[o]
  let ca := issueCycle s tid
  let cb := issueCycle s o
  o != tid && readyNow s o && slotEng b.slot == slotEng a.slot && !s.prog[b.progId].shipped &&
  (decide (cb < ca) || (cb == ca && (decide (a.rank < b.rank) || (a.rank == b.rank && decide (slotTurn s o < slotTurn s tid)))))

/-- The engine's next instruction is this thread's (R110). -/
def canIssue (s : State) (tid : Tid) : Bool := readyNow s tid && !(idxs 64).any (issuesFirst s tid)

/-- The instruction store word of a frame slot. -/
def frameWord (f : Fin 128) (pc : BitVec 19) : BitVec 24 := BitVec.ofNat 24 (64 * f.val + (fld pc 0 7).toNat / 2)

/-- The page of the PC is resident and its word can be read; the thread stalls or is stopped otherwise. -/
def fetchPage (tid : Tid) (s : State) : State × Bool :=
  let s := enterPage tid true s
  let t := s.thr[tid]
  if t.st ≠ .ready then (s, false)
  else match frameOf s t.progId (pageOf t.ctx.pc) with
    | none => (s, true)
    | some f =>
      let s := readWord 2 (frameWord f t.ctx.pc) s
      if s.frm[f].valid then (s, true) else (enterPage tid true s, false)

/-- The issue takes its engine's cycle; cycles in which the thread waited for it count for the activation (R110, R114). -/
def takeCycle (tid : Tid) (s : State) : State :=
  let t := s.thr[tid]
  let c := issueCycle s tid
  let s := s.modEng (slotEng t.slot) fun g =>
    { (g.sync s.now) with doze := false, clk := c + 1, lastHw := g.lastHw.set! t.rank (fld t.slot 0 3) }
  s.modThr tid fun t => { t with bpSkip := false, cyc := t.cyc.map (· + (c - t.busy)), busy := c }

/-- The engine wakes, the page counts as executed and the next page may be prefetched. -/
def noteIssue (tid : Tid) (s : State) : State := prefetch tid (touch tid (takeCycle tid s))

/-- The words of the context that an instruction reads: its registers, g0 apart, and the PC and flags. -/
def readSet (tid : Tid) (regs : List (BitVec 4)) : List Nat :=
  (regs.filter (· != 0)).map (fun r => ctxWord tid r.toNat) ++ [ctxWord tid 16]

/-- The body completed, so that a watchpoint may act on its access. -/
def GRes.completed : GRes → Bool
  | .ok _ _ => true
  | _ => false

/-- Issue one instruction of a thread that reads the registers `regs`; `after` acts where it completed. -/
def issueThen (after : State → State) (tid : Tid) (regs : List (BitVec 4)) (body : State → GRes) (s : State) : State :=
  if !canIssue s tid then s
  else if s.thr[tid].fell then endStep tid (trapThread tid causeBus 1 s)
  else
    match fetchPage tid s with
    | (s, false) => s
    | (s, true) =>
      match (if s.thr[tid].bpSkip then none else breakpoint s tid) with
      | some all => matchHalt tid all 2 s
      | none =>
        match readWords tid 3 (readSet tid regs) (noteIssue tid s) with
        | (s, false) => s
        | (s, true) =>
          let s1 := endStep tid (perform tid body s)
          if (body s).completed then after s1 else s1

/-- Issue one instruction that does not access the data space. -/
def issue (tid : Tid) (regs : List (BitVec 4)) (body : State → GRes) (s : State) : State := issueThen id tid regs body s

/-! ### The data space (R155, R157) -/

/-- The watchpoint of a completed access halts the thread. -/
def watch (tid : Tid) (addr : W64) (read write : Bool) (s : State) : State :=
  match watchpoint s tid addr read write with
  | some all => if s.thr[tid].st = .stopped then s else matchHalt tid all 3 s
  | none => s

/-- Memory number and word of a place in the data space. -/
def DataRef.word (s : State) (tid : Tid) : DataRef → Byte × Nat
  | .localMem off => (3, ctxWord tid (0x80 + off / 8))
  | .shared off => (1, s.prog[s.thr[tid].progId].sdAt + off / 8)

/-- Read `n` bytes. -/
def DataRef.load (s : State) (tid : Tid) (n : Nat) : DataRef → W64
  | .localMem off => BitVec.ofNat 64 (memLe s.thr[tid].ctx.tlm off n)
  | .shared off => BitVec.ofNat 64 (memLe s.prog[s.thr[tid].progId].sd off n)

/-- Write the low `n` bytes of a value. -/
def DataRef.store (tid : Tid) (n : Nat) (v : W64) (s : State) : DataRef → State
  | .localMem off => s.modCtx tid fun c => { c with tlm := memPutLe c.tlm off n v.toNat }
  | .shared off => s.modProg s.thr[tid].progId fun g => { g with sd := memPutLe g.sd off n v.toNat }

/-- Resolve a data address of the thread's program. -/
def State.dataRef (s : State) (tid : Tid) (addr : W64) (n : Nat) (atomic : Bool) : Byte ⊕ DataRef :=
  Sys2Proof.Machine.dataRef s.prog[s.thr[tid].progId] addr n atomic

/-- The cycle of an access: one more on shared data. -/
def DataRef.cycles (n : Nat) : DataRef → Nat
  | .localMem _ => n
  | .shared _ => n + 1

/-- A load of `n` bytes into rd (R185). -/
def loadBody (tid : Tid) (rd : BitVec 4) (addr : W64) (n : Nat) (s : State) : GRes :=
  match s.dataRef tid addr n false with
  | .inl cause => .trap cause 0
  | .inr r =>
    match readWords tid (DataRef.word s tid r).1 [(DataRef.word s tid r).2] s with
    | (s, false) => .stop s
    | (s, true) => .ok (setReg tid rd (DataRef.load s tid n r) s) (DataRef.cycles 2 r)

/-- A store of `n` bytes of a value (R185). -/
def storeBody (tid : Tid) (v : W64) (addr : W64) (n : Nat) (s : State) : GRes :=
  match s.dataRef tid addr n false with
  | .inl cause => .trap cause 0
  | .inr r =>
    let (m, w) := DataRef.word s tid r
    .ok (clearMarks m w w (DataRef.store tid n v s r)) (DataRef.cycles 1 r)

/-- A read and write of one 64-bit shared word that nothing comes between (R157). -/
def atomicBody (tid : Tid) (rd : BitVec 4) (addr : W64) (f : W64 → W64) (s : State) : GRes :=
  match s.dataRef tid addr 8 true with
  | .inl cause => .trap cause 0
  | .inr r =>
    let (m, w) := DataRef.word s tid r
    match readWords tid m [w] s with
    | (s, false) => .stop s
    | (s, true) =>
      let old := DataRef.load s tid 8 r
      .ok (setReg tid rd old (clearMarks m w w (DataRef.store tid 8 (f old) s r))) 5

end Sys2Proof.Machine
end

