-- ==== Sys2Proof/Machine/GroomAlu.lean ====
section
/-! DEFINITION. The arithmetic and logic instructions of the groom engines (07_microcode.md R153, R184, R185). -/

namespace Sys2Proof.Machine

/-- A register of a thread. -/
def State.reg (s : State) (tid : Tid) (r : BitVec 4) : W64 := s.thr[tid].ctx.getG r

/-- Write a result and its flags. -/
def putAlu (tid : Tid) (rd : BitVec 4) (r : W64) (flags : Ctx → Ctx) (n : Nat) (s : State) : GRes :=
  .ok (setReg tid rd r (s.modCtx tid flags)) n

/-- An ALU instruction of the R format: rd = f ra rb, with Z and N of the result. -/
def aluR (tid : Tid) (o : ROps) (f : W64 → W64 → W64) (n : Nat) (s : State) : State :=
  issue tid [o.ra, o.rb] (fun s =>
    if !rOk o then .trap causeIllegal 0
    else
      let r := f (s.reg tid o.ra) (s.reg tid o.rb)
      putAlu tid o.rd r (fun c => c.zn r) n s) s

/-- An ALU instruction of the I format: rd = f ra b, with Z and N of the result. -/
def aluI (tid : Tid) (o : IOps) (ok : Bool) (f : W64 → W64) (s : State) : State :=
  issue tid [o.ra] (fun s =>
    if !ok then .trap causeIllegal 0
    else
      let r := f (s.reg tid o.ra)
      putAlu tid o.rd r (fun c => c.zn r) 1 s) s

/-- Event-time difference, sign-extended from bit 47 (R185). -/
def tsubVal (a b : W64) : W64 := ((a - b).truncate 48 : BitVec 48).signExtend 64

/-- Event-time sum modulo 2^48. -/
def taddVal (a b : W64) : W64 := ((a + b).truncate 48 : BitVec 48).zeroExtend 64

/-- ADD. -/
def execAdd (tid : Tid) (o : ROps) (s : State) : Out :=
  .next (issue tid [o.ra, o.rb] (fun s =>
    if !rOk o then .trap causeIllegal 0
    else
      let a := s.reg tid o.ra
      let b := s.reg tid o.rb
      putAlu tid o.rd (a + b) (fun c => c.flagsAdd a b) 1 s) s)

/-- SUB. -/
def execSub (tid : Tid) (o : ROps) (s : State) : Out :=
  .next (issue tid [o.ra, o.rb] (fun s =>
    if !rOk o then .trap causeIllegal 0
    else
      let a := s.reg tid o.ra
      let b := s.reg tid o.rb
      putAlu tid o.rd (a - b) (fun c => c.flagsSub a b) 1 s) s)

/-- AND. -/
def execAnd (tid : Tid) (o : ROps) (s : State) : Out := .next (aluR tid o (· &&& ·) 1 s)

/-- OR. -/
def execOr (tid : Tid) (o : ROps) (s : State) : Out := .next (aluR tid o (· ||| ·) 1 s)

/-- XOR. -/
def execXor (tid : Tid) (o : ROps) (s : State) : Out := .next (aluR tid o (· ^^^ ·) 1 s)

/-- SHL. -/
def execShl (tid : Tid) (o : ROps) (s : State) : Out := .next (aluR tid o (fun a b => a <<< (fld b 0 6).toNat) 1 s)

/-- SHR. -/
def execShr (tid : Tid) (o : ROps) (s : State) : Out := .next (aluR tid o (fun a b => a >>> (fld b 0 6).toNat) 1 s)

/-- SAR. -/
def execSar (tid : Tid) (o : ROps) (s : State) : Out := .next (aluR tid o (fun a b => a.sshiftRight (fld b 0 6).toNat) 1 s)

/-- MIN, signed. -/
def execMin (tid : Tid) (o : ROps) (s : State) : Out := .next (aluR tid o (fun a b => if a.slt b then a else b) 1 s)

/-- MAX, signed. -/
def execMax (tid : Tid) (o : ROps) (s : State) : Out := .next (aluR tid o (fun a b => if a.slt b then b else a) 1 s)

/-- CMP. -/
def execCmp (tid : Tid) (o : ROps) (s : State) : Out :=
  .next (issue tid [o.ra, o.rb] (fun s =>
    if !rOk o then .trap causeIllegal 0
    else
      let a := s.reg tid o.ra
      let b := s.reg tid o.rb
      .ok (s.modCtx tid fun c => c.flagsSub a b) 1) s)

/-- TADD. -/
def execTadd (tid : Tid) (o : ROps) (s : State) : Out := .next (aluR tid o taddVal 1 s)

/-- TSUB. -/
def execTsub (tid : Tid) (o : ROps) (s : State) : Out := .next (aluR tid o tsubVal 1 s)

/-- MUL. -/
def execMul (tid : Tid) (o : ROps) (s : State) : Out := .next (aluR tid o (· * ·) 4 s)

/-- DIVU: rb = 0 traps DIV0 (R174). -/
def execDivu (tid : Tid) (o : ROps) (s : State) : Out :=
  .next (issue tid [o.ra, o.rb] (fun s =>
    if !rOk o then .trap causeIllegal 0
    else if s.reg tid o.rb = 0 then .trap causeDiv0 0
    else
      let r := s.reg tid o.ra / s.reg tid o.rb
      putAlu tid o.rd r (fun c => c.zn r) 34 s) s)

/-- REMU: rb = 0 traps DIV0 (R174). -/
def execRemu (tid : Tid) (o : ROps) (s : State) : Out :=
  .next (issue tid [o.ra, o.rb] (fun s =>
    if !rOk o then .trap causeIllegal 0
    else if s.reg tid o.rb = 0 then .trap causeDiv0 0
    else
      let r := s.reg tid o.ra % s.reg tid o.rb
      putAlu tid o.rd r (fun c => c.zn r) 34 s) s)

/-- ADDI. -/
def execAddi (tid : Tid) (o : IOps) (s : State) : Out :=
  .next (issue tid [o.ra] (fun s =>
    let a := s.reg tid o.ra
    putAlu tid o.rd (a + immS o) (fun c => c.flagsAdd a (immS o)) 1 s) s)

/-- ANDI. -/
def execAndi (tid : Tid) (o : IOps) (s : State) : Out := .next (aluI tid o true (· &&& immZ o) s)

/-- ORI. -/
def execOri (tid : Tid) (o : IOps) (s : State) : Out := .next (aluI tid o true (· ||| immZ o) s)

/-- XORI. -/
def execXori (tid : Tid) (o : IOps) (s : State) : Out := .next (aluI tid o true (· ^^^ immZ o) s)

/-- SHLI. -/
def execShli (tid : Tid) (o : IOps) (s : State) : Out := .next (aluI tid o (shiftOk o) (· <<< immShift o) s)

/-- SHRI. -/
def execShri (tid : Tid) (o : IOps) (s : State) : Out := .next (aluI tid o (shiftOk o) (· >>> immShift o) s)

/-- SARI. -/
def execSari (tid : Tid) (o : IOps) (s : State) : Out := .next (aluI tid o (shiftOk o) (·.sshiftRight (immShift o)) s)

/-- CMPI. -/
def execCmpi (tid : Tid) (o : IOps) (s : State) : Out :=
  .next (issue tid [o.ra] (fun s =>
    let a := s.reg tid o.ra
    .ok (s.modCtx tid fun c => c.flagsSub a (immS o)) 1) s)

/-- MOVI. -/
def execMovi (tid : Tid) (o : IOps) (s : State) : Out :=
  .next (issue tid [] (fun s => putAlu tid o.rd (immS o) (fun c => c.zn (immS o)) 1 s) s)

end Sys2Proof.Machine
end

