-- ==== Sys2Proof/Machine/GroomCtl.lean ====
section
/-! DEFINITION. Branches, waits, subscriptions, timers, messages and traps of the groom engines (07_microcode.md R158, R160
to R163, R174, R175, R185, R186). -/

namespace Sys2Proof.Machine

/-- BCOND. -/
def execBcond (tid : Tid) (o : BOps) (s : State) : Out :=
  .next (issue tid [] (fun s =>
    let t := s.thr[tid]
    match t.ctx.cond o.cond with
    | none => .trap causeIllegal 0
    | some false => .ok s 1
    | some true =>
      match relTarget s.prog[t.progId] t.ctx.pc o.imm with
      | none => .trap causeBus 0
      | some pc => .jump s pc 2) s)

/-- The code address after the PC, as `call` and `jr` write it. -/
def nextAddr (s : State) (tid : Tid) : W64 := BitVec.ofNat 64 (s.thr[tid].ctx.pc.toNat + 1)

/-- CALL. -/
def execCall (tid : Tid) (o : JOps) (s : State) : Out :=
  .next (issue tid [] (fun s =>
    let t := s.thr[tid]
    match relTarget s.prog[t.progId] t.ctx.pc o.imm with
    | none => .trap causeBus 0
    | some pc => .jump (setReg tid o.rd (nextAddr s tid) s) pc 2) s)

/-- JR. -/
def execJr (tid : Tid) (o : ROps) (s : State) : Out :=
  .next (issue tid [o.ra] (fun s =>
    if !rOk o then .trap causeIllegal 0
    else
      match absTarget s.prog[s.thr[tid].progId] (s.reg tid o.ra) with
      | none => .trap causeBus 0
      | some pc => .jump (setReg tid o.rd (nextAddr s tid) s) pc 2) s)

/-- The activation ends: LAST_CYC and MAX_CYC take its cycles (05_ostler.md R114, R135). -/
def Thread.endActivation (t : Thread) : Thread :=
  match t.cyc with
  | none => t
  | some n => { t with cyc := none, ovrDone := false, lastCyc := satNat 16 n,
                       maxCyc := if t.maxCyc.toNat < n then satNat 16 n else t.maxCyc }

/-- WAIT (R160): takes the oldest event, or leaves the thread in WAIT until one comes. -/
def execWait (tid : Tid) (o : SOps) (s : State) : Out :=
  .next (issue tid [] (fun s =>
    if !sOk o [0] || !pairOk o.rd then .trap causeIllegal 0
    else
      let s := clearMarks 3 (ctxWord tid o.rd.toNat) (ctxWord tid (o.rd.toNat + 1)) s
      .ok (s.modThr tid fun t =>
        let t := t.endActivation
        let t := { t with ctx := { t.ctx with th := false }, waitRd := o.rd, lossDone := false }
        match t.evq with
        | e :: r => { t with evq := r, busy := t.busy + 2 }.take e
        | [] => { t with st := .wait, waiting := true }) 0) s)

/-- Change a thread's subscriptions by the object named: bit 1 of SUB tells tooth from basin (R161). -/
def subscribe (tid : Tid) (o : SOps) (on : Bool) (s : State) : GRes :=
  if !sOk o [0, 1, 2, 3] then .trap causeIllegal 0
  else if bit o.sub 1 then
    if !basinBound s s.thr[tid].progId (bvFin 64 rfl o.k) then .trap causeBasin 0
    else .ok (s.modThr tid fun t => { t with subB := setBit t.subB o.k.toNat on }) 2
  else if 2 ≤ o.k.toNat then .trap causeTracker 0
  else .ok (s.modThr tid fun t => { t with subT := setBit t.subT o.k.toNat on }) 2

/-- LSN. -/
def execLsn (tid : Tid) (o : SOps) (s : State) : Out := .next (issue tid [] (subscribe tid o true) s)

/-- ULSN. -/
def execUlsn (tid : Tid) (o : SOps) (s : State) : Out := .next (issue tid [] (subscribe tid o false) s)

/-- TIMER (R162): a value already passed matches at the next THREAD_TIMER_MATCH. -/
def execTimer (tid : Tid) (o : SOps) (s : State) : Out :=
  .next (issue tid [o.ra] (fun s =>
    if !sOk o [0] then .trap causeIllegal 0
    else
      let v : EvTime := fld (s.reg tid o.ra) 0 48
      .ok (s.modThr tid fun t => { t with timer := some v }) 1) s)

/-- TIMERX (R162). -/
def execTimerx (tid : Tid) (o : SOps) (s : State) : Out :=
  .next (issue tid [] (fun s =>
    if !sOk o [1] then .trap causeIllegal 0
    else .ok (s.modThr tid fun t => { t with timer := none }) 1) s)

/-- NOW. -/
def execNow (tid : Tid) (o : SOps) (s : State) : Out :=
  .next (issue tid [] (fun s =>
    if !sOk o [0] then .trap causeIllegal 0
    else .ok (setReg tid o.rd (s.nowEv.zeroExtend 64) s) 2) s)

/-- A thread can be signalled: placed, and not STOPPED (R163). -/
def Thread.placed (t : Thread) : Bool := t.st != .free && t.st != .stopped

/-- SIG (R163). -/
def execSig (tid : Tid) (o : SOps) (s : State) : Out :=
  .next (issue tid [o.ra, o.rb] (fun s =>
    if !sOk o [0] then .trap causeIllegal 0
    else
      let dst : Tid := bvFin 64 rfl (fld (s.reg tid o.ra) 0 6)
      let ok := s.thr[dst].placed && s.thr[dst].prog == s.thr[tid].prog
      let s1 := s.modCtx tid fun c => c.setF !ok
      .ok (if ok then
        enqueue dst { kind := 6, src := BitVec.ofNat 8 tid.val, arg := 0, data := fld (s.reg tid o.rb) 0 32, time := s.nowEv } s1
        else s1) 2) s)

/-- DBF (R163). -/
def execDbf (tid : Tid) (o : SOps) (s : State) : Out :=
  .next (issue tid [o.ra] (fun s =>
    if !sOk o [0] then .trap causeIllegal 0
    else
      let full := decide (64 ≤ s.far.msgs.length)
      let m : EvTime × BitVec 6 × W32 := (s.nowEv, BitVec.ofFin tid, fld (s.reg tid o.ra) 0 32)
      let s1 := s.modCtx tid fun c => c.setF full
      .ok (if full then s1 else { s1 with far := { s1.far with msgs := s1.far.msgs ++ [m] } }) 2) s)

/-- ATTN (R163): source 129 + k; k above 7 traps ILLEGAL (R185). -/
def execAttn (tid : Tid) (o : SOps) (s : State) : Out :=
  .next (issue tid [] (fun s =>
    if !sOk o [0] then .trap causeIllegal 0
    else if h : o.k.toNat < 8 then .ok (pulse ⟨129 + o.k.toNat, by omega⟩ s) 1
    else .trap causeIllegal 0) s)

/-- Special register k of a thread; none above 5 (R185). -/
def special (s : State) (tid : Tid) (k : BitVec 6) : Option W64 :=
  let t := s.thr[tid]
  match k.toNat with
  | 0 => some (BitVec.ofNat 64 tid.val)
  | 1 => some (t.slot.zeroExtend 64)
  | 2 => some (t.prog.zeroExtend 64)
  | 3 => some (t.ctx.tcause.zeroExtend 64)
  | 4 => some (t.ctx.tpc.zeroExtend 64)
  | 5 => some (BitVec.ofNat 64 t.evq.length)
  | _ => none

/-- MFS. -/
def execMfs (tid : Tid) (o : SOps) (s : State) : Out :=
  .next (issue tid [] (fun s =>
    if !sOk o [0] then .trap causeIllegal 0
    else match special s tid o.k with
      | none => .trap causeIllegal 0
      | some v => .ok (setReg tid o.rd v s) 1) s)

/-- TRAP: SW with k in TCAUSE 15:8. -/
def execTrap (tid : Tid) (o : SOps) (s : State) : Out :=
  .next (issue tid [] (fun _ =>
    if !sOk o [0] then .trap causeIllegal 0 else .trap causeSw (o.k.zeroExtend 8)) s)

end Sys2Proof.Machine
end

