-- ==== Sys2Proof/Machine/GroomChan.lean ====
section
/-! DEFINITION. The channel, harness, basin, spillway and angle instructions of the groom engines (07_microcode.md R164 to
R173). -/

namespace Sys2Proof.Machine

/-! ### Channels and harnesses (R164 to R167) -/

/-- A write of a channel instruction: the channel shall be open and bound to the program. -/
def chanInstr (tid : Tid) (o : SOps) (subs : List Nat) (op : Byte) (v : EvTime) (s : State) : GRes :=
  let l : Lch := bvFin 64 rfl (objectOf o s.thr[tid].ctx)
  if !sOkX o subs then .trap causeIllegal 0
  else if !chanBound s s.thr[tid].progId l then .trap causeChan 0
  else .ok (armWrite tid { har := false, tgt := BitVec.ofNat 8 l.val, op := op, v := v } s) 2

/-- The registers a channel instruction reads: ra for a value, rb when it names the channel. -/
def chanRegs (o : SOps) (value : Bool) : List (BitVec 4) := (if value then [o.ra] else []) ++ (if o.x then [o.rb] else [])

/-- Bits 47:0 of ra. -/
def timeArg (s : State) (tid : Tid) (o : SOps) : EvTime := fld (s.reg tid o.ra) 0 48

/-- CARM: compare A (SUB 0) or B (SUB 1). -/
def execCarm (tid : Tid) (o : SOps) (s : State) : Out :=
  .next (issue tid (chanRegs o true) (fun s =>
    chanInstr tid o [0, 1] (if o.sub = 0 then 0 else 1) (timeArg s tid o) s) s)

/-- CSHD: shadow A (SUB 0), B (SUB 1) or the period shadow (SUB 2). -/
def execCshd (tid : Tid) (o : SOps) (s : State) : Out :=
  .next (issue tid (chanRegs o true) (fun s =>
    chanInstr tid o [0, 1, 2] (if o.sub = 0 then 2 else if o.sub = 1 then 3 else 4) (timeArg s tid o) s) s)

/-- CDIS: A, B or both by SUB bits 1:0. -/
def execCdis (tid : Tid) (o : SOps) (s : State) : Out :=
  .next (issue tid (chanRegs o false) (fun s => chanInstr tid o [1, 2, 3] 5 (o.sub.zeroExtend 48) s) s)

/-- CFRC: SUB 1 high, 2 low, 3 safe. -/
def execCfrc (tid : Tid) (o : SOps) (s : State) : Out :=
  .next (issue tid (chanRegs o false) (fun s => chanInstr tid o [1, 2, 3] 6 (o.sub.zeroExtend 48) s) s)

/-- CLOCK: SUB 1 sets LOCK, SUB 0 clears it. -/
def execClock (tid : Tid) (o : SOps) (s : State) : Out :=
  .next (issue tid (chanRegs o false) (fun s => chanInstr tid o [0, 1] 7 (o.sub.zeroExtend 48) s) s)

/-- CCAP (R166): the mirror value selected by SUB; a fresh one is marked returned, and the clear of FULL bits of a read of the
same value is sent. -/
def execCcap (tid : Tid) (o : SOps) (s : State) : Out :=
  .next (issue tid (chanRegs o false) (fun s =>
    let l : Lch := bvFin 64 rfl (objectOf o s.thr[tid].ctx)
    if !sOkX o [0, 1, 2, 3] then .trap causeIllegal 0
    else if !chanBound s s.thr[tid].progId l then .trap causeChan 0
    else
      let i : Fin 4 := bvFin 4 rfl (fld o.sub 0 2)
      let m := s.lmap[l].mir
      let fresh := bit m.fresh i.val
      let s1 := setReg tid o.rd (m.val[i].zeroExtend 64) (s.modCtx tid fun c => c.setF !fresh)
      if !fresh then .ok s1 2
      else
        let s2 := s1.modLMap l fun k => { k with mir := { k.mir with fresh := setBit k.mir.fresh i.val false } }
        .ok (if i = 3 then s2
          else armWrite tid { har := false, tgt := BitVec.ofNat 8 l.val, op := BitVec.ofNat 8 (12 + i.val), v := 0 } s2) 2) s)

/-- HACT (R167): an action request to a harness of the program. -/
def execHact (tid : Tid) (o : SOps) (s : State) : Out :=
  .next (issue tid (chanRegs o true) (fun s =>
    if !sOkX o [0] then .trap causeIllegal 0
    else match harnessBound s s.thr[tid].progId (objectOf o s.thr[tid].ctx).toNat with
      | none => .trap causeHarness 0
      | some h =>
        .ok (armWrite tid { har := true, tgt := BitVec.ofNat 8 h.val, op := 0, v := (fld (s.reg tid o.ra) 0 32 : W32).zeroExtend 48 } s) 2) s)

/-! ### Basins (R168, R169) -/

/-- The record a post builds from ra and rb (R168). -/
def postRec (tid : Tid) (a b : W64) : Rec :=
  { time := fld a 0 48, kind := fld b 48 8, src := BitVec.ofNat 8 tid.val, flags := 0, aux := fld b 32 16, data := fld b 0 32 }

/-- A record as the 16 bytes that `recOf` reads, for a post that stalls. -/
def Rec.bits (r : Rec) : BitVec 128 := r.data ++ r.aux ++ (0#8 : BitVec 8) ++ r.flags ++ r.src ++ r.kind ++ r.time

/-- The descriptor is one a thread may post (R168). -/
def postOk (b : W64) : Bool := decide (0x80 ≤ (fld b 48 8).toNat) && fld b 56 8 == 0#8

/-- BPOST (R168): F sets when the record is dropped; under the stall policy the thread waits for room. -/
def execBpost (tid : Tid) (o : SOps) (s : State) : Out :=
  .next (issue tid [o.ra, o.rb] (fun s =>
    let b : BasinId := bvFin 64 rfl o.k
    let v := s.reg tid o.rb
    if !sOk o [0] then .trap causeIllegal 0
    else if !basinBound s s.thr[tid].progId b || !postOk v then .trap causeBasin 0
    else
      let r := postRec tid (s.reg tid o.ra) v
      if s.bas[b].policy = 2#2 ∧ makeRoom b s = none then
        .ok (s.modThr tid fun t => { t with st := .stall, stallOn := .post, stallPost := some (o.k, Rec.bits r) }) 2
      else
        let (s1, stored) := postTo b r s
        .ok (s1.modCtx tid fun c => c.setF !stored) 2) s)

/-- BREAD (R169): the record at RD_CNT, or 0 with F set at an empty basin. -/
def execBread (tid : Tid) (o : SOps) (s : State) : Out :=
  .next (issue tid [] (fun s =>
    let b : BasinId := bvFin 64 rfl o.k
    if !sOk o [0] || !pairOk o.rd then .trap causeIllegal 0
    else if !basinBound s s.thr[tid].progId b then .trap causeBasin 0
    else
      let k := s.bas[b]
      let put (lo hi : W64) (f : Bool) (s : State) : State :=
        setReg tid (o.rd + 1) hi (setReg tid o.rd lo (s.modCtx tid fun c => c.setF f))
      if k.occ = 0 then .ok (put 0 0 true s) 3
      else
        let page := k.rdPage.toNat
        let slot := k.rdCnt.toNat % 64
        let a := 0x400 * page + 16 * slot
        let w := 128 * page + 2 * slot
        let s := readWord 4 (BitVec.ofNat 24 (w + 1)) (readWord 4 (BitVec.ofNat 24 w) s)
        .ok (put (BitVec.ofNat 64 (memLe s.bmem a 8)) (BitVec.ofNat 64 (memLe s.bmem (a + 8) 8)) false s) 3) s)

/-- BACK (R169): RD_CNT moves on by ra bits 31:0; F sets when the write is refused. -/
def execBack (tid : Tid) (o : SOps) (s : State) : Out :=
  .next (issue tid [o.ra] (fun s =>
    let b : BasinId := bvFin 64 rfl o.k
    if !sOk o [0] then .trap causeIllegal 0
    else if !basinBound s s.thr[tid].progId b then .trap causeBasin 0
    else
      let (s1, ok) := writeRdCnt b (s.bas[b].rdCnt + fld (s.reg tid o.ra) 0 32) s
      .ok (s1.modCtx tid fun c => c.setF !ok) 2) s)

/-! ### Spillway (R170, R171) -/

/-- The entry that a 24-byte image spells, and FLAGS bits 6:1 (R151, R170). -/
def imageEnt (l : List Byte) : SpwEnt × BitVec 6 :=
  let flags := byteAt l 18
  ({ SpwEnt.reset with
      time := BitVec.ofNat 48 (leAt l 0 6), tkind := byteAt l 6, tgt := byteAt l 7, ckind := byteAt l 8, csrc := byteAt l 9
      carg := BitVec.ofNat 16 (leAt l 10 2), expiry := BitVec.ofNat 48 (leAt l 12 6), trel := bit flags 0
      hact := BitVec.ofNat 32 (leAt l 20 4) }, fld flags 1 6)

/-- Why an image address traps: BUS where its 24 bytes leave the local memory, ALIGN where it is misaligned. -/
def imageTrap (a : Nat) : Option Byte :=
  if 0x400 < a + 24 then some causeBus else if a % 8 = 0 then none else some causeAlign

/-- SPW (R170): the handle, or the reason of the refusal with F. -/
def execSpw (tid : Tid) (o : SOps) (s : State) : Out :=
  .next (issueThen (watch tid (s.reg tid o.ra) true false) tid [o.ra] (fun s =>
    let a := (s.reg tid o.ra).toNat
    if !sOk o [0] then .trap causeIllegal 0
    else match imageTrap a with
      | some cause => .trap cause 0
      | none =>
        match readWords tid 3 [ctxWord tid (0x80 + a / 8), ctxWord tid (0x80 + a / 8 + 1), ctxWord tid (0x80 + a / 8 + 2)] s with
        | (s, false) => .stop s
        | (s, true) =>
          let (e, z) := imageEnt (memBytes s.thr[tid].ctx.tlm a 24)
          match spwWrite s.thr[tid].progId tid e z s with
          | (s1, .inl r) => .ok (setReg tid o.rd (BitVec.ofNat 64 r) (s1.modCtx tid fun c => c.setF true)) 6
          | (s1, .inr h) => .ok (setReg tid o.rd (h.zeroExtend 64) (s1.modCtx tid fun c => c.setF false)) 6) s)

/-- The entry that a handle names, when it is the writer's program's, unconfirmed and not expired (R138, R144, R146, R171). -/
def handleEnt (s : State) (p : ProgId) (h : W16) : Option (Fin 256) :=
  let i : Fin 256 := bvFin 256 rfl (fld h 0 8)
  let e := s.spw.ent[i]
  let mine := (idxs 64).any fun t => e.owner == BitVec.ofNat 8 t.val && s.thr[t].st != .free && s.thr[t].progId == p
  if e.valid && !e.conf && !passed s.nowEv e.expiry && e.gen == fld h 8 8 && mine then some i else none

/-- SPC (R171): confirms a commit-kind entry. -/
def execSpc (tid : Tid) (o : SOps) (s : State) : Out :=
  .next (issue tid [o.ra] (fun s =>
    if !sOk o [0] then .trap causeIllegal 0
    else match (handleEnt s s.thr[tid].progId (fld (s.reg tid o.ra) 0 16)).filter fun i => s.spw.ent[i].ckind == 3 with
      | none => .ok (s.modCtx tid fun c => c.setF true) 2
      | some i => .ok (confirm [i] s.nowEv (s.modCtx tid fun c => c.setF false)) 2) s)

/-- SPX (R171, R146): withdraws an unconfirmed entry. -/
def execSpx (tid : Tid) (o : SOps) (s : State) : Out :=
  .next (issue tid [o.ra] (fun s =>
    if !sOk o [1] then .trap causeIllegal 0
    else match handleEnt s s.thr[tid].progId (fld (s.reg tid o.ra) 0 16) with
      | none => .ok (s.modCtx tid fun c => c.setF true) 2
      | some i =>
        .ok ((dropEntries [i] (s.modCtx tid fun c => c.setF false)).modSpw fun w => { w with withdrawn := satInc w.withdrawn }) 2) s)

/-! ### Angles (R172, R173, R233) -/

/-- Tooth pitch in 0.01°, and the angle of the whole cycle. -/
def Tracker.pitch (k : Tracker) : Nat := 36000 / max 1 k.nt
def Tracker.span (k : Tracker) : Nat := k.pitch * k.cycle

/-- The tooth and the delay of an angle: none where R172 sets F. -/
def angleOf (k : Tracker) (ra : W64) (base : Option W16) : Option (W16 × W32) :=
  let a := ra.toNat
  if (k.gs ≠ .sync ∧ k.gs ≠ .prov) ∨ !k.gotPer ∨ k.span ≤ a then none
  else
    let b := match base with | some b => b.toNat | none => a / max 1 k.pitch
    if k.cycle ≤ b ∨ a < b * k.pitch then none
    else
      let d := roundDiv ((a - b * k.pitch) * k.per.toNat) k.pitch
      if 2 ^ 32 ≤ d then none else some (BitVec.ofNat 16 b, BitVec.ofNat 32 d)

/-- A tracker by its number. -/
def trackerNo (k : BitVec 6) : Option (Fin 2) := idx? 2 k.toNat

/-- Write rd and F from an outcome that may not exist; rd reads 0 then. -/
def putOr (tid : Tid) (rd : BitVec 4) (v : Option W64) (n : Nat) (s : State) : GRes :=
  .ok (setReg tid rd (v.getD 0) (s.modCtx tid fun c => c.setF v.isNone)) n

/-- ACONV (R172). -/
def execAconv (tid : Tid) (o : SOps) (s : State) : Out :=
  .next (issue tid [o.ra, o.rb] (fun s =>
    if !sOk o [0] then .trap causeIllegal 0
    else match trackerNo o.k with
      | none => .trap causeTracker 0
      | some n =>
        let base : Option W16 := if o.rb = 0 then none else some (fld (s.reg tid o.rb) 0 16)
        putOr tid o.rd ((angleOf s.gt[n] (s.reg tid o.ra) base).map fun (b, d) => (0#16 : BitVec 16) ++ b ++ d) 8 s) s)

/-- The tracker has a sync of which values exist. -/
def Tracker.synced (k : Tracker) : Bool := k.gs == .prov || k.gs == .sync || k.gs == .hold

/-- TPER (R173). -/
def execTper (tid : Tid) (o : SOps) (s : State) : Out :=
  .next (issue tid [o.ra] (fun s =>
    if !sOk o [0] then .trap causeIllegal 0
    else match trackerNo o.k with
      | none => .trap causeTracker 0
      | some n =>
        let k := s.gt[n]
        let i := (s.reg tid o.ra).toNat
        putOr tid o.rd (if k.synced then k.win[i]?.map fun p => p.zeroExtend 64 else none) 2 s) s)

/-- TLAST (R173): the last accepted tooth, not an extra tooth. -/
def execTlast (tid : Tid) (o : SOps) (s : State) : Out :=
  .next (issue tid [] (fun s =>
    if !sOk o [1] then .trap causeIllegal 0
    else match trackerNo o.k with
      | none => .trap causeTracker 0
      | some n =>
        let k := s.gt[n]
        let stamp := if k.exSeen then k.exAt else k.last
        putOr tid o.rd (if k.synced && k.gotTooth then some (k.idx ++ stamp) else none) 2 s) s)

end Sys2Proof.Machine
end

