-- ==== Sys2Proof/Machine/GroomMem.lean ====
section
/-! DEFINITION. Loads, stores and atomics of the groom engines (07_microcode.md R155 to R157, R185). -/

namespace Sys2Proof.Machine

/-- The address of a load or store: ra + imm. -/
def memAddr (s : State) (tid : Tid) (o : IOps) : W64 := s.reg tid o.ra + immS o

/-- LDW. -/
def execLdw (tid : Tid) (o : IOps) (s : State) : Out :=
  .next (issueThen (watch tid (memAddr s tid o) true false) tid [o.ra]
    (fun s => loadBody tid o.rd (memAddr s tid o) 4 s) s)

/-- LDD. -/
def execLdd (tid : Tid) (o : IOps) (s : State) : Out :=
  .next (issueThen (watch tid (memAddr s tid o) true false) tid [o.ra]
    (fun s => loadBody tid o.rd (memAddr s tid o) 8 s) s)

/-- STW. -/
def execStw (tid : Tid) (o : IOps) (s : State) : Out :=
  .next (issueThen (watch tid (memAddr s tid o) false true) tid [o.ra, o.rd]
    (fun s => storeBody tid (s.reg tid o.rd) (memAddr s tid o) 4 s) s)

/-- STD. -/
def execStd (tid : Tid) (o : IOps) (s : State) : Out :=
  .next (issueThen (watch tid (memAddr s tid o) false true) tid [o.ra, o.rd]
    (fun s => storeBody tid (s.reg tid o.rd) (memAddr s tid o) 8 s) s)

/-- FADD. -/
def execFadd (tid : Tid) (o : ROps) (s : State) : Out :=
  .next (issueThen (watch tid (s.reg tid o.ra) true true) tid [o.ra, o.rb]
    (fun s =>
      if !rOk o then .trap causeIllegal 0
      else atomicBody tid o.rd (s.reg tid o.ra) (· + s.reg tid o.rb) s) s)

/-- SWAP. -/
def execSwap (tid : Tid) (o : ROps) (s : State) : Out :=
  .next (issueThen (watch tid (s.reg tid o.ra) true true) tid [o.ra, o.rb]
    (fun s =>
      if !rOk o then .trap causeIllegal 0
      else atomicBody tid o.rd (s.reg tid o.ra) (fun _ => s.reg tid o.rb) s) s)

end Sys2Proof.Machine
end

