-- ==== Sys2Proof/Machine/DebugOps.lean ====
section
/-! DEFINITION. The debug port's shared operations: the pins of the boundary register, halts and resumption, a single step
of a thread, walk mode, the debug register file (18_debug.md). -/

namespace Sys2Proof.Machine

/-! ### The TAP (R401 to R404, R416, R417) -/

/-- The TAP is powered: not in DEEP, and not while VBAT is absent. -/
def State.tapOn (s : State) : Bool := s.pwr.phase != .deep && s.pwr.vbat

/-- Set the debug block. -/
def State.modDbg (s : State) (f : Debug → Debug) : State := { s with dbg := f s.dbg }

/-- An instruction in the instruction register, with what its data register captures; inputs that had been cut from their pins see
them again (R404). -/
def tapSelect (ir : BitVec 5) (tdo : BitVec 147) (s : State) : State :=
  let s1 := s.modDbg fun d => { d with ir := ir, tdo := tdo }
  if s.pinsCut && !s1.pinsCut then forEach (idxs 40) feedPad s1 else s1

/-- DBG_REG, DBG_MEM and FUSE act as BYPASS while DBG_LOCK is in force (R416). -/
def State.dbgOpen (s : State) : Bool := s.tapOn && !s.fsh.dbgLock

/-- A cell of the boundary register as a sample finds it (R403): TIO, BSY and SVC by the state, the other pins open. -/
def sampleCell (s : State) (i : Nat) : Bool :=
  match idx? 40 (i / 3), i % 3 with
  | some k, 0 => padLevel s k s.now
  | some k, 1 => (tioOut s k s.now).1
  | some k, _ => (tioOut s k s.now).2
  | none, _ =>
    if i = 141 then attention s else if i = 142 then true
    else if i = 143 then false else if i = 144 then s.hlt.cause != 0
    else Config.pinSample i s.far.free

/-- The 147 cells. -/
def sampleAll (s : State) : BitVec 147 := (List.range 147).foldl (fun v i => setBit v i (sampleCell s i)) 0

/-! ### Halts of the Farrier (R408, R413, R414) -/

/-- The Farrier stops before its next instruction; its PC is the firmware's. -/
def haltFarrier (cause : BitVec 3) (s : State) : State :=
  let s := stopWdt { s with far := { s.far with halted := true, fcause := cause, free := s.far.free + 1 } }
  s.modDbg fun d => { d with fPc := Config.farrierPc s.far.free }

/-- HALT_F. A Farrier in reset executes nothing that a request could stop. -/
def requestHaltF (s : State) : State := if s.far.halted || s.pwr.phase == .held then s else haltFarrier 1 s

/-- The Farrier runs on: it stores the errors measured meanwhile (02_time.md R27), writes the entries that a wake, walk mode (R413)
or the timebase left for it, completes what it was carrying out, finishes a boot or an L2 restart that waited (R414). The next muster
is at the first 1 ms boundary (R315). -/
def requestResumeF (s : State) : State :=
  if !s.far.halted || s.pwr.phase == .walk then s
  else
    let s := { s with far := { s.far with halted := false } }
    let s := if s.asleep then s else goWdt s
    match s.pwr.phase with
    | .bootHalt => completeBoot s
    | .run => if s.pwr.restart then completeRestart s else cfgFinish (openFinish (writeDue (finishWake (storeMeans { s with far := { s.far with musterMs := s.msNow } }))))
    | _ => s

/-- STEP_F: one instruction of the firmware, whose code is no part of the spec; the Farrier halts again with cause 4. -/
def requestStepF (s : State) : State := if s.far.halted && s.pwr.phase != .walk then haltFarrier 4 s else s

/-! ### Halts of engines and threads (R410) -/

/-- Threads placed on an engine. -/
def placedThreads (s : State) (e : EngineId) : List Tid :=
  (idxs 64).filter fun t => s.thr[t].st != .free && s.thr[t].st != .stopped && slotEng s.thr[t].slot == e

/-- Nothing issues any more from a READY or waiting thread. -/
def parkThread (tid : Tid) (s : State) : State :=
  s.modThr tid fun t => { t with stepping := false, st := if t.st = .ready ∨ t.st = .wait then .halt else t.st }

/-- HALT_ENG. -/
def requestHaltEng (e : EngineId) (s : State) : State :=
  let s := s.modEng e fun g => { g with halted := true, cause := 1 }
  forEach (placedThreads s e) parkThread s

/-- A thread in HALT that no request holds any more goes on; one that waited takes an event that has queued. -/
def releaseThread (tid : Tid) (s : State) : State :=
  if s.thr[tid].st ≠ .halt || s.holdsThread tid then s
  else
    let g := (s.eng[slotEng s.thr[tid].slot]).sync s.now
    (s.modEng (slotEng s.thr[tid].slot) fun _ => g).modThr tid fun t =>
      { t with bpSkip := true, busy := max t.busy g.clk, st := if t.waiting then .wait else .ready }.wake

/-- RESUME_ENG. -/
def requestResumeEng (e : EngineId) (s : State) : State :=
  let s := s.modEng e fun g => { g with halted := false }
  forEach (placedThreads s e) releaseThread s

/-- HALT_T. -/
def requestHaltT (tid : Tid) (s : State) : State :=
  if s.thr[tid].st = .free ∨ s.thr[tid].st = .stopped then s
  else haltThread tid (s.modEng (slotEng s.thr[tid].slot) fun g => { g with cause := 1 })

/-- RESUME_T. -/
def requestResumeT (tid : Tid) (s : State) : State :=
  releaseThread tid (s.modThr tid fun t => { t with haltReq := false, stepping := false })

/-- The instruction at a thread's PC, when its page is resident (07_microcode.md R184). -/
def wordAt (s : State) (tid : Tid) : Option W32 :=
  let t := s.thr[tid]
  match frameOf s t.progId (pageOf t.ctx.pc) with
  | none => none
  | some f => if s.frm[f].valid then s.frm[f].words[(fld t.ctx.pc 0 7).toNat]? else none

/-- Run a decoded instruction of an engine. -/
def runGroom (i : Instr) (s : State) : Out :=
  match i with
  | .add t o => execAdd t o s
  | .sub t o => execSub t o s
  | .and t o => execAnd t o s
  | .or t o => execOr t o s
  | .xor t o => execXor t o s
  | .shl t o => execShl t o s
  | .shr t o => execShr t o s
  | .sar t o => execSar t o s
  | .min t o => execMin t o s
  | .max t o => execMax t o s
  | .cmp t o => execCmp t o s
  | .tadd t o => execTadd t o s
  | .tsub t o => execTsub t o s
  | .mul t o => execMul t o s
  | .divu t o => execDivu t o s
  | .remu t o => execRemu t o s
  | .addi t o => execAddi t o s
  | .andi t o => execAndi t o s
  | .ori t o => execOri t o s
  | .xori t o => execXori t o s
  | .shli t o => execShli t o s
  | .shri t o => execShri t o s
  | .sari t o => execSari t o s
  | .cmpi t o => execCmpi t o s
  | .movi t o => execMovi t o s
  | .ldw t o => execLdw t o s
  | .ldd t o => execLdd t o s
  | .stw t o => execStw t o s
  | .std t o => execStd t o s
  | .fadd t o => execFadd t o s
  | .swap t o => execSwap t o s
  | .bcond t o => execBcond t o s
  | .call t o => execCall t o s
  | .jr t o => execJr t o s
  | .wait t o => execWait t o s
  | .now t o => execNow t o s
  | .sig t o => execSig t o s
  | .dbf t o => execDbf t o s
  | .attn t o => execAttn t o s
  | .mfs t o => execMfs t o s
  | .trap t o => execTrap t o s
  | .carm t o => execCarm t o s
  | .cshd t o => execCshd t o s
  | .cdis t o => execCdis t o s
  | .cfrc t o => execCfrc t o s
  | .clock t o => execClock t o s
  | .ccap t o => execCcap t o s
  | .hact t o => execHact t o s
  | .bpost t o => execBpost t o s
  | .bread t o => execBread t o s
  | .back t o => execBack t o s
  | .spw t o => execSpw t o s
  | .aconv t o => execAconv t o s
  | .lsn t o => execLsn t o s
  | .ulsn t o => execUlsn t o s
  | .timer t o => execTimer t o s
  | .timerx t o => execTimerx t o s
  | .spc t o => execSpc t o s
  | .spx t o => execSpx t o s
  | .tper t o => execTper t o s
  | .tlast t o => execTlast t o s
  | _ => .next s

/-- STEP_T (R410): exactly one instruction of a halted thread. One that waits steps by taking its event; one whose page is
away issues when the page has come. -/
def requestStepT (tid : Tid) (s : State) : Out :=
  let t := s.thr[tid]
  if t.st ≠ .halt || !s.engClock then .next s
  else if t.waiting then .next (s.modThr tid fun t => { t with stepping := true, st := .wait }.wake)
  else
    let s := s.modThr tid fun t => { t with stepping := true, bpSkip := true, st := .ready }
    match wordAt s tid with
    | none => .next (fetchPage tid s).1
    | some w =>
      match decodeGroom tid w with
      | some i => runGroom i s
      | none => .next (issue tid [] (fun _ => .trap causeIllegal 0) s)

/-! ### Walk mode (R412, R413) -/

/-- The Farrier and every engine are halted. -/
def State.allHalted (s : State) : Bool := s.far.halted && (idxs 8).all fun e => s.eng[e].halted || s.eng[e].retired

/-- The power states in which the PLL can be released. -/
def State.canWalk (s : State) : Bool :=
  match s.pwr.phase with
  | .run | .bootWait | .bootHalt => true
  | _ => false

/-- WALK_ENTER. -/
def requestWalkEnter (tide : TideCnt) (s : State) : State :=
  if !(s.canWalk && s.allHalted) then s.modDbg fun d => { d with walkErr := true }
  else
    let s := startCoarse (latchPair true (safePower (tideTo tide s)))
    let s := { s with pwr := { s.pwr with phase := .walk }, tb := { s.tb with refreshOn := false }
                      dbg := { s.dbg with walkErr := false, walkFrom := s.pwr.phase, walkAt := s.tb.dt } }
    pulse 197 s

/-- WALK_EXIT: the wake ladder begins. -/
def requestWalkExit (s : State) : State :=
  if s.pwr.phase ≠ .walk then s
  else pulse 197 { s with pwr := { s.pwr with phase := .wakePll }, dbg := { s.dbg with walkDone := true } }

/-! ### Fuses (R415) -/

/-- The blow is refused. -/
def fuseRefused (s : State) (idx : Byte) : Bool :=
  !s.far.halted || decide (16 < idx.toNat) || (decide (idx.toNat ≤ 13) && s.nv.mapLock)

/-- A blow starts, or is refused with FUSE_ERR; one asked for during another is dropped. -/
def startFuse (idx : Byte) (s : State) : State :=
  if s.dbg.fuseBusy then s
  else if fuseRefused s idx then s.modDbg fun d => { d with fuseErr := true }
  else s.modDbg fun d => { d with fuseErr := false, fuseBusy := true, fuseIdx := idx }

/-- One bit is blown. -/
def NvBlock.blow (n : NvBlock) (idx : Nat) : NvBlock :=
  if idx ≤ 13 then { n with fuseMap := setBit n.fuseMap idx true }
  else if idx = 14 then { n with mapLock := true }
  else if idx = 15 then { n with bootSrc := true }
  else if idx = 16 then { n with dbgLock := true }
  else n

/-! ### The debug register file (R405, R418) -/

/-- Walk mode, up to the release of the clocks. -/
def State.walking (s : State) : Bool := s.pwr.phase == .walk || (s.asleep && s.dbg.walkDone)

/-- DSTAT. -/
def dstat (s : State) : W32 :=
  let eng : Byte := (idxs 8).foldl (fun v e => setBit v e.val s.eng[e].halted) 0
  let d := s.dbg
  (b2v 1 (s.asleep && !s.walking) ++ b2v 1 d.fuseErr ++ b2v 1 d.fuseBusy ++ b2v 1 d.walkErr ++ b2v 1 s.walking ++
   eng ++ (0#4 : BitVec 4) ++ s.far.fcause ++ b2v 1 s.far.halted : BitVec 21).zeroExtend 32

/-- Hardware threads of an engine in HALT. -/
def haltedHt (s : State) (e : EngineId) : Byte :=
  (placedThreads s e).foldl (fun v t => if s.thr[t].st = .halt then setBit v (s.thr[t].slot.toNat % 8) true else v) 0

/-- Word of the debug register file. F_PC holds the firmware's PC while it is halted, and nothing told otherwise. -/
def dbgPeek (s : State) (idx : Nat) : W32 :=
  match idx with
  | 0x00 => dstat s
  | 0x02 => wBits [s.dbg.haltOnRst]
  | 0x03 => if s.far.halted then s.dbg.fPc else Config.farrierPc s.far.free
  | 0x04 => s.dbg.fBp[0]
  | 0x05 => s.dbg.fBp[1]
  | 0x06 => s.dbg.fBp[2]
  | 0x07 => s.dbg.fBp[3]
  | 0x08 => s.dbg.fWp[0]
  | 0x09 => s.dbg.fWp[1]
  | 0x0A => wz s.dbg.fWpK[0]
  | 0x0B => wz s.dbg.fWpK[1]
  | _ =>
    if idx < 0x10 then 0
    else match idx? 8 ((idx - 0x10) / 16) with
      | none => 0
      | some e =>
        let g := s.eng[e]
        match idx % 16 with
        | 1 => wz (g.cause ++ haltedHt s e)
        | 2 => g.bp[0]
        | 3 => g.bp[1]
        | 4 => g.bp[2]
        | 5 => g.bp[3]
        | 6 => g.wp[0]
        | 7 => g.wp[1]
        | _ => 0

/-- Carry out a step when a bit asks for it. -/
def whenBit (b : Bool) (f : State → State) (s : State) : State := if b then f s else s

/-- The requests of index 1, lowest bit first. -/
def farrierRequests (v : W32) (s : State) : State :=
  let s := whenBit (bit v 0) requestHaltF s
  let s := whenBit (bit v 1) requestResumeF s
  let s := whenBit (bit v 2) requestStepF s
  let s := whenBit (bit v 3) (assertReset .dbg) s
  let s := whenBit (bit v 4) (fun s => requestWalkEnter s.rsv.tide s) s
  whenBit (bit v 5) requestWalkExit s

/-- The requests of an engine's first index, lowest bit first. -/
def engineRequests (e : EngineId) (v : W32) (s : State) : Out :=
  let tid : Tid := bvFin 64 rfl (fld v 8 6)
  let s := whenBit (bit v 0) (requestHaltEng e) s
  let s := whenBit (bit v 1) (requestResumeEng e) s
  let s := whenBit (bit v 2) (requestHaltT tid) s
  let s := whenBit (bit v 3) (requestResumeT tid) s
  if bit v 4 then requestStepT tid s else .next s

/-- A write of the debug register file; what R418 does not list ignores it. -/
def dbgWrite (idx : Nat) (v : W32) (s : State) : Out :=
  match idx with
  | 0x01 => .next (farrierRequests v s)
  | 0x02 => .next (s.modDbg fun d => { d with haltOnRst := bit v 0 })
  | 0x04 => .next (s.modDbg fun d => { d with fBp := d.fBp.set 0 v })
  | 0x05 => .next (s.modDbg fun d => { d with fBp := d.fBp.set 1 v })
  | 0x06 => .next (s.modDbg fun d => { d with fBp := d.fBp.set 2 v })
  | 0x07 => .next (s.modDbg fun d => { d with fBp := d.fBp.set 3 v })
  | 0x08 => .next (s.modDbg fun d => { d with fWp := d.fWp.set 0 v })
  | 0x09 => .next (s.modDbg fun d => { d with fWp := d.fWp.set 1 v })
  | 0x0A => .next (s.modDbg fun d => { d with fWpK := d.fWpK.set 0 (fld v 0 8) })
  | 0x0B => .next (s.modDbg fun d => { d with fWpK := d.fWpK.set 1 (fld v 0 8) })
  | _ =>
    if idx < 0x10 then .next s
    else match idx? 8 ((idx - 0x10) / 16) with
      | none => .next s
      | some e =>
        match idx % 16 with
        | 0 => engineRequests e v s
        | 2 => .next (s.modEng e fun g => { g with bp := g.bp.set 0 v })
        | 3 => .next (s.modEng e fun g => { g with bp := g.bp.set 1 v })
        | 4 => .next (s.modEng e fun g => { g with bp := g.bp.set 2 v })
        | 5 => .next (s.modEng e fun g => { g with bp := g.bp.set 3 v })
        | 6 => .next (s.modEng e fun g => { g with wp := g.wp.set 0 (v &&& 0x9FFFFFFF) })
        | 7 => .next (s.modEng e fun g => { g with wp := g.wp.set 1 (v &&& 0x9FFFFFFF) })
        | _ => .next s

/-! ### Debug accesses to the internal map (R406, R407) -/

/-- SYS runs, so that a debug access can be served. -/
def State.sysOn (s : State) : Bool :=
  match s.pwr.phase with
  | .run | .sleepEntry | .bootWait | .bootHalt | .walk => true
  | .held => s.pwr.level == 2#2
  | _ => s.walking

/-- What a debug read does besides: the latches of a Farrier read, with no RC field cleared, no FULL bit cleared and no claim
(R407, 00_scope.md R9, 04_channels.md R93). -/
def debugReadFx (a : W32) (s : State) : State :=
  match blockOf a with
  | none => s
  | some (b, off) =>
    match b with
    | .unit _ => if off = 0x34 ∨ off = 0x3C ∨ off = 0x6C then busReadFx a s else s
    | .prb => if off % 0x20 = 0x10 then s else busReadFx a s
    | .gt _ => if off = 0x34 then busReadFx a s else s
    | .spw => if 0x1000 ≤ off then busReadFx a s else s
    | .har _ | .ost | .irq | .hlt => s
    | .tb => if off = 0x08 then busReadFx a s else s
    | _ => busReadFx a s

/-- The access under way is carried out. -/
def debugAccess (s : State) : State :=
  let d := s.dbg
  match (if s.sysOn then busPeek s d.memAddr else none) with
  | none => s.modDbg fun d => { d with memBusy := false, memErr := true }
  | some v =>
    let s := if d.memWr then busWrite d.memAddr d.memData s else debugReadFx d.memAddr s
    s.modDbg fun d => { d with memBusy := false, memData := if d.memWr then d.memData else v }

end Sys2Proof.Machine
end

