-- ==== Sys2Proof/Machine/Debug.lean ====
section
/-! DEFINITION. The commands of the debug port (18_debug.md R401 to R418). -/

namespace Sys2Proof.Machine

/-- A TAP instruction acts only while the TAP is powered. -/
def onTap (f : State → State) (s : State) : Out := .next (if s.tapOn then f s else s)

/-- TAP_RESET (R401). -/
def execTapReset (s : State) : Out := onTap (fun s => tapSelect 1 s.dbg.tdo s) s

/-- EXTEST (R404): every open power-class harness goes SAFE. -/
def execExtest (s : State) : Out := onTap (fun s => safePower { tapSelect 0x00 (sampleAll s) s with far := { s.far with free := s.far.free + 1 } }) s

/-- IDCODE (R402). -/
def execIdcode (s : State) : Out := onTap (tapSelect 0x01 0x26408C3F) s

/-- SAMPLE_PRELOAD (R403, R417): the pins are captured, and the boundary register takes the value shifted in. -/
def execSamplePreload (v : BitVec 147) (s : State) : Out :=
  onTap (fun s =>
    let s1 := tapSelect 0x02 (sampleAll s) s
    { s1 with dbg := { s1.dbg with bsr := v }, far := { s1.far with free := s1.far.free + 1 } }) s

/-- CLAMP (R404). -/
def execClamp (s : State) : Out := onTap (fun s => safePower (tapSelect 0x03 0 s)) s

/-- HIGHZ (R404). -/
def execHighz (s : State) : Out := onTap (fun s => safePower (tapSelect 0x04 0 s)) s

/-- BYPASS (R401, R417). -/
def execBypass (s : State) : Out := onTap (tapSelect 0x1F 0) s

/-- DBG_REG (R405): bits 31:0 data, 39:32 index, bit 40 write. -/
def execDbgReg (v : BitVec 48) (s : State) : Out :=
  if !s.tapOn then .next s
  else if s.fsh.dbgLock then .next (tapSelect 0x10 0 s)
  else
    let s := tapSelect 0x10 (s.dbg.regLatch.zeroExtend 147) s
    let idx := (fld v 32 8).toNat
    if bit v 40 then dbgWrite idx (fld v 0 32) s
    else .next ({ s with far := { s.far with free := s.far.free + 1 } }.modDbg fun d => { d with regLatch := dbgPeek s idx })

/-- DBG_MEM (R406): bits 31:0 data, 63:32 address, bit 64 write, bit 65 GO. -/
def execDbgMem (v : BitVec 66) (s : State) : Out :=
  .next (
    if !s.tapOn then s
    else if s.fsh.dbgLock then tapSelect 0x11 0 s
    else
      let d := s.dbg
      let s := tapSelect 0x11 ((b2v 1 d.memBusy ++ b2v 1 d.memErr ++ d.memAddr ++ d.memData : BitVec 66).zeroExtend 147) s
      if !bit v 65 then s
      else if d.memBusy then s.modDbg fun d => { d with memErr := true }
      else if fld v 32 2 ≠ 0#2 ∨ !s.sysOn then s.modDbg fun d => { d with memErr := true, memAddr := fld v 32 32 }
      else s.modDbg fun d => { d with memErr := false, memBusy := true, memAddr := fld v 32 32, memData := fld v 0 32, memWr := bit v 64 })

/-- DBG_MEM_DONE (R406, R407): the access is carried out, and BUSY clears. -/
def execDbgMemDone (s : State) : Out := .next (if s.dbg.memBusy then debugAccess s else s)

/-- FUSE (R415): bits 7:0 index, bit 8 GO. -/
def execFuse (v : BitVec 24) (s : State) : Out :=
  .next (
    if !s.tapOn then s
    else
      let s1 := tapSelect 0x12 0 s
      if s.fsh.dbgLock || !bit v 8 then s1 else startFuse (fld v 0 8) s1)

/-- FUSE_BLOW_DONE (R415). -/
def execFuseBlowDone (s : State) : Out :=
  .next (
    if s.dbg.fuseBusy then
      { s with nv := s.nv.blow s.dbg.fuseIdx.toNat, dbg := { s.dbg with fuseBusy := false } }
    else s)

/-- A request to the debug register file, open only while DBG_LOCK is not in force (R416). -/
def onDebug (f : State → State) (s : State) : Out := .next (if s.dbgOpen then f s else s)

/-- HALT_F (R408). -/
def execHaltF (s : State) : Out := onDebug requestHaltF s

/-- RESUME_F (R408, R413, R414). -/
def execResumeF (s : State) : Out := onDebug requestResumeF s

/-- STEP_F (R408). -/
def execStepF (s : State) : Out := onDebug requestStepF s

/-- DBGRST (R414). -/
def execDbgrst (s : State) : Out := onDebug (assertReset .dbg) s

/-- WALK_ENTER (R412), at an edge of the tide source. -/
def execWalkEnter (t : Instant) (tide : TideCnt) (s : State) : Out :=
  onDebug (fun s => requestWalkEnter tide (advanceTo t s)) s

/-- WALK_EXIT (R413). -/
def execWalkExit (s : State) : Out := onDebug requestWalkExit s

/-- HALT_ENG (R410). -/
def execHaltEng (e : EngineId) (s : State) : Out := onDebug (requestHaltEng e) s

/-- RESUME_ENG (R410). -/
def execResumeEng (e : EngineId) (s : State) : Out := onDebug (requestResumeEng e) s

/-- HALT_T (R410). -/
def execHaltT (tid : Tid) (s : State) : Out := onDebug (requestHaltT tid) s

/-- RESUME_T (R410). -/
def execResumeT (tid : Tid) (s : State) : Out := onDebug (requestResumeT tid) s

/-- STEP_T (R410). -/
def execStepT (tid : Tid) (s : State) : Out := if s.dbgOpen then requestStepT tid s else .next s

end Sys2Proof.Machine
end

