-- ==== Sys2Proof/Machine/FarrierChan.lean ====
section
/-! DEFINITION. Channel commands of the Farrier (14_farrier_commands.md R325; 04_channels.md R69, R72 to R74, R88, R100,
R105; 17_health.md R388). -/

namespace Sys2Proof.Machine

/-! ### What the commands check -/

/-- The CTRL and action words carry reserved bits (R306). -/
def channelWordsBad (ctrl act : W32) : Bool := (ctrl &&& ~~~ctrlMask) != 0 || (act &&& 0xFF000000) != 0

/-- Some notify of an action word is 0b11, and the basin it names (R88). -/
def postsTo (act : W32) : Option BasinId :=
  if fld act 10 2 = 3#2 ∨ fld act 12 2 = 3#2 ∨ fld act 14 2 = 3#2 ∨ fld act 16 2 = 3#2 then some (bvFin 64 rfl (fld act 18 6)) else none

/-- BASIN of an action word against R88 and R325: the status of a refusal. -/
def basinStatus (s : State) (act : W32) : Option Byte :=
  match postsTo act with
  | none => none
  | some b => if 62 ≤ b.val then some badField else if s.bas[b].open_ then none else some notOpen

/-- A channel of a command: its number and whether it has a unit; a migrating channel makes the Farrier wait (R165), and a
retired one is refused (17_health.md R388). -/
def withUnit (lch : Byte) (body : Lch → UnitId → State → Ans) (s : State) : Ans :=
  match idx? 64 lch.toNat with
  | none => refuse badField s
  | some l =>
    if !s.lmap[l].open_ then refuse notOpen s
    else if s.lmap[l].mig.isSome then .waits
    else match unitOf s l with
      | none => refuse badState s
      | some u => body l u s

/-! ### Opening (R105, R325) -/

/-- The lowest-numbered FREE unit (R105). -/
def freeUnit (s : State) : Option UnitId := (idxs 68).find? fun u => s.units[u].ust == .free

/-- A trim of the tag area as its 10-bit field; an unreadable tag word gives 0 (17_health.md R381). -/
def tagTrim (s : State) (l : Lch) (i : Nat) : BitVec 10 :=
  if bit s.nv.tagBad l.val then 0 else BitVec.ofNat 10 (memLe s.nv.tags (64 * l.val + 2 * i) 2)

/-- Load the trims of a channel's tag into a unit (R100). -/
def loadTrims (l : Lch) (u : UnitId) (s : State) : State :=
  s.modUnit u fun c => { c with
    trimRise := tagTrim s l 0, trimFall := tagTrim s l 1, ctrimRise := tagTrim s l 2, ctrimFall := tagTrim s l 3 }

/-- An unreadable tag is reported at its read (17_health.md R381). -/
def tagReport (l : Lch) (s : State) : State := if bit s.nv.tagBad l.val then nvBad 1 (BitVec.ofNat 32 (64 * l.val)) s else s

/-- A unit is given to a logical channel. -/
def holdUnit (l : Lch) (u : UnitId) (s : State) : State :=
  let s := s.modUnit u fun c => { c with ust := .held, held := true, lch := BitVec.ofNat 6 l.val }
  feedPins l (loadTrims l u (s.modLMap l fun _ => { LMap.reset with open_ := true, pch := BitVec.ofNat 7 u.val }))

/-- CH_OPEN: PRD, CNT, action word, CTRL word, in this order; a refused CTRL word undoes the open (R104, R308, R325). -/
def openChannel (l : Lch) (ctrl act prd cnt : W32) (s : State) : Option State :=
  match freeUnit s with
  | none => none
  | some u =>
    let s := holdUnit l u s
    let s := s.modUnit u fun c => { c with prd := prd, cnt := cnt, act := act }
    some (writeCtrl u ctrl s)

/-- The unit of a channel that was just opened refused its CTRL word. -/
def openRefused (s : State) (l : Lch) : Bool := match unitOf s l with | some u => bit s.units[u].flags 9 | none => false

/-- CH_OPEN (R325). -/
def reqChOpen (q : Req) (lch : Byte) (reserved : BitVec 24) (ctrl act prd cnt : W32) (s : State) : State :=
  carryOut 0x20 q (fun s =>
    match idx? 64 lch.toNat, basinStatus s act with
    | none, _ => refuse badField s
    | some l, bs =>
      if reserved ≠ 0 ∨ channelWordsBad ctrl act then refuse badField s
      else match bs with
        | some st => refuse st s
        | none =>
          if s.lmap[l].open_ then refuse inUse s
          else match openChannel l ctrl act prd cnt s with
            | none => refuse noResource s
            | some s1 => if openRefused s1 l then refuse hwRefused s else okAns (adoptCh l (tagReport l s1))) s

/-! ### Closing (R325) -/

/-- An enabled tracker names the channel. -/
def trackerNames (s : State) (l : Lch) : Bool :=
  (idxs 2).any fun n =>
    let k := s.gt[n]
    k.en && (k.wheelCh == l || (k.sec != 0 && k.secCh == l) || (k.revSrc == 1 && k.dirCh == l))

/-- CH_CLOSE (R325, R105): IN_USE for a member of a harness, a channel of a program or a tracker's channel (R307). -/
def reqChClose (q : Req) (lch : Byte) (s : State) : State :=
  carryOut 0x21 q (fun s =>
    match idx? 64 lch.toNat with
    | none => refuse badField s
    | some l =>
      if !s.lmap[l].open_ then refuse notOpen s
      else if s.lmap[l].mig.isSome then .waits
      else if harnessMember s l || channelHeld s l || trackerNames s l then refuse inUse s
      else okAns (closeChannel l s)) s

/-! ### Configuration and control (R325) -/

/-- A CTRL write that is refused sets CFG_ERR and gives HW_REFUSED; else it applies and the table follows. -/
def ctrlAns (l : Lch) (u : UnitId) (v : W32) (s : State) : Ans :=
  if s.units[u].ctrlRefused (v &&& ctrlMask) then .reply hwRefused [] (writeCtrl u v s) else okAns (adoptCh l (writeCtrl u v s))

/-- CH_CFG (R325): the action word, then the CTRL word; neither applies where the CTRL word is refused (R308). -/
def reqChCfg (q : Req) (lch : Byte) (reserved : BitVec 24) (ctrl act : W32) (s : State) : State :=
  carryOut 0x22 q (fun s =>
    if reserved ≠ 0 ∨ channelWordsBad ctrl act then refuse badField s
    else match basinStatus s act with
      | some st => refuse st s
      | none => withUnit lch (fun l u s =>
          if s.units[u].ctrlRefused ctrl then .reply hwRefused [] (writeCtrl u ctrl s)
          else ctrlAns l u ctrl (s.modUnit u fun c => { c with act := act })) s) s

/-- The write number of a CH_WRITE register. -/
def chWriteOp (reg : Byte) : Byte := if reg.toNat < 5 then reg else reg + 5

/-- CH_WRITE (R325): PRD and CNT are refused while EN is 1. A write to a migrating channel is held, and its reply with it;
the Farrier waits with a second one (07_microcode.md R165). -/
def reqChWrite (q : Req) (lch reg flags reserved : Byte) (value : EvTime) (s : State) : State :=
  carryOut 0x23 q (fun s =>
    match idx? 64 lch.toNat with
    | none => refuse badField s
    | some l =>
      if 6 < reg.toNat ∨ 1 < flags.toNat ∨ reserved ≠ 0 then refuse badField s
      else if !s.lmap[l].open_ then refuse notOpen s
      else if s.lmap[l].mig.isSome && s.far.migReply.isSome then .waits
      else match unitOf s l with
        | none => refuse badState s
        | some u =>
          let v := if bit flags 0 then value + s.nowEv else value
          let s1 := chanOp l (chWriteOp reg) v s
          if 5 ≤ reg.toNat && s.units[u].en then .reply hwRefused [] s1
          else if s.lmap[l].mig.isSome then
            .later { s1 with far := { s1.far with migReply := some (BitVec.ofNat 6 l.val, BitVec.ofNat 3 q.mb.val, 0x23, q.tag, le6 v) } }
          else okWith (le6 v) s1) s

/-- CH_CTL (R325). -/
def reqChCtl (q : Req) (lch op : Byte) (s : State) : State :=
  carryOut 0x24 q (fun s =>
    if op.toNat < 1 ∨ 10 < op.toNat then refuse badField s
    else withUnit lch (fun l u s =>
      let c := s.units[u].ctrl
      if op.toNat ≤ 3 then okAns (unitOp u 5 (op.zeroExtend 48) s)
      else if op.toNat ≤ 6 then okAns (adoptCh l (force u (BitVec.ofNat 2 (op.toNat - 3)) s))
      else ctrlAns l u (if op = 7 then setBit c 6 true else if op = 8 then setBit c 6 false else setBit c 0 (op == 9)) s) s) s

/-! ### Reading (R325, R93) -/

/-- The reply of CH_READ. -/
def channelReply (s : State) (u : UnitId) : List Byte :=
  let c := s.units[u]
  le6 c.cap.capR ++ le6 c.cap.capF ++ le4 c.cap.pw ++ le4 c.cap.prdm ++ le4 (c.status s.now) ++ le4 (c.flags.zeroExtend 32) ++
  [c.cap.rej, c.cap.ovrcnt, 0, 0]

/-- What consuming does: the register reads of the captures, W1C of the flags returned, REJ and OVRCNT cleared. -/
def ChanUnit.consume (c : ChanUnit) : ChanUnit :=
  let c := { c with cap := { c.cap with capRHiL := fld c.cap.capR 32 16, capFHiL := fld c.cap.capF 32 16 } }
  let c := ((c.readCapHi false).readCapHi true).readPw
  { c with flags := 0, cap := { c.cap with rej := 0, ovrcnt := 0 } }

/-- CH_READ (R325): zeros for a retired channel (17_health.md R388). -/
def reqChRead (q : Req) (lch flags : Byte) (s : State) : State :=
  carryOut 0x25 q (fun s =>
    match idx? 64 lch.toNat with
    | none => refuse badField s
    | some l =>
      if 1 < flags.toNat then refuse badField s
      else if !s.lmap[l].open_ then refuse notOpen s
      else if s.lmap[l].mig.isSome then .waits
      else match unitOf s l with
        | none => okWith (zeros 32) s
        | some u => okWith (channelReply s u) (if bit flags 0 then s.modUnit u fun c => c.consume else s)) s

/-- The control word of a TIO pin from the operands of TIO_SET (R102). -/
def tioWord (outSel flags : Byte) : BitVec 12 := fld flags 4 1 ++ fld flags 3 1 ++ fld flags 1 2 ++ fld flags 0 1 ++ fld outSel 0 7

/-- TIO_SET (R325; 04_channels.md R69, R102). -/
def reqTioSet (q : Req) (pin outSel flags : Byte) (s : State) : State :=
  carryOut 0x26 q (fun s =>
    match idx? 40 pin.toNat with
    | none => refuse badField s
    | some k =>
      if 127 < outSel.toNat ∨ 31 < flags.toNat then refuse badField s
      else
        okAns (writeTio k ((tioWord outSel flags).zeroExtend 32) s)) s

/-! ### The commands -/

/-- CH_OPEN. -/
def execChOpen (q : Req) (lch : Byte) (reserved : BitVec 24) (ctrl act prd cnt : W32) (s : State) : Out :=
  .next (reqChOpen q lch reserved ctrl act prd cnt s)
/-- CH_CLOSE. -/
def execChClose (q : Req) (lch : Byte) (s : State) : Out := .next (reqChClose q lch s)
/-- CH_CFG. -/
def execChCfg (q : Req) (lch : Byte) (reserved : BitVec 24) (ctrl act : W32) (s : State) : Out := .next (reqChCfg q lch reserved ctrl act s)
/-- CH_WRITE. -/
def execChWrite (q : Req) (lch reg flags reserved : Byte) (value : EvTime) (s : State) : Out :=
  .next (reqChWrite q lch reg flags reserved value s)
/-- CH_CTL. -/
def execChCtl (q : Req) (lch op : Byte) (s : State) : Out := .next (reqChCtl q lch op s)
/-- CH_READ. -/
def execChRead (q : Req) (lch flags : Byte) (s : State) : Out := .next (reqChRead q lch flags s)
/-- TIO_SET. -/
def execTioSet (q : Req) (pin outSel flags : Byte) (s : State) : Out := .next (reqTioSet q pin outSel flags s)

end Sys2Proof.Machine
end

