-- ==== Sys2Proof/Machine/FarrierBas.lean ====
section
/-! DEFINITION. Basin commands of the Farrier (14_farrier_commands.md R332; 05_ostler.md R121, R123, R126). -/

namespace Sys2Proof.Machine

/-- Sum of the floors of open basins. -/
def floorsHeld (s : State) : Nat := ((idxs 64).map fun b => if s.bas[b].open_ then s.bas[b].floor.toNat else 0).sum

/-- B_OPEN (R332, R121, R127). -/
def reqBOpen (q : Req) (b floor ceil policy : Byte) (thresh : W16) (age reserved : Byte) (s : State) : State :=
  carryOut 0x90 q (fun s =>
    match idx? 64 b.toNat with
    | none => refuse badField s
    | some i =>
      if 61 < b.toNat ∨ floor.toNat < 1 ∨ 64 < floor.toNat ∨ ceil.toNat < floor.toNat ∨ 64 < ceil.toNat ∨ 2 < policy.toNat ∨
         4096 < thresh.toNat ∨ reserved ≠ 0 then refuse badField s
      else if s.bas[i].open_ then refuse inUse s
      else if 256 < floorsHeld s + floor.toNat ∨ s.poolFree < floor.toNat + 4 then refuse noResource s
      else okAns (openBasin i (floor.truncate 7) (ceil.truncate 7) (policy.truncate 2) (thresh.truncate 13) age s)) s

/-- An open channel names the basin with a notify of 0b11. -/
def basinNamed (s : State) (b : BasinId) : Bool :=
  (idxs 64).any fun l =>
    match unitOf s l with
    | some u => s.lmap[l].open_ && postsTo s.units[u].act == some b
    | none => false

/-- B_CLOSE (R332). -/
def reqBClose (q : Req) (b : Byte) (s : State) : State :=
  carryOut 0x91 q (fun s =>
    match idx? 64 b.toNat with
    | none => refuse badField s
    | some i =>
      if 61 < b.toNat then refuse badField s
      else if !s.bas[i].open_ then refuse notOpen s
      else if basinHeld s i || basinNamed s i then refuse inUse s
      else okAns (closeBasin i s)) s

/-- B_SET (R332). -/
def reqBSet (q : Req) (b reserved : Byte) (thresh : W16) (age ceil : Byte) (s : State) : State :=
  carryOut 0x92 q (fun s =>
    match idx? 64 b.toNat with
    | none => refuse badField s
    | some i =>
      if reserved ≠ 0 ∨ 4096 < thresh.toNat ∨ 64 < ceil.toNat then refuse badField s
      else if !s.bas[i].open_ then refuse notOpen s
      else if ceil.toNat < s.bas[i].floor.toNat then refuse badField s
      else
        let s1 := s.modBas i fun k => { k with thresh := thresh.truncate 13, age := age, ceil := ceil.truncate 7 }
        let s2 := { s1 with far := { s1.far with tabBas := vmod s1.far.tabBas i fun k =>
                      { k with thresh := thresh.truncate 13, age := age, ceil := ceil.truncate 7 } } }
        okAns (resettle i s2)) s

/-! ### The commands -/

/-- B_OPEN. -/
def execBOpen (q : Req) (b floor ceil policy : Byte) (thresh : W16) (age reserved : Byte) (s : State) : Out :=
  .next (reqBOpen q b floor ceil policy thresh age reserved s)
/-- B_CLOSE. -/
def execBClose (q : Req) (b : Byte) (s : State) : Out := .next (reqBClose q b s)
/-- B_SET. -/
def execBSet (q : Req) (b reserved : Byte) (thresh : W16) (age ceil : Byte) (s : State) : Out := .next (reqBSet q b reserved thresh age ceil s)

end Sys2Proof.Machine
end

