-- ==== Sys2Proof/Machine/FarrierGt.lean ====
section
/-! DEFINITION. Gait commands of the Farrier (14_farrier_commands.md R328; 10_gait.md R231, R232, R242, R255). -/

namespace Sys2Proof.Machine

/-- A tracker by its number. -/
def withTracker (n : Byte) (body : Fin 2 → State → Ans) (s : State) : Ans :=
  match idx? 2 n.toNat with
  | none => refuse badField s
  | some i => body i s

/-! ### Opening (R231, R232) -/

/-- The bits of the words at 0x00 to 0x28 that are fields (R255). -/
def gtLegal : Vector W32 11 :=
  #v[0x007F03FF, 0x013F3F3F, 0x03FF03FF, 0x000303FF, 0xFFFFFFFF, 0xFFFFFFFF, 0x001F03FF, 0xFFFFFFFF, 0xFFFFFFFF, 0xFFFFFFFF, 0x0000FFFF]

/-- A value lies in a range. -/
def within (lo v hi : Nat) : Bool := decide (lo ≤ v) && decide (v ≤ hi)

/-- The words carry no reserved bit, and the fields with a range lie in it (R255). -/
def gtFields (w : Vector W32 11) : Bool :=
  let k : Tracker := { Tracker.reset with cfg := w }
  ((idxs 11).all fun i => (w[i] &&& ~~~gtLegal[i]) == 0) &&
  decide ((fld w[0] 1 2).toNat < 2) && decide (k.sec < 3) && decide (k.revSrc < 3) &&
  within 200 k.extraPos 800 && within 100 k.noise 750 && within 100 k.tol 500 && within 100 k.dutySplit 900 && within 2 k.uw 16

/-- The CTRL word of the wheel channel: paired capture, or single capture of rising edges (R232). -/
def wheelCtrl (ctrl : W32) (paired : Bool) : W32 :=
  if paired then setFld ctrl 8 2 2#2 else setFld (setFld ctrl 8 2 1#2) 10 2 1#2

/-- Set the wheel channel's unit: NTF_CAP wakes, and the capture mode; an enabled channel is disabled for it where its
protected fields change (04_channels.md R72). The Bool tells whether it was done. -/
def setWheel (l : Lch) (paired : Bool) (s : State) : State × Bool :=
  match unitOf s l with
  | none => (s, false)
  | some u =>
    let s := s.modUnit u fun c => { c with act := setFld c.act 16 2 1#2 }
    let v := wheelCtrl s.units[u].ctrl paired
    let s := if s.units[u].ctrlRefused v then writeCtrl u (setBit v 0 false) s else s
    if s.units[u].ctrlRefused v then (s, false) else (adoptCh l (writeCtrl u v s), true)

/-- Write a tracker's words 1 to 10, then word 0 (R328). -/
def writeWords (n : Fin 2) (w : Vector W32 11) (s : State) : State :=
  let s := forEach ((idxs 11).drop 1) (fun i s => writeTracker n i w[i] s) s
  writeTracker n 0 w[0] s

/-- Channels that the words name. -/
def gtNames (w : Vector W32 11) : List Lch :=
  let k : Tracker := { Tracker.reset with cfg := w }
  k.wheelCh :: ((if k.sec = 0 then [] else [k.secCh]) ++ (if k.revSrc = 1 then [k.dirCh] else []))

/-- GT_OPEN (R328): a refused write or enable gives HW_REFUSED and leaves only CFG_ERR (R308). -/
def reqGtOpen (q : Req) (n : Byte) (reserved : BitVec 24) (words : Vector W32 11) (s : State) : State :=
  carryOut 0x50 q (fun s =>
    if reserved ≠ 0 ∨ !gtFields words then refuse badField s
    else withTracker n (fun i s =>
      if s.gt[i].en then refuse inUse s
      else if (gtNames words).any fun l => !s.lmap[l].open_ then refuse notOpen s
      else
        let k : Tracker := { Tracker.reset with cfg := words }
        if s.lmap[k.wheelCh].mig.isSome then .waits
        else
          let (s1, ok) := setWheel k.wheelCh k.paired s
          let s2 := writeWords i words (s1.modGt i fun k => { k with flags := setBit k.flags 4 false })
          if !ok || bit s2.gt[i].flags 4 then .reply hwRefused [] (s.modGt i fun k => k.raise 0x10)
          else okAns (s2.modGt i fun k => { k with flags := k.flags ||| (s.gt[i].flags &&& 0x10) })) s) s

/-! ### Tuning, closing, state (R328) -/

/-- The NOISE bound of R231 for an extra-tooth wheel. -/
def noiseOk (k : Tracker) (noise tol : Nat) : Bool :=
  k.uneven || decide (noise * 1000 ≤ (1000 - tol) * min k.extraPos (1000 - k.extraPos))

/-- The fields that GT_TUNE changes. -/
def Tracker.tune (k : Tracker) (flags missMax : Byte) (noise tol : W16) : Tracker :=
  let c0 := setFld k.cfg[0] 5 3 (fld flags 0 3)
  let c2 := setFld k.cfg[2] 16 10 (fld noise 0 10)
  let c3 := setFld (setFld k.cfg[3] 0 10 (fld tol 0 10)) 16 2 (fld missMax 0 2)
  { k with cfg := ((k.cfg.set 0 c0).set 2 c2).set 3 c3 }

/-- GT_TUNE (R328). -/
def reqGtTune (q : Req) (n flags missMax reserved : Byte) (noise tol : W16) (s : State) : State :=
  carryOut 0x51 q (fun s =>
    if 7 < flags.toNat ∨ 3 < missMax.toNat ∨ reserved ≠ 0 ∨ !within 100 noise.toNat 750 ∨ !within 100 tol.toNat 500 then refuse badField s
    else withTracker n (fun i s =>
      let k := s.gt[i]
      if !k.en then refuse notOpen s
      else if !noiseOk k noise.toNat tol.toNat then refuse badField s
      else okAns (s.modGt i fun k => k.tune flags missMax noise tol)) s) s

/-- Channels and harnesses linked to a tracker. -/
def Tracker.linked (k : Tracker) : List Lch × List HarnessId := (maskIdx 64 k.linkCh, maskIdx 16 k.linkH)

/-- GT_CLOSE (R328, R242): the Farrier's own ending of linked outputs enters its table. -/
def reqGtClose (q : Req) (n : Byte) (s : State) : State :=
  carryOut 0x52 q (withTracker n fun i s =>
    if !s.gt[i].en then refuse notOpen s
    else
      let (ls, hs) := s.gt[i].linked
      okAns (forEach hs adoptMembers (forEach ls adoptCh (disableTracker i s)))) s

/-- GT_STATUS (R328): the flags returned and the counters clear. -/
def reqGtStatus (q : Req) (n : Byte) (s : State) : State :=
  carryOut 0x53 q (withTracker n fun i s =>
    let k := s.gt[i]
    okWith ([k.gs.code.zeroExtend 8, k.flags.zeroExtend 8, k.rsn.zeroExtend 8, 0] ++ le2 k.idxReads ++ le6 k.last ++
            le4 (satNat 32 k.per.toNat) ++ le2 k.noiseCnt ++ le2 k.missedCnt ++ le2 k.lossCnt)
      (s.modGt i fun k => { k with flags := 0, noiseCnt := 0, missedCnt := 0, lossCnt := 0, lastHiL := fld k.last 32 16 })) s

/-! ### The commands -/

/-- GT_OPEN. -/
def execGtOpen (q : Req) (n : Byte) (reserved : BitVec 24) (words : Vector W32 11) (s : State) : Out :=
  .next (reqGtOpen q n reserved words s)
/-- GT_TUNE. -/
def execGtTune (q : Req) (n flags missMax reserved : Byte) (noise tol : W16) (s : State) : Out :=
  .next (reqGtTune q n flags missMax reserved noise tol s)
/-- GT_CLOSE. -/
def execGtClose (q : Req) (n : Byte) (s : State) : Out := .next (reqGtClose q n s)
/-- GT_STATUS. -/
def execGtStatus (q : Req) (n : Byte) (s : State) : Out := .next (reqGtStatus q n s)

end Sys2Proof.Machine
end

