-- ==== Sys2Proof/Machine/FarrierSys.lean ====
section
/-! DEFINITION. System and time commands of the Farrier (14_farrier_commands.md R322 to R324). -/

namespace Sys2Proof.Machine

/-! ### Requests without operands (R322) -/

/-- NOP (R322). -/
def reqNop (q : Req) (s : State) : State := carryOut 0x00 q okAns s

/-- IDENTITY (R322, R321; 18_debug.md R402). -/
def reqIdentity (q : Req) (s : State) : State :=
  carryOut 0x01 q (fun s => okWith
    (le4 0x26408C3F ++ le8 s.nv.serial ++ [3, 2] ++ le2 s.far.patchLevel ++ [0xC1, flagByte [s.far.patchRej], 0, 0]) s) s

/-- Units RETIRED, engines retired, programs open. -/
def State.retiredUnits (s : State) : Nat := ((idxs 68).filter fun u => s.units[u].ust == .retired).length
def State.retiredEngines (s : State) : Nat := ((idxs 8).filter fun e => s.eng[e].retired).length
def State.openPrograms (s : State) : Nat := ((idxs 16).filter fun p => s.prog[p].open_).length

/-- STATE (R322). -/
def reqState (q : Req) (s : State) : State :=
  carryOut 0x02 q (fun s => okWith
    ([flagByte [s.hlt.cause != 0, s.pwr.limp, s.writes, s.far.injOpen], s.pwr.cause, 0, 0] ++ le4 s.hlt.cause ++
     [count8 s.freeUnits, count8 s.retiredUnits, count8 s.retiredEngines, count8 s.openPrograms]) s) s

/-! ### SLEEP (R323, 04_channels.md R97, 08 R212, 10 R254, 15 R350, R351) -/

/-- SLEEP_RUN of a unit is honoured: its channel drives no gate-command line (R97). -/
def sleepRuns (s : State) (u : UnitId) : Bool := s.units[u].sleepRun && !gateLine s s.units[u].lchId

/-- A channel that hinders sleep: an armed compare or a running counter, not marked sleep-run (R97). -/
def sleepBusy (s : State) (l : Lch) : Bool :=
  match unitOf s l with
  | none => false
  | some u =>
    let c := s.units[u]
    c.held && !sleepRuns s u && c.en && (c.mode != 0#2 || c.armA || c.armB)

/-- A harness that hinders sleep (R212): power-class and neither SAFE nor IDLE, or IDLE with its timed action pending. -/
def sleepHinders (k : Harness) : Bool := k.power && k.hstate != .safe && (k.hstate != .idle || k.actPend)

/-- The first obstacle to sleep: its class and number (R322). Channels are none where the command idles them. -/
def sleepObstacle (idle : Bool) (s : State) : Option (Byte × Byte) :=
  match if idle then none else (idxs 64).find? (sleepBusy s) with
  | some l => some (0, count8 l.val)
  | none =>
    match (idxs 16).find? fun h => sleepHinders s.har[h] with
    | some h => some (1, count8 h.val)
    | none => ((idxs 2).find? fun n => !Tracker.sleepOk s s.gt[n]).map fun n => (2, count8 n.val)

/-- EN = 0 for every enabled channel not marked sleep-run (R323). -/
def idleChannels (s : State) : State :=
  forEach (idxs 64) (fun l s =>
    match unitOf s l with
    | none => s
    | some u =>
      if s.units[u].held && s.units[u].en && !sleepRuns s u then adoptCh l (writeCtrl u (setBit s.units[u].ctrl 0 false) s) else s) s

/-- The ARM bits of a wake mask (R322; 15_interrupts.md R354): bit 0 WAKE, bits 1 to 8 TIO32 to TIO39, bit 9 VBAT return. -/
def armBits (mask : W16) (park : Bool) : BitVec 11 := fld mask 1 8 ++ fld mask 9 1 ++ b2v 1 park ++ fld mask 0 1

/-- A tracker that a sleep command finds in SEEK or PROV is set OFF (10_gait.md R254). -/
def sleepTracker (n : Fin 2) (s : State) : State := if s.gt[n].gs = .off then s else disableTracker n s

/-- The park interval of a sleep command, 0 for none: doublings in force apply to it, with the RATE_CHANGE entry of a changed
interval (12_sealed_record.md R282). -/
def startPark (park : W32) (s : State) : State :=
  let s := setStep s.rcd.rateStep { s with ps := { s.ps with parkInt := park, parkCfg := park } }
  if s.ps.parkInt = park then s else log (rateEntry s.ps.parkInt true s) s

/-- What the acceptance of a sleep command does (R323, R254, R350, R351). -/
def acceptSleep (st : Byte) (idle parked : Bool) (mask : W16) (park : W32) (s : State) : State :=
  let s := if idle then idleChannels s else s
  let s := sleepTracker 1 (sleepTracker 0 (withdraw (fun _ => true) s))
  let arm := armBits mask parked
  startPark (if parked then park else 0) { s with
    rsv := { s.rsv with wk := 0, arm := arm }
    ps := { s.ps with parkMask := arm, parkRun := false }
    irq := { s.irq with gateH := s.irq.gateH && !parked }
    far := { s.far with sleepPend := some (st.truncate 2) } }

/-- SLEEP (R322, R323). While a probe sequencer runs, acceptance waits (11_probes.md, "When things meet"). -/
def reqSleep (q : Req) (st flags : Byte) (mask : W16) (park : W32) (s : State) : State :=
  carryOut 0x03 q (fun s =>
    let parked := bit flags 0
    let parkOk := if parked then decide (60 ≤ park.toNat) && decide (park.toNat ≤ 86400) else park == 0
    if !(st == 1 || st == 2) || decide (3 < flags.toNat) || decide (1023 < mask.toNat) || !parkOk || (mask == 0 && !parked) then
      refuse badField s
    else if s.probing then .waits
    else match sleepObstacle (bit flags 1) s with
      | some (c, n) => .reply badState [c, n] s
      | none => okAns (acceptSleep st (bit flags 1) parked mask park s)) s

/-! ### RESET, CAUSE_CLEAR, PROG_MSG -/

/-- RESET (R323): the reply first; the reset at its release or 100 ms later. -/
def reqReset (q : Req) (word : W16) (s : State) : State :=
  carryOut 0x04 q (fun s =>
    if word ≠ 0xA5C3 then refuse locked s
    else okAns { s with far := { s.far with rstPend := true, rstMb := BitVec.ofNat 3 q.mb.val, rstAt := s.tb.dt } }) s

/-- CAUSE_CLEAR (R322). -/
def reqCauseClear (q : Req) (bits : Byte) (s : State) : State :=
  carryOut 0x05 q (fun s => okAns { s with pwr := { s.pwr with cause := s.pwr.cause &&& ~~~bits } }) s

/-- A program message as its 12 bytes. -/
def msgBytes (m : BitVec 48 × BitVec 6 × BitVec 32) : List Byte := le6 m.1 ++ [m.2.1.zeroExtend 8, 0] ++ le4 m.2.2

/-- PROG_MSG (R322; 07_microcode.md R163): the oldest messages leave the queue. -/
def reqProgMsg (q : Req) (mx : Byte) (s : State) : State :=
  carryOut 0x06 q (fun s =>
    if mx.toNat < 1 ∨ 20 < mx.toNat then refuse badField s
    else
      let l := s.far.msgs.take mx.toNat
      okWith ([count8 l.length, 0, 0, 0] ++ l.flatMap msgBytes) { s with far := { s.far with msgs := s.far.msgs.drop mx.toNat } }) s

/-! ### Time (R324) -/

/-- TIME_GET: DT and the fine bits by one read of DT_LO, whose high word and fine bits latch (02_time.md R50). -/
def reqTimeGet (q : Req) (s : State) : State :=
  carryOut 0x10 q (fun s => okWith
    (le8 s.tb.dt ++ [(fld s.tb.frac 30 2).zeroExtend 8, flagByte [s.rsv.onTrc, s.tb.refBrc, s.tb.disc, s.tb.coarse]] ++
     le2 s.tb.epochRun ++ le4 s.rsv.backup[28] ++ le4 s.rsv.backup[29] ++ le4 s.tb.allowX ++ le4 s.tb.allowT) (tbReadFx 0x08 s)) s

/-- SPREAD (R324; 02_time.md R23). -/
def reqSpread (q : Req) (setting : Byte) (s : State) : State :=
  carryOut 0x11 q (fun s => if 2 < setting.toNat then refuse badField s else okAns (writeSsc (setting.truncate 2) s)) s

/-- ANCHOR (R324; 12_sealed_record.md R284): DT stamped as the request is taken, 1 ms added to UNC. -/
def reqAnchor (q : Req) (secs : W32) (ms : W16) (source reserved : Byte) (unc : W16) (s : State) : State :=
  carryOut 0x12 q (fun s =>
    if 999 < ms.toNat ∨ 3 < source.toNat ∨ reserved ≠ 0 then refuse badField s
    else if !s.writes then refuse notProvisioned s
    else entryAns 0x12 q (mkEntry 4 source s.tb.dt secs (satInc unc) ms) (fun seq => le4 seq ++ le8 s.tb.dt) s) s

/-- The range of a drift allowance in ppm (02_time.md R37): the crystal's, and TRC's. -/
def allowanceOk (source : Byte) (ppm : W32) : Bool :=
  if source = 0 then decide (1 ≤ ppm.toNat) && decide (ppm.toNat ≤ 500) else decide (100 ≤ ppm.toNat) && decide (ppm.toNat ≤ 10000)

/-- DRIFT (R324; 02_time.md R37). With writing disabled the allowance changes and no entry is written. -/
def reqDrift (q : Req) (source : Byte) (reserved : BitVec 24) (ppm : W32) (s : State) : State :=
  carryOut 0x13 q (fun s =>
    if 1 < source.toNat ∨ reserved ≠ 0 ∨ !allowanceOk source ppm then refuse badField s
    else
      let s1 := { s with tb := if source = 0 then { s.tb with allowX := ppm } else { s.tb with allowT := ppm } }
      if !s1.writes then okWith (le4 0xFFFFFFFF) s1
      else entryAns 0x13 q (mkEntry 0x0B 1 s.tb.dt ppm 0 (source.zeroExtend 16)) le4 s1) s

/-- EPOCH_CLOSE (R324; 12_sealed_record.md R273): its VALUE is its own SEQ; a pending LOSS goes before it. At the last SEQ no
entry can be written in the old epoch (R277). -/
def closeEpoch (s : State) : State :=
  if s.rcd.epochPend.isSome then s
  else if s.seqSpent || s.rcd.hdrBad then { s with rcd := { s.rcd with hdrBad := false } }
  else
    let s := stateLoss s
    if s.seqSpent then s else (note 2 s.rcd.seq 0 s).1

/-- NEW_EPOCH (R324; 02_time.md R43, R45): the rest, and the reply, come at the TIDE edge. -/
def reqNewEpoch (q : Req) (word : W16) (s : State) : State :=
  carryOut 0x14 q (fun s =>
    if word ≠ 0xE90C then refuse locked s
    else if s.epochsSpent then refuse epochLimit s
    else if s.nvFails 2 then refuse nvError s
    else
      let s1 := startEpoch 3 [] (if s.writes then closeEpoch s else s)
      .later { s1 with rcd := { s1.rcd with epochMb := some (BitVec.ofNat 3 q.mb.val, q.tag, 0x14) } }) s

/-! ### The commands -/

/-- NOP. -/
def execNop (q : Req) (s : State) : Out := .next (reqNop q s)
/-- IDENTITY. -/
def execIdentity (q : Req) (s : State) : Out := .next (reqIdentity q s)
/-- STATE. -/
def execState (q : Req) (s : State) : Out := .next (reqState q s)
/-- SLEEP. -/
def execSleep (q : Req) (st flags : Byte) (mask : W16) (park : W32) (s : State) : Out := .next (reqSleep q st flags mask park s)
/-- RESET. -/
def execReset (q : Req) (word : W16) (s : State) : Out := .next (reqReset q word s)

/-- RESET_REPLY_TIMEOUT (R323): 100 ms after the reply was written, 160,000,000 ticks. -/
def execResetReplyTimeout (t : Instant) (s : State) : Out :=
  event t (fun s => s.far.rstPend && !s.far.halted && decide (160000000 ≤ (s.tb.dt - s.far.rstAt).toNat))
    (fun s => assertReset .sw { s with far := { s.far with rstPend := false } }) s

/-- CAUSE_CLEAR. -/
def execCauseClear (q : Req) (bits : Byte) (s : State) : Out := .next (reqCauseClear q bits s)
/-- PROG_MSG. -/
def execProgMsg (q : Req) (mx : Byte) (s : State) : Out := .next (reqProgMsg q mx s)
/-- TIME_GET. -/
def execTimeGet (q : Req) (s : State) : Out := .next (reqTimeGet q s)
/-- SPREAD. -/
def execSpread (q : Req) (setting : Byte) (s : State) : Out := .next (reqSpread q setting s)
/-- ANCHOR. -/
def execAnchor (q : Req) (secs : W32) (ms : W16) (source reserved : Byte) (unc : W16) (s : State) : Out :=
  .next (reqAnchor q secs ms source reserved unc s)
/-- DRIFT. -/
def execDrift (q : Req) (source : Byte) (reserved : BitVec 24) (ppm : W32) (s : State) : Out := .next (reqDrift q source reserved ppm s)
/-- NEW_EPOCH. -/
def execNewEpoch (q : Req) (word : W16) (s : State) : Out := .next (reqNewEpoch q word s)

end Sys2Proof.Machine
end

