-- ==== Sys2Proof/Machine/FarrierHlt.lean ====
section
/-! DEFINITION. Health, injection, calibration, tag and boot-wait commands of the Farrier (14_farrier_commands.md R333, R334;
17_health.md R377, R392, R394 to R400). -/

namespace Sys2Proof.Machine

/-! ### Health (R333, R400) -/

/-- HEALTH_SUM (R333). -/
def reqHealthSum (q : Req) (s : State) : State :=
  carryOut 0xA0 q (fun s =>
    let ovr : BitVec 72 := (idxs 70).foldl (fun m x => setBit m x.val s.xing[x].ovrFlag) 0
    okWith (le4 s.hlt.cause ++ leBytes 9 ovr.toNat ++
            [flagByte [s.link.fault], s.link.retry, 0, count8 s.freeUnits, count8 s.retiredUnits, count8 s.retiredEngines, 0]) s) s

/-- Indices of a detector class (R377): how many. -/
def detIndices (cls : Nat) : Nat :=
  match cls with
  | 0x01 => 8
  | 0x02 => 68
  | 0x03 => 8
  | 0x04 => 4
  | 0x05 => 70
  | 0x06 | 0x09 | 0x10 => 1
  | 0x07 => 8
  | 0x08 => 64
  | 0x0A => 4
  | 0x0B => 2
  | 0x0C => 5
  | 0x0D | 0x0E => 16
  | 0x0F => 70
  | 0x11 => 256
  | _ => 0

/-- EVENTS of the classes whose own counter serves (R400). -/
def detCounter (s : State) (cls idx : Nat) : Option Nat :=
  match cls with
  | 0x05 => (idx? 70 idx).map fun x => s.xing[x].ovrCnt.toNat
  | 0x06 => some s.host.crcCnt.toNat
  | 0x08 => (idx? 64 idx).map fun t => s.thr[t].dlnCnt.toNat
  | _ => none

/-- The item of a detector is retired or failed. -/
def detFailed (s : State) (cls idx : Nat) : Bool :=
  match cls with
  | 0x02 => match idx? 68 idx with | some u => s.units[u].ust == .retired | none => false
  | 0x03 => match idx? 8 idx with | some e => s.eng[e].retired | none => false
  | 0x0F =>
    match idx? 68 idx, idx? 2 (idx - 68) with
    | some u, _ => s.units[u].ust == .retired && bit s.units[u].hl.chk 4
    | none, some c => s.conv[c].failed
    | none, none => false
  | _ => false

/-- HEALTH_DET (R333, R400). -/
def reqHealthDet (q : Req) (cls idx : Byte) (s : State) : State :=
  carryOut 0xA1 q (fun s =>
    if detIndices cls.toNat ≤ idx.toNat then refuse badField s
    else
      let d := (s.hlt.det.find? fun d => d.cls == cls && d.idx == idx).getD { Det.reset with cls := cls, idx := idx }
      let events := (detCounter s cls.toNat idx.toNat).getD d.events.toNat
      let st : W32 := d.st.zeroExtend 32 ||| b2v 32 (detFailed s cls.toNat idx.toNat)
      okWith (leBytes 4 events ++ le4 st ++ le8 d.lastDt ++ le4 d.last ++ zeros 4) s) s

/-! ### Injection (R333, R392) -/

/-- INJ_OPEN1 (R333). -/
def reqInjOpen1 (q : Req) (word : W32) (s : State) : State :=
  carryOut 0xA2 q (fun s =>
    if word ≠ 0x1A550C3D then refuse locked s
    else
      let n := Config.freeNonce s.far.free
      okWith (le2 n) { s with far := { s.far with free := s.far.free + 1, nonce := some (n, s.tb.dt) } }) s

/-- INJ_OPEN2 (R333): within 100 ms of the INJ_OPEN1 reply and with the right value; any other voids the nonce. -/
def reqInjOpen2 (q : Req) (word : W16) (s : State) : State :=
  carryOut 0xA3 q (fun s =>
    let s1 := { s with far := { s.far with nonce := none } }
    match s.far.nonce with
    | some (n, t) =>
      if word = n ^^^ 0xC35A ∧ (s.tb.dt - t).toNat ≤ 160000000 then okAns (pulse 220 { s1 with far := { s1.far with injOpen := true } })
      else refuse locked s1
    | none => refuse locked s1) s

/-- The unit is migrating, or is the one a migration goes to. -/
def unitMigrates (s : State) (u : Nat) : Bool :=
  (idxs 64).any fun l => s.lmap[l].mig.isSome && (s.lmap[l].pch.toNat == u || s.lmap[l].migTo.toNat == u)

/-- INJ_FIRE (R333, R392). -/
def reqInjFire (q : Req) (cls idx : Byte) (reserved : W16) (par : W32) (s : State) : State :=
  carryOut 0xA4 q (fun s =>
    if !s.far.injOpen then refuse locked s
    else if reserved ≠ 0 then refuse badField s
    else if cls = 2 ∧ unitMigrates s idx.toNat then refuse badState s
    else match inject cls.toNat idx.toNat par s with
      | none => refuse badField s
      | some s1 => okAns (pulse 220 s1)) s

/-- INJ_CLOSE (R333). -/
def reqInjClose (q : Req) (s : State) : State :=
  carryOut 0xA5 q (fun s => okAns { s with far := { s.far with injOpen := false, nonce := none } }) s

/-! ### Calibration (R334, R396, R397) -/

/-- A range of the calibration area. -/
def calRange (off len : Nat) : Bool := decide (1 ≤ len) && decide (len ≤ 240) && decide (off + len ≤ 0x1000)

/-- CAL_READ (R334): an unreadable word in the range is reported (R381). -/
def reqCalRead (q : Req) (off : W16) (len : Byte) (s : State) : State :=
  carryOut 0xB0 q (fun s =>
    if !calRange off.toNat len.toNat then refuse badField s
    else
      let s1 := match s.nv.calBad with
        | some o => if calUnreadable (some o) off.toNat len.toNat then nvBad 0 (o.zeroExtend 32) s else s
        | none => s
      okWith (memBytes s.nv.cal off.toNat len.toNat) s1) s

/-- The settings that a write touches stay in range, TEMP_SHUT above TEMP_WARN (R396). -/
def settingsOk (m : Mem) (off len : Nat) : Bool :=
  let hit (a : Nat) : Bool := decide (off ≤ a) && decide (a < off + len)
  let v (a : Nat) : Nat := (memGet m a).toNat
  (!hit 0x58 || decide (1 ≤ v 0x58)) &&
  (!hit 0x59 || (decide (100 ≤ v 0x59) && decide (v 0x59 ≤ 160))) &&
  (!hit 0x5A || (decide (110 ≤ v 0x5A) && decide (v 0x5A ≤ 165))) &&
  (!(hit 0x59 || hit 0x5A) || decide (v 0x59 < v 0x5A))

/-- Put bytes into the calibration area; an unreadable word that is written reads again. -/
def putCal (off : Nat) (data : List Byte) (s : State) : State :=
  { s with nv := { s.nv with
      cal := memPut s.nv.cal off data
      calBad := if calUnreadable s.nv.calBad off data.length then none else s.nv.calBad } }

/-- CAL_WRITE (R334, R396): BUSY while a CAL_PROC is pending (R311). -/
def reqCalWrite (q : Req) (off : W16) (len res1 : Byte) (word res2 : W16) (data : List Byte) (s : State) : State :=
  carryOut 0xB1 q (fun s =>
    if data.length ≠ len.toNat then refuse badLen s
    else if !calRange off.toNat len.toNat ∨ res1 ≠ 0 ∨ res2 ≠ 0 then refuse badField s
    else if word ≠ 0xCA1B then refuse locked s
    else if s.far.calProc.isSome then refuse busyCode s
    else
      let s1 := putCal off.toNat data s
      if !settingsOk s1.nv.cal off.toNat len.toNat then refuse badField s
      else if s.nvFails 0 then refuse nvError s
      else
        let (s2, st) := withNote 3 0 0 s1
        .reply st [] s2) s

/-- R_REF0 and R_REF1 are written and differ by a factor of 4 (R397, 11_probes.md R270). -/
def refsDiffer (s : State) : Bool :=
  let a := memLe s.nv.cal 0x1C 4
  let b := memLe s.nv.cal 0x20 4
  a != 0 && b != 0 && (decide (4 * a ≤ b) || decide (4 * b ≤ a))

/-- CAL_PROC can run (R334, R397). -/
def calProcReady (s : State) (proc : Byte) : Bool :=
  if proc = 1 then s.ps.sched.isNone && !s.probing && refsDiffer s
  else !s.tb.refBrc && s.tb.pllLock && !s.rsv.onTrc

/-- CAL_PROC (R334, R397): deferred. -/
def reqCalProc (q : Req) (proc : Byte) (s : State) : State :=
  carryOut 0xB2 q (fun s =>
    if proc ≠ 1 ∧ proc ≠ 2 then refuse badField s
    else if s.far.calProc.isSome then refuse busyCode s
    else if !calProcReady s proc then refuse badState s
    else .later { s with far := { s.far with calProc := some (proc, BitVec.ofNat 3 q.mb.val, q.tag) } }) s

/-- A signed result lies in ±`n`. -/
def inBand (v : W32) (n : Int) : Bool := decide (-n ≤ v.toInt) && decide (v.toInt ≤ n)

/-- The results of a procedure lie in the ranges of R394. -/
def resultsOk (proc : Byte) (r0 r1 r2 : W32) : Bool :=
  if proc = 1 then [r0, r1].all fun r => decide (-320 ≤ r.toInt) && decide (r.toInt ≤ 1600)
  else inBand r0 500000 && inBand r1 50000000 && inBand r2 30000000

/-- The bytes of the results, as stored and as replied. -/
def resultBytes (proc : Byte) (r0 r1 r2 : W32) : List Byte :=
  if proc = 1 then leBytes 2 r0.toNat ++ leBytes 2 r1.toNat else le4 r0 ++ le4 r1 ++ le4 r2

/-- OFS of a converter from its discharge times through PREF0 and PREF1: t = (r + r_on) × K + t_d for both references, solved for
t_d, to the nearest fine (11_probes.md R270). The resistances are the NV area's (R396). -/
def offsetOf (s : State) (c : Nat) (t0 t1 : W32) : W32 :=
  let ron : Int := memLe s.nv.cal (0x14 + 4 * c) 4
  let a : Int := memLe s.nv.cal 0x1C 4 + ron
  let b : Int := memLe s.nv.cal 0x20 4 + ron
  let num : Int := (a * t1.toNat - b * t0.toNat) * (if a < b then -1 else 1)
  let q := roundDiv num.natAbs (a - b).natAbs
  BitVec.ofInt 32 (if num < 0 then -(q : Int) else q)

/-- The results of a procedure from what it measures: the OFS of both converters, or the three trims. -/
def procResults (s : State) (proc : Byte) (m0 m1 m2 m3 : W32) : W32 × W32 × W32 :=
  if proc = 1 then (offsetOf s 0 m0 m1, offsetOf s 1 m2 m3, 0) else (m0, m1, m2)

/-- CAL_PROC_DONE: a procedure completes (R397). Procedure 1 has measured the discharge times of converter 0 through PREF0 and PREF1
and of converter 1 through both; procedure 2 the errors of the tide crystal, TRC and BRC, in ppb. -/
def execCalProcDone (m0 m1 m2 m3 : W32) (s : State) : Out :=
  .next (
    match s.far.calProc with
    | none => s
    | some (proc, mb, tag) =>
      if !s.farrierUp then s
      else
        let s1 := { s with far := { s.far with calProc := none } }
        let m : MailboxId := bvFin 8 rfl mb
        let (r0, r1, r2) := procResults s proc m0 m1 m2 m3
        if !resultsOk proc r0 r1 r2 then writeReply m 0xB2 tag badState [] s1
        else if s.nvFails 0 then writeReply m 0xB2 tag nvError [] s1
        else
          let b := resultBytes proc r0 r1 r2
          let (s2, st) := withNote 3 0 0 (putCal (if proc = 1 then 0x10 else 4) b s1)
          writeReply m 0xB2 tag st b s2)

/-! ### Tags (R334; 04_channels.md R100, R103) -/

/-- TAG_READ (R334): an unreadable tag is reported and its trims are taken as 0; the user bytes are returned as stored. -/
def reqTagRead (q : Req) (lch : Byte) (s : State) : State :=
  carryOut 0xB3 q (fun s =>
    match idx? 64 lch.toNat with
    | none => refuse badField s
    | some l =>
      let a := 64 * l.val
      let head := if bit s.nv.tagBad l.val then zeros 8 else memBytes s.nv.tags a 8
      okWith (head ++ memBytes s.nv.tags (a + 8) 56) (tagReport l s)) s

/-- The four trims of TAG_WRITE lie in −512 to +511. -/
def trimsOk (data : List Byte) : Bool :=
  (List.range 4).all fun i =>
    let v := (BitVec.ofNat 16 (ofLe ((data.drop (2 * i)).take 2))).toInt
    decide (-512 ≤ v) && decide (v ≤ 511)

/-- TAG_WRITE (R334): the trims of an open channel go into its unit at once. -/
def reqTagWrite (q : Req) (lch sec : Byte) (reserved : W16) (data : List Byte) (s : State) : State :=
  carryOut 0xB4 q (fun s =>
    match idx? 64 lch.toNat with
    | none => refuse badField s
    | some l =>
      if 1 < sec.toNat ∨ reserved ≠ 0 then refuse badField s
      else if data.length ≠ (if sec = 0 then 8 else 48) then refuse badLen s
      else if sec = 0 && !trimsOk data then refuse badField s
      else if s.nvFails 1 then refuse nvError s
      else if sec = 1 then okAns { s with nv := { s.nv with tags := memPut s.nv.tags (64 * l.val + 16) data } }
      else if s.lmap[l].mig.isSome then .waits
      else
        let s1 := { s with nv := { s.nv with tags := memPut s.nv.tags (64 * l.val) data, tagBad := setBit s.nv.tagBad l.val false } }
        match if s1.lmap[l].open_ then unitOf s1 l else none with
        | some u => okAns (loadTrims l u s1)
        | none => okAns s1) s

/-! ### The boot wait (R334, R319, R320) -/

/-- PATCH_DATA (R334). -/
def reqPatchData (q : Req) (off : W32) (data : List Byte) (s : State) : State :=
  carryOut 0xF0 q (fun s =>
    if data = [] ∨ 244 < data.length then refuse badLen s
    else if 65568 < off.toNat + data.length then refuse badField s
    else okAns { s with far := { s.far with patchBuf := memPut s.far.patchBuf off.toNat data } }) s

/-- The command is accepted: the Farrier takes requests, no injected refusal stands, and the state allows it. -/
def accepts (cmd : Byte) (q : Req) (s : State) : Bool := s.takes && !bit s.hlt.mbInj q.mb.val && !stateRefuses s cmd

/-- PATCH_RUN (R334): on success it replies, ends step 7 and starts the patch. -/
def reqPatchRun (q : Req) (s : State) : State :=
  match patchCheck s.far.patchBuf with
  | none => carryOut 0xF1 q (refuse imageError) s
  | some p =>
    let s1 := carryOut 0xF1 q (fun s => okWith (le2 p.1) (startPatch p s)) s
    if accepts 0xF1 q s then finishBoot s1 else s1

/-- BOOT_CONTINUE (R334). -/
def reqBootContinue (q : Req) (s : State) : State :=
  let s1 := carryOut 0xF2 q okAns s
  if accepts 0xF2 q s then finishBoot s1 else s1

/-! ### The commands -/

/-- HEALTH_SUM. -/
def execHealthSum (q : Req) (s : State) : Out := .next (reqHealthSum q s)
/-- HEALTH_DET. -/
def execHealthDet (q : Req) (cls idx : Byte) (s : State) : Out := .next (reqHealthDet q cls idx s)
/-- INJ_OPEN1. -/
def execInjOpen1 (q : Req) (word : W32) (s : State) : Out := .next (reqInjOpen1 q word s)
/-- INJ_OPEN2. -/
def execInjOpen2 (q : Req) (word : W16) (s : State) : Out := .next (reqInjOpen2 q word s)
/-- INJ_FIRE. -/
def execInjFire (q : Req) (cls idx : Byte) (reserved : W16) (par : W32) (s : State) : Out := .next (reqInjFire q cls idx reserved par s)
/-- INJ_CLOSE. -/
def execInjClose (q : Req) (s : State) : Out := .next (reqInjClose q s)
/-- CAL_READ. -/
def execCalRead (q : Req) (off : W16) (len : Byte) (s : State) : Out := .next (reqCalRead q off len s)
/-- CAL_WRITE. -/
def execCalWrite (q : Req) (off : W16) (len res1 : Byte) (word res2 : W16) (data : List Byte) (s : State) : Out :=
  .next (reqCalWrite q off len res1 word res2 data s)
/-- CAL_PROC. -/
def execCalProc (q : Req) (proc : Byte) (s : State) : Out := .next (reqCalProc q proc s)
/-- TAG_READ. -/
def execTagRead (q : Req) (lch : Byte) (s : State) : Out := .next (reqTagRead q lch s)
/-- TAG_WRITE. -/
def execTagWrite (q : Req) (lch sec : Byte) (reserved : W16) (data : List Byte) (s : State) : Out :=
  .next (reqTagWrite q lch sec reserved data s)
/-- PATCH_DATA. -/
def execPatchData (q : Req) (off : W32) (data : List Byte) (s : State) : Out := .next (reqPatchData q off data s)
/-- PATCH_RUN. -/
def execPatchRun (q : Req) (s : State) : Out := .next (reqPatchRun q s)
/-- BOOT_CONTINUE. -/
def execBootContinue (q : Req) (s : State) : Out := .next (reqBootContinue q s)

end Sys2Proof.Machine
end

