-- ==== Sys2Proof/Machine/FarrierProg.lean ====
section
/-! DEFINITION. Program and thread commands of the Farrier, and the open of a Renist image (14_farrier_commands.md R327;
07_microcode.md R176 to R182; 05_ostler.md R108, R115). -/

namespace Sys2Proof.Machine

/-! ### Images (R176 to R181) -/

/-- An image as its header and tables give it. -/
structure Image where
  pages : Nat
  trap : W32
  sdSize : Nat
  sdInit : Nat
  sdOff : Nat
  pageOff : Nat
  sdCrc : W32
  tab : List ThrEnt
  pcrc : List W32
  pinc : List Byte
deriving DecidableEq, Repr

/-- A code address lies in the image. -/
def codeOk (pages a : Nat) : Bool := decide (a < 128 * pages)

/-- One entry of the thread table at `a`; none where a check fails (R177, R181). -/
def parseThread (m : Mem) (pages a : Nat) : Option ThrEnt :=
  let f (o n : Nat) : Nat := memLe m (a + o) n
  let rt := f 8 1 == 1
  let ok := codeOk pages (f 0 4) && codeOk pages (f 4 4) && decide (f 8 1 ≤ 1) && decide (f 9 1 ≤ 15) && decide (f 14 1 ≤ 1) &&
    f 15 1 == 0 && (if rt then decide (f 10 2 ≤ 1000) && decide (1 ≤ f 12 2) else f 10 2 == 0 && f 12 2 == 0)
  if ok then some { start := BitVec.ofNat 19 (f 0 4), restart := BitVec.ofNat 19 (f 4 4), rt := rt, prio := BitVec.ofNat 4 (f 9 1),
                    load := BitVec.ofNat 10 (f 10 2), budget := BitVec.ofNat 16 (f 12 2), onOvr := f 14 1 == 1, tid := 0 }
  else none

/-- The half-open ranges meet. -/
def meets (a b c d : Nat) : Bool := decide (a < b) && decide (c < d) && decide (a < d) && decide (c < b)

/-- Read and check an image at `base`, at most `limit` bytes long; none where a check of the image itself fails (R181). -/
def parseImage (m : Mem) (base limit : Nat) : Option Image :=
  let f (o n : Nat) : Nat := memLe m (base + o) n
  let len := f 8 4
  let pages := f 12 2
  let threads := f 14 1
  let tabEnd := 64 + 16 * threads + 8 * pages
  let pgt := 64 + 16 * threads
  let sdSize := f 20 4
  let sdInit := f 24 4
  let sdOff := f 28 4
  let po := f 32 4
  let ok := decide (memBytes m base 4 = [0x52, 0x4E, 0x53, 0x54]) && f 4 2 == 2 && f 6 2 == 0 && f 15 1 == 0 && f 56 4 == 0 &&
    decide (1 ≤ pages) && decide (pages ≤ 4096) && decide (1 ≤ threads) && decide (threads ≤ 16) &&
    decide (tabEnd ≤ len) && decide (len ≤ limit) &&
    f 60 4 == (crc32 (memBytes m base 60 ++ memBytes m (base + 64) (tabEnd - 64))).toNat &&
    sdSize % 8 == 0 && decide (sdInit ≤ sdSize) && po % 512 == 0 && decide (tabEnd ≤ po) && decide (po + 512 * pages ≤ len) &&
    decide (sdOff + sdInit ≤ len) && !meets sdOff (sdOff + sdInit) 64 tabEnd && !meets sdOff (sdOff + sdInit) po (po + 512 * pages) &&
    (f 16 4 == 0xFFFFFFFF || codeOk pages (f 16 4))
  if !ok then none
  else
    let rows := (List.range pages).map fun i => pgt + 8 * i
    let pinsOk := rows.all fun a => decide (f (a + 4) 1 ≤ 2) && f (a + 5) 3 == 0
    match pinsOk, (List.range threads).mapM fun i => parseThread m pages (base + 64 + 16 * i) with
    | true, some tab => some {
        pages := pages, trap := BitVec.ofNat 32 (f 16 4), sdSize := sdSize, sdInit := sdInit, sdOff := sdOff, pageOff := po
        sdCrc := BitVec.ofNat 32 (f 52 4), tab := tab, pcrc := rows.map fun a => BitVec.ofNat 32 (f a 4)
        pinc := rows.map fun a => BitVec.ofNat 8 (f (a + 4) 1) }
    | _, _ => none

/-! ### Resources (R104, R108, R115) -/

/-- 64-bit words that a block of `size` bytes takes up to the next place where one can start (R157). -/
def sdWords (size : Nat) : Nat := ceilDiv size 64 * 8

/-- Places, as 64-bit words, at which a block of shared data can stand: a multiple of 64 bytes, at the start of the memory or after
another block, clear of every block. Which of them an open takes no rule says (DESIGN CHOICE, log entry 42). -/
def sdPlaces (s : State) (size : Nat) : List Nat :=
  let held := (idxs 16).filter fun p => s.prog[p].sdSize != 0
  let cands := 0 :: held.map fun p => s.prog[p].sdAt + sdWords s.prog[p].sdSize.toNat
  cands.filter fun a => decide (8 * a + size ≤ Config.sdTotal) &&
    !held.any fun p => meets a (a + sdWords size) s.prog[p].sdAt (s.prog[p].sdAt + sdWords s.prog[p].sdSize.toNat)

/-- A block of shared data fits (R181). -/
def sdFits (s : State) (size : Nat) : Bool := size == 0 || !(sdPlaces s size).isEmpty

/-- A program number that is free. -/
def freeProg (s : State) : Option ProgId := (idxs 16).find? fun p => !s.prog[p].open_

/-- Pinned frames held. -/
def pinnedFrames (s : State) : Nat := ((idxs 128).filter fun i => s.frm[i].used && s.frm[i].pin).length

/-- Frames that an open can have: free, or evictable (R115). -/
def framesAvail (s : State) : Nat := ((idxs 128).filter fun i => !s.frm[i].used || evictable s i).length

/-- Give a page of a program a frame that holds it. DESIGN CHOICE (log entry 41): it counts as executed at the open, so that no later
page of the same open evicts it (R115, R178, R181). -/
def residentPage (p : ProgId) (page : Nat) (pin : Bool) (words : List W32) (s : State) : State :=
  match takeFrame s with
  | none => s
  | some (i, s) =>
    clearMarks 2 (64 * i.val) (64 * i.val + 63) (s.modFrm i fun _ =>
      { Frame.reset with used := true, page := BitVec.ofNat 12 page, prog := BitVec.ofNat 4 p.val, valid := true, pin := pin,
                            lastX := s.ost.execClk, words := words })

/-- Place threads in table order (R108): the state and the thread table with their TIDs; none where one has no engine or TID. -/
def placeAll (p : ProgId) (tab : List ThrEnt) (s : State) : Option (State × List ThrEnt) :=
  tab.foldl (fun a e => match a with
    | none => none
    | some (s, done) =>
      match (idxs 64).find? fun t => s.thr[t].st == .free with
      | none => none
      | some t => (placeThread p e t s).map fun s => (s, done ++ [{ e with tid := BitVec.ofFin t }])) (some (s, []))

/-- Local memory of a program's threads cleared (R156). -/
def clearLocal (tab : List ThrEnt) (s : State) : State :=
  forEach (tab.map fun e => bvFin 64 rfl e.tid) (fun t s =>
    clearMarks 3 (0x100 * t.val + 0x80) (0x100 * t.val + 0xFF) (s.modThr t fun k => { k with ctx := { k.ctx with tlm := [] } })) s

/-- Each channel of a mask is bound to a thread of the program; no rule says which (log entry 7). -/
def bindChannels (chs : List Lch) (tab : List ThrEnt) (s : State) : State :=
  forEach chs (fun l s =>
    let (t, s) := choose (tab.map (·.tid)) 0 s
    s.modLMap l fun m => { m with tbind := true, tid := t }) s

/-! ### Opening a program (R181, R327) -/

/-- Words of a page in an image. -/
def pageWords (m : Mem) (a : Nat) : List W32 := (List.range 128).map fun i => BitVec.ofNat 32 (memLe m (a + 4 * i) 4)

/-- Bindings that an open names: NOT_OPEN before IN_USE. -/
def bindStatus (s : State) (ch : W64) (hm : W16) (bm : W64) : Option Byte :=
  let cs := maskIdx 64 ch
  let hs := maskIdx 16 hm
  let bs := maskIdx 64 bm
  if (cs.any fun l => !s.lmap[l].open_) || (hs.any fun h => s.har[h].kind == 0) || bs.any fun b => !s.bas[b].open_ then some notOpen
  else if cs.any (channelHeld s) || hs.any (harnessHeld s) || bs.any (basinHeld s) then some inUse
  else none

/-- Open a checked image under a program number: frames, shared data, threads, bindings; a status where it is refused. -/
def openImage (p : ProgId) (g : Image) (m : Mem) (base : Nat) (staged : Bool) (ch : W64) (hm : W16) (bm : W64) (s : State) :
    State ⊕ Byte :=
  let pages := List.range g.pages
  let pin (i : Nat) : Byte := g.pinc.getD i 0
  let res := if staged then pages else pages.filter fun i => pin i != 0
  let pins := (pages.filter fun i => pin i == 1).length
  let at_ (i : Nat) : Nat := base + g.pageOff + 512 * i
  if 96 < pinnedFrames s + pins ∨ framesAvail s < res.length then .inr noResource
  else if res.any fun i => crc32 (memBytes m (at_ i) 512) != g.pcrc.getD i 0 then .inr imageError
  else if crc32 (memBytes m (base + g.sdOff) g.sdInit) ≠ g.sdCrc then .inr imageError
  else
    let (sb, s) := if g.sdSize = 0 then (0, s) else choose (sdPlaces s g.sdSize) 0 s
    let s := { s with ost := { s.ost with execClk := s.ost.execClk + 1 } }
    let s := s.modProg p fun _ => { Prog.reset with
      sdAt := sb, open_ := true, staged := staged, flashOff := BitVec.ofNat 32 (base + g.pageOff), pages := BitVec.ofNat 16 g.pages
      trapEntry := g.trap, pcrc := g.pcrc, pinc := g.pinc, chMask := ch, hMask := hm, bMask := bm
      sdSize := BitVec.ofNat 32 g.sdSize, sd := memPut [] 0 (memBytes m (base + g.sdOff) g.sdInit) }
    let s := forEach res (fun i s => residentPage p i (pin i == 1) (pageWords m (at_ i)) s) s
    let s := if g.sdSize = 0 then s else clearMarks 1 sb (sb + g.sdSize / 8 - 1) s
    match placeAll p g.tab s with
    | none => .inr noResource
    | some (s, tab) =>
      let s := clearLocal tab (s.modProg p fun k => { k with tab := tab })
      let s := bindChannels (maskIdx 64 ch) tab s
      .inl (forEach tab (fun e s => startThread (bvFin 64 rfl e.tid) e.start s) s)

/-- The reply of PROG_OPEN. -/
def openReply (s : State) (p : ProgId) : List Byte :=
  let k := s.prog[p]
  [count8 p.val, count8 k.tab.length, count8 (k.pinc.filter (· == 1)).length, 0] ++
  (k.tab.map fun e => e.tid.zeroExtend 8) ++ List.replicate (16 - k.tab.length) 0xFF

/-- PROG_OPEN (R327, R181). -/
def reqProgOpen (q : Req) (source : Byte) (res1 : BitVec 24) (off : W32) (chMask : W64) (hMask res2 : W16) (bMask : W64)
    (s : State) : State :=
  carryOut 0x41 q (fun s =>
    if 1 < source.toNat ∨ res1 ≠ 0 ∨ res2 ≠ 0 ∨ fld bMask 62 2 ≠ 0#2 then refuse badField s
    else
      let staged := source == 1
      let m := if staged then s.far.staging else s.far.flash
      let base := if staged then 0 else off.toNat
      let limit := if staged then 81920 else 0x1000000 - base
      if base % 512 ≠ 0 ∨ 0x1000000 ≤ base then refuse imageError s
      else match parseImage m base limit with
        | none => refuse imageError s
        | some g =>
          match freeProg s with
          | none => refuse noResource s
          | some p =>
            if !sdFits s g.sdSize then refuse noResource s
            else match bindStatus s chMask hMask bMask with
              | some st => refuse st s
              | none =>
                match openImage p g m base staged chMask hMask bMask s with
                | .inr st => refuse st s
                | .inl s1 => okWith (openReply s1 p) (if staged then { s1 with far := { s1.far with staging := [] } } else s1)) s

/-- PROG_UPLOAD (R327): the staging area holds up to 81,920 bytes. -/
def reqProgUpload (q : Req) (off : W32) (data : List Byte) (s : State) : State :=
  carryOut 0x40 q (fun s =>
    if data = [] ∨ 244 < data.length then refuse badLen s
    else if 81920 < off.toNat + data.length then refuse badField s
    else okAns { s with far := { s.far with staging := memPut s.far.staging off.toNat data } }) s

/-- A program by its number. -/
def withProg (p : Byte) (body : ProgId → State → Ans) (s : State) : Ans :=
  match idx? 16 p.toNat with
  | none => refuse badField s
  | some i => if !s.prog[i].open_ then refuse notOpen s else body i s

/-- Harness of a shipped program. -/
def Prog.harness (g : Prog) : HarnessId := bvFin 16 rfl g.har

/-- PROG_CLOSE (R327, R182): a shipped program's motion state goes with it; BUSY while its start is pending (R311). -/
def reqProgClose (q : Req) (p : Byte) (s : State) : State :=
  carryOut 0x42 q (withProg p fun i s =>
    let g := s.prog[i]
    if g.shipped && startPending s g.harness then refuse busyCode s
    else
      let s1 := closeProgram i s
      okAns (if g.shipped then s1.modMot g.harness fun _ => Motion.reset else s1)) s

/-- PROG_DOORBELL (R327): event KIND 4 (07_microcode.md R160); a FREE or STOPPED thread cannot take it. -/
def reqProgDoorbell (q : Req) (p idx : Byte) (reserved : W16) (word : W32) (s : State) : State :=
  carryOut 0x43 q (fun s =>
    if reserved ≠ 0 then refuse badField s
    else withProg p (fun i s =>
      match s.prog[i].tab[idx.toNat]? with
      | none => refuse badField s
      | some e =>
        let t : Tid := bvFin 64 rfl e.tid
        if s.thr[t].st = .free ∨ s.thr[t].st = .stopped ∨ s.thr[t].prog.toNat ≠ i.val then refuse badState s
        else okAns (enqueue t { kind := 4, src := 0, arg := 0, data := word, time := s.nowEv } s)) s) s

/-- THREAD_INFO (R327). -/
def reqThreadInfo (q : Req) (tid : Byte) (s : State) : State :=
  carryOut 0x44 q (fun s =>
    match idx? 64 tid.toNat with
    | none => refuse badField s
    | some t =>
      let k := s.thr[t]
      okWith ([k.st.code.zeroExtend 8, k.slot.zeroExtend 8, k.prog.zeroExtend 8, k.prio.zeroExtend 8, count8 k.evq.length, k.evqLoss, k.dlnCnt, 0] ++
              le2 k.lastCyc ++ le2 k.maxCyc)
        (s.modThr t fun k => { k with evqLoss := 0, dlnCnt := 0, maxCyc := 0 })) s

/-- HEADROOM (R327, R108). -/
def reqHeadroom (q : Req) (v : W16) (s : State) : State :=
  carryOut 0x45 q (fun s =>
    if 500 < v.toNat then refuse badField s
    else okAns { s with ost := { s.ost with headroom := v.truncate _ } }) s

/-- A range of a program's shared data: a multiple of 4, inside the block. -/
def sdRange (s : State) (p : ProgId) (off n : Nat) : Bool :=
  off % 4 == 0 && n % 4 == 0 && decide (4 ≤ n) && decide (n ≤ 244) && decide (off + n ≤ s.prog[p].sdSize.toNat)

/-- SD_WRITE (R327). -/
def reqSdWrite (q : Req) (p reserved : Byte) (off : W16) (data : List Byte) (s : State) : State :=
  carryOut 0x46 q (fun s =>
    if data.length < 4 ∨ 244 < data.length ∨ data.length % 4 ≠ 0 then refuse badLen s
    else if reserved ≠ 0 then refuse badField s
    else withProg p (fun i s =>
      if !sdRange s i off.toNat data.length then refuse badField s
      else
        let b := s.prog[i].sdAt
        okAns (clearMarks 1 (b + off.toNat / 8) (b + (off.toNat + data.length - 1) / 8)
          (s.modProg i fun g => { g with sd := memPut g.sd off.toNat data }))) s) s

/-- SD_READ (R327): each word is read as any read of the memory (17_health.md R379). -/
def reqSdRead (q : Req) (p reserved : Byte) (off : W16) (len : Byte) (s : State) : State :=
  carryOut 0x47 q (fun s =>
    if reserved ≠ 0 then refuse badField s
    else withProg p (fun i s =>
      if !sdRange s i off.toNat len.toNat then refuse badField s
      else
        let b := s.prog[i].sdAt
        let lo := off.toNat / 8
        let n := (off.toNat + len.toNat - 1) / 8 + 1 - lo
        okWith (memBytes s.prog[i].sd off.toNat len.toNat)
          (forEach (List.range n) (fun k s => readWord 1 (BitVec.ofNat 24 (b + lo + k)) s) s)) s) s

/-! ### The commands -/

/-- PROG_UPLOAD. -/
def execProgUpload (q : Req) (off : W32) (data : List Byte) (s : State) : Out := .next (reqProgUpload q off data s)
/-- PROG_OPEN. -/
def execProgOpen (q : Req) (source : Byte) (res1 : BitVec 24) (off : W32) (chMask : W64) (hMask res2 : W16) (bMask : W64)
    (s : State) : Out := .next (reqProgOpen q source res1 off chMask hMask res2 bMask s)
/-- PROG_CLOSE. -/
def execProgClose (q : Req) (p : Byte) (s : State) : Out := .next (reqProgClose q p s)
/-- PROG_DOORBELL. -/
def execProgDoorbell (q : Req) (p idx : Byte) (reserved : W16) (word : W32) (s : State) : Out :=
  .next (reqProgDoorbell q p idx reserved word s)
/-- THREAD_INFO. -/
def execThreadInfo (q : Req) (tid : Byte) (s : State) : Out := .next (reqThreadInfo q tid s)
/-- HEADROOM. -/
def execHeadroom (q : Req) (v : W16) (s : State) : Out := .next (reqHeadroom q v s)
/-- SD_WRITE. -/
def execSdWrite (q : Req) (p reserved : Byte) (off : W16) (data : List Byte) (s : State) : Out := .next (reqSdWrite q p reserved off data s)
/-- SD_READ. -/
def execSdRead (q : Req) (p reserved : Byte) (off : W16) (len : Byte) (s : State) : Out := .next (reqSdRead q p reserved off len s)

end Sys2Proof.Machine
end

