-- ==== Sys2Proof/Machine/FarrierMot.lean ====
section
/-! DEFINITION. Motion commands of the Farrier (14_farrier_commands.md R329; 09_motion.md R214 to R217, R223, R226, R227,
R229, R230). -/

namespace Sys2Proof.Machine

/-! ### Opening a shipped program (R214) -/

/-- Default parameters of the bridge program (R229) and of the axis program (R230), by parameter ID. -/
def bridgeDefaults : Vector W32 22 :=
  #v[4, 60, 400, 100, 2000, 100, 100, 100, 60, 600, 2000, 6, 0, 160, 20000, 0, 0, 0, 50, 950, 20, 2]
def axisDefaults : Vector W32 22 := #v[1000, 10000, 10000, 0, 2, 5, 2, 0, 0, 0, 0, 0, 0, 0, 0, 0, 0, 0, 0, 0, 0, 0]

/-- The threads of a shipped program: priority and load (R214). Their code and budgets are not in the spec. -/
def shippedTab (bridge : Bool) (n : Nat) : List ThrEnt :=
  let e (prio : BitVec 4) (load : BitVec 10) : ThrEnt :=
    { ThrEnt.reset with rt := true, prio := prio, load := load, budget := (Config.firmwareWord prio.toNat n).truncate 16 }
  if bridge then [e 13 60, e 8 10] else [e 11 50]

/-- Pinned frames and shared-data bytes of a shipped program (R214). -/
def shippedFrames (bridge : Bool) : Nat := if bridge then 6 else 3
def shippedSd (bridge : Bool) : Nat := if bridge then 256 else 128

/-- The CTRL word of a phase channel: local up/down, UPD 0b001, INSEL by the PSN input, FILT (R214). -/
def phaseCtrl (ctrl : W32) (insel : Nat) (filt : W32) : W32 :=
  setFld (setFld (setFld (setFld ctrl 1 2 3#2) 3 3 1#3) 24 6 (BitVec.ofNat 6 insel)) 16 8 (fld filt 0 8)

/-- Set the phase channels of a bridge; a unit that refuses the word with EN as it is takes it with EN = 0. -/
def setPhases (h : HarnessId) (s : State) : State :=
  forEach (idxs 3) (fun p s =>
    let k := s.har[h]
    match k.memberCh p.val with
    | none => s
    | some l =>
      match unitOf s l with
      | none => s
      | some u =>
        let v := phaseCtrl s.units[u].ctrl (40 + p.val + k.hsd.toNat) k.mot.par[13]
        let s := if s.units[u].ctrlRefused v then writeCtrl u (setBit v 0 false) s else s
        let v := if s.units[u].ctrlRefused v then setBit v 0 false else v
        adoptCh l (writeCtrl u v s)) s

/-- Open a shipped program on a harness; none where its resources cannot be had (R104, R214). -/
def openShipped (h : HarnessId) (bridge : Bool) (p : ProgId) (s : State) : Option State :=
  let n := s.far.free
  let frames := shippedFrames bridge
  let k := s.har[h]
  if 96 < pinnedFrames s + frames ∨ framesAvail s < frames ∨ !sdFits s (shippedSd bridge) then none
  else
    let (sb, s) := choose (sdPlaces s (shippedSd bridge)) 0 { s with far := { s.far with free := n + 1 } }
    let s := s.modProg p fun _ => { Prog.reset with
      sdAt := sb, open_ := true, shipped := true, har := BitVec.ofNat 4 h.val, hMask := setBit 0 h.val true
      chMask := k.channels.foldl (fun m l => setBit m l.val true) 0
      pages := BitVec.ofNat 16 frames, pinc := List.replicate frames 1, trapEntry := 0xFFFFFFFF
      sdSize := BitVec.ofNat 32 (shippedSd bridge) }
    let words (i : Nat) : List W32 := (List.range 128).map fun w => Config.firmwareWord (512 * i + 4 * w) n
    let s := forEach (List.range frames) (fun i s => residentPage p i true (words i) s) s
    (placeAll p (shippedTab bridge n) s).map fun (s, tab) =>
      let s := clearLocal tab (s.modProg p fun k => { k with tab := tab })
      let s := forEach tab (fun e s => startThread (bvFin 64 rfl e.tid) ((Config.firmwareWord e.tid.toNat n).truncate 19) s) s
      let s := s.modMot h fun _ => { Motion.reset with
        prog := if bridge then .bridge else .axis, par := if bridge then bridgeDefaults else axisDefaults }
      if bridge then setPhases h (s.modHar h fun k => { k with w18 := setBit k.w18 24 true }) else s

/-- MOT_OPEN (R329, R214). -/
def reqMotOpen (q : Req) (h p : Byte) (s : State) : State :=
  carryOut 0x60 q (fun s =>
    if 1 < p.toNat then refuse badField s
    else withHarness h (fun i s =>
      let k := s.har[i]
      let bridge := p == 0
      if k.kind ≠ (if bridge then 2#3 else 3#3) then refuse badState s
      else if harnessHeld s i || k.channels.any (channelHeld s) then refuse inUse s
      else if k.channels.any fun l => s.lmap[l].mig.isSome then .waits
      else match freeProg s with
        | none => refuse noResource s
        | some g =>
          match openShipped i bridge g s with
          | none => refuse noResource s
          | some s1 => okWith [count8 g.val] s1) s) s

/-! ### Parameters (R229, R230) -/

/-- Range of a parameter by its ID. -/
def paramRange (bridge : Bool) (id : Nat) : Option (Nat × Nat) :=
  if bridge then
    [(1, 16), (20, 200), (50, 20000), (20, 5000), (100, 10000), (10, 2000), (10, 500), (10, 500), (20, 5000), (20, 5000),
     (100, 10000), (3, 24), (0, 30), (0, 255), (5000, 100000), (0, 1), (0, 1000), (0, 0xFFFFFFFF), (0, 1000), (0, 1000),
     (0, 65535), (0, 65535)][id]?
  else [(1, 100000), (10, 10000000), (10, 10000000), (0, 0x7FFFFFFF), (1, 50), (1, 100), (1, 100)][id]?

/-- Parameters that can change at any time: DUTY, SPEED, KP, KI. -/
def paramLive (bridge : Bool) (id : Nat) : Bool := bridge && (id == 16 || id == 17 || id == 20 || id == 21)

/-- STEP_HI is not above 1 ÷ (2 × VMAX) (R230). -/
def Motion.stepOk (m : Motion) : Bool := decide (2 * m.p 0 * m.p 4 ≤ 1000000)

/-- The motor or axis is idle: a failed start or a stall leaves it so (R215). -/
def Motion.idle (m : Motion) : Bool := m.st == 0 || m.st == 6

/-- A harness whose program is open. -/
def withMotion (h : Byte) (body : HarnessId → State → Ans) (s : State) : Ans :=
  withHarness h (fun i s => if s.har[i].mot.prog = .none then refuse notOpen s else body i s) s

/-- MOT_PARAM (R329). -/
def reqMotParam (q : Req) (h id : Byte) (reserved : W16) (v : W32) (s : State) : State :=
  carryOut 0x61 q (fun s =>
    if reserved ≠ 0 then refuse badField s
    else withMotion h (fun i s =>
      let m := s.har[i].mot
      let bridge := m.prog == .bridge
      match paramRange bridge id.toNat, idx? 22 id.toNat with
      | some (lo, hi), some j =>
        if v.toNat < lo ∨ hi < v.toNat then refuse badField s
        else if !m.idle && !paramLive bridge id.toNat then refuse badState s
        else
          let m1 := { m with par := m.par.set j v }
          if !bridge && !m1.stepOk then refuse badField s
          else
            let s1 := s.modMot i fun _ => m1
            okAns (if bridge && id == 13 then setPhases i s1
                   else if bridge && id == 16 && m1.st == 5 && m1.p 15 == 0 then setDuty i (m1.p 16) s1 else s1)
      | _, _ => refuse badField s) s) s

/-! ### Starting and stopping the motor (R215 to R217, R223) -/

/-- CATCH is long enough for the STOP_RPM (R217). -/
def Motion.catchOk (m : Motion) : Bool := decide (20000 ≤ m.p 1 * m.p 0 * m.p 3)

/-- MOT_START (R329): deferred; BUSY while the motor runs. -/
def reqMotStart (q : Req) (h : Byte) (s : State) : State :=
  carryOut 0x62 q (withMotion h fun i s =>
    let k := s.har[i]
    if k.mot.prog ≠ .bridge then refuse badState s
    else if !k.mot.idle then refuse busyCode s
    else if !k.live || !k.mot.catchOk then refuse badState s
    else .later ((beginCatch i s).modMot i fun m => { m with speed := 0, startMb := some (BitVec.ofNat 3 q.mb.val, q.tag) })) s

/-- Stop the motor by mode (R223): a stop in the catch window keeps the phases floating and posts STOPPED with DATA 0. -/
def stopBridge (h : HarnessId) (mode : Byte) (s : State) : State :=
  let m := s.har[h].mot
  if m.idle then s
  else
    let s := answerStart h aborted [] s
    let s := s.modMot h fun m => { m with cmdSpeed := if m.st = 1 then 0 else m.speed }
    if mode = 0 ∨ m.st = 1 then stopped h mode s else beginBrake h true s

/-- Stop the axis by mode (R227). -/
def stopAxis (h : HarnessId) (hard : Bool) (s : State) : State :=
  let m := s.har[h].mot
  if m.st = 0 then s
  else if m.armed then s.modMot h fun m => { m with stopping := if hard then 2 else 1 }
  else axisDone h (if hard then 2 else 1) s

/-- MOT_STOP (R329, R311): it is carried out while a start is pending. -/
def reqMotStop (q : Req) (h mode : Byte) (s : State) : State :=
  carryOut 0x63 q (fun s =>
    if 1 < mode.toNat then refuse badField s
    else withMotion h (fun i s =>
      okAns (if s.har[i].mot.prog = .bridge then stopBridge i mode s else stopAxis i (mode == 1) s)) s) s

/-! ### The axis (R226) -/

/-- A harness whose axis program is open. -/
def withAxis (h : Byte) (body : HarnessId → State → Ans) (s : State) : Ans :=
  withMotion h (fun i s => if s.har[i].mot.prog = .axis then body i s else refuse badState s) s

/-- A new target (R226). -/
def axisTarget (h : HarnessId) (target : W32) (s : State) : State :=
  let s := postMotion h 16 0 target (s.modMot h fun m => { m with target := target, stopping := 0 })
  let m := s.har[h].mot
  if m.st ≠ 0 then s.modMot h Motion.plan
  else if m.pos = target then axisDone h 0 s
  else turnAxis h (s.modMot h fun m => { m with st := 1, dirRev := decide (target.toInt < m.pos.toInt), overshoot := false, acc := 0 })

/-- AXIS_MOVE (R329, R226). -/
def reqAxisMove (q : Req) (h : Byte) (reserved : BitVec 24) (target : W32) (s : State) : State :=
  carryOut 0x64 q (fun s =>
    if reserved ≠ 0 then refuse badField s
    else withAxis h (fun i s => if s.har[i].live then okAns (axisTarget i target s) else refuse badState s) s) s

/-- AXIS_HOME (R329): only at zero speed with no step armed. -/
def reqAxisHome (q : Req) (h : Byte) (reserved : BitVec 24) (pos : W32) (s : State) : State :=
  carryOut 0x65 q (fun s =>
    if reserved ≠ 0 then refuse badField s
    else withAxis h (fun i s =>
      let m := s.har[i].mot
      if m.st ≠ 0 || m.armed then refuse badState s
      else okAns (s.modMot i fun m => { m with pos := pos, target := pos })) s) s

/-- MOT_STATUS (R329): duty in 0.1 %. -/
def reqMotStatus (q : Req) (h : Byte) (s : State) : State :=
  carryOut 0x66 q (withMotion h fun i s =>
    let m := s.har[i].mot
    okWith ([m.st, 0, 0, 0] ++ le4 m.speed ++ le4 m.pos ++ leBytes 2 (openDiv m.duty.toNat 100)) s) s

/-! ### The commands -/

/-- MOT_OPEN. -/
def execMotOpen (q : Req) (h p : Byte) (s : State) : Out := .next (reqMotOpen q h p s)
/-- MOT_PARAM. -/
def execMotParam (q : Req) (h id : Byte) (reserved : W16) (v : W32) (s : State) : Out := .next (reqMotParam q h id reserved v s)
/-- MOT_START. -/
def execMotStart (q : Req) (h : Byte) (s : State) : Out := .next (reqMotStart q h s)
/-- MOT_STOP. -/
def execMotStop (q : Req) (h mode : Byte) (s : State) : Out := .next (reqMotStop q h mode s)
/-- AXIS_MOVE. -/
def execAxisMove (q : Req) (h : Byte) (reserved : BitVec 24) (target : W32) (s : State) : Out := .next (reqAxisMove q h reserved target s)
/-- AXIS_HOME. -/
def execAxisHome (q : Req) (h : Byte) (reserved : BitVec 24) (pos : W32) (s : State) : Out := .next (reqAxisHome q h reserved pos s)
/-- MOT_STATUS. -/
def execMotStatus (q : Req) (h : Byte) (s : State) : Out := .next (reqMotStatus q h s)

end Sys2Proof.Machine
end

