-- ==== Sys2Proof/Machine/Probe.lean ====
section
/-! DEFINITION. The commands of the probe converters and of the sealed record's erase (11_probes.md R259 to R269,
12_sealed_record.md R279). -/

namespace Sys2Proof.Machine

/-- PROBE_START (R259, R271). -/
def execProbeStart (c : Fin 2) (s : State) : Out := .next (startConv c s)

/-- The time since the discharge of a converter began, in fines. -/
def discharged (s : State) (c : Fin 2) : Nat := (s.nowEv - s.conv[c].t0).toNat

/-- CHG in fines. -/
def chargeTime (s : State) (c : Fin 2) : Nat := s.conv[c].chg.toNat * 6400

/-- The time since the charge of a converter began, in fines. -/
def charged (s : State) (c : Fin 2) : Nat := (s.nowEv - s.conv[c].tc).toNat

/-- CHARGE_DONE (R259): the charge has lasted CHG. -/
def execChargeDone (t : Instant) (c : Fin 2) (s : State) : Out :=
  event t (fun s => s.conv[c].busy && !s.conv[c].dis && decide (chargeTime s c ≤ charged s c))
    (fun s => s.modConv c fun k => { k with dis := true, t0 := k.tc + BitVec.ofNat 48 (chargeTime s c) }) s

/-- DISCHARGE_TRIP (R259): before TOPEN has passed. -/
def execDischargeTrip (t : Instant) (c : Fin 2) (s : State) : Out :=
  event t (fun s => s.conv[c].busy && s.conv[c].dis && decide (discharged s c < s.conv[c].topen.toNat))
    (fun s => settleSched (dischargeEnd c (discharged s c) false s)) s

/-- DISCHARGE_TIMEOUT (R262). -/
def execDischargeTimeout (t : Instant) (c : Fin 2) (s : State) : Out :=
  event t (fun s => s.conv[c].busy && s.conv[c].dis && decide (s.conv[c].topen.toNat ≤ discharged s c))
    (fun s => settleSched (dischargeEnd c s.conv[c].topen.toNat true s)) s

/-- The event input of the Farrier has taken what its crossing held (03_crossings.md R53). -/
def takeSlotEvent (p : Fin 16) (s : State) : State :=
  let x : Fin 70 := ⟨68 + p.val / 8, by omega⟩
  s.modXing x fun c => c.settle x s.now

/-- PROBE_SLOT_COMPLETE (R263 to R265). The Farrier reads the result registers at the end of a slot's time limit also
where the event was dropped (R259). -/
def execProbeSlotComplete (p : Fin 16) (s : State) : Out :=
  .next (if s.farrierUp && s.prb[p].done then parkReturn (takeResult p (takeSlotEvent p s)) else s)

/-- The period of boundaries in ticks. -/
def measPeriod (s : State) : Nat := s.ps.intv.toNat * 1600000000

/-- MEAS_INTERVAL_BOUNDARY (R266): boundaries fall every MEAS_INT from the moment the schedule was loaded. -/
def execMeasIntervalBoundary (t : Instant) (s : State) : Out :=
  event t (fun s => s.farrierUp && s.ps.sched.isSome && decide (0 < measPeriod s) && decide (measPeriod s ≤ (s.tb.dt - s.ps.base).toNat))
    (fun s =>
      let n := (s.tb.dt - s.ps.base).toNat / measPeriod s
      startRun { s with ps := { s.ps with base := s.ps.base + BitVec.ofNat 64 (n * measPeriod s) } }) s

/-- DECOMMISSION_ERASE (12_sealed_record.md R279). -/
def execDecommissionErase (s : State) : Out :=
  .next (
    match s.rcd.decom with
    | none => s
    | some (mb, tag) =>
      if s.farrierUp && s.rcd.q.isEmpty && s.rcd.epochPend.isNone then
        writeReply (bvFin 8 rfl mb) 0x84 tag 0 [] { s with nv := { s.nv with key := none }, rcd := { s.rcd with decom := none, shut := false } }
      else s)

end Sys2Proof.Machine
end

