-- ==== Sys2Proof/Machine/FarrierPrb.lean ====
section
/-! DEFINITION. Probe and record commands of the Farrier (14_farrier_commands.md R330, R331; 11_probes.md R258, R266;
12_sealed_record.md R278 to R282). -/

namespace Sys2Proof.Machine

/-! ### Schedules (R330, R258, R266) -/

/-- A converter block as the schedule keeps it. -/
def ConvSched.ofBlk (b : ConvBlk) : ConvSched :=
  { nslot := b.nslot, avg := b.avg, chg := b.chg, refSel := b.refSel, prbs := Vector.ofFn fun (i : Fin 8) => fld b.prbs (8 * i.val) 8 }

/-- The fields of a used block lie in range; an unused one has only its reserved bytes checked. -/
def blkOk (b : ConvBlk) : Bool :=
  b.reserved == 0 && decide (b.nslot.toNat ≤ 8) &&
  (b.nslot == 0 ||
   (decide (b.avg.toNat ≤ 4) && decide (1 ≤ b.chg.toNat) && decide (b.chg.toNat ≤ 1000) && decide (b.refSel.toNat ≤ 1) &&
    (List.range b.nslot.toNat).all fun i => decide ((fld b.prbs (8 * i) 8).toNat ≤ 7)))

/-- The sum of R266 in µs. -/
def blkSpan (b : ConvBlk) (topen : Nat) : Nat := b.nslot.toNat * 2 ^ b.avg.toNat * 2 * (b.chg.toNat + topen)

/-- A used block names a failed converter or a reference that is not written (17_health.md R385, R395). -/
def blkUnready (b : ConvBlk) (c : Fin 2) (s : State) : Bool :=
  b.nslot != 0 && (s.conv[c].failed || s.cal.rRef[if bit b.refSel 0 then (1 : Fin 2) else 0] == 0)

/-- PRB_SCHED (R330). -/
def reqPrbSched (q : Req) (measInt : W32) (c0 c1 : ConvBlk) (topen tshort : W16) (s : State) : State :=
  carryOut 0x70 q (fun s =>
    let half := measInt.toNat * 500000
    if measInt.toNat < 1 ∨ 3600 < measInt.toNat ∨ !blkOk c0 ∨ !blkOk c1 ∨ topen.toNat < 1000 ∨ tshort.toNat < 100 ∨ 50000 < tshort.toNat ∨
       (c0.nslot ≠ 0 ∧ c1.nslot ≠ 0 ∧ c0.refSel = c1.refSel) ∨ half < blkSpan c0 topen.toNat ∨ half < blkSpan c1 topen.toNat then
      refuse badField s
    else if blkUnready c0 0 s || blkUnready c1 1 s then refuse badState s
    else
      let k : Sched := { measInt := measInt, c0 := .ofBlk c0, c1 := .ofBlk c1, topen := topen.zeroExtend 32, tshort := tshort.zeroExtend 32 }
      let (s1, st) := withNote 4 0 0 (loadSched k s)
      .reply st [] s1) s

/-- PRB_COEF (R330). -/
def reqPrbCoef (q : Req) (p : Byte) (reserved : BitVec 24) (a b c3 : W64) (off : W32) (s : State) : State :=
  carryOut 0x71 q (fun s =>
    match idx? 16 p.toNat with
    | none => refuse badField s
    | some i =>
      if reserved ≠ 0 then refuse badField s
      else okAns (s.modPrb i fun r => { r with ca := a, cb := b, cc := c3, off := off })) s

/-- PRB_READ (R330). -/
def reqPrbRead (q : Req) (p : Byte) (s : State) : State :=
  carryOut 0x72 q (fun s =>
    match idx? 16 p.toNat with
    | none => refuse badField s
    | some i =>
      let r := s.prb[i]
      let bits := flagByte [bit r.flags 1, bit r.flags 2, bit r.flags 3, r.range, bit r.flags 0]
      okWith (le4 r.mC ++ le8 r.dt ++ le4 r.ratio ++ [bits, flagByte [r.valid]]) s) s

/-- PRB_STOP (R330): the run in progress finishes. -/
def reqPrbStop (q : Req) (s : State) : State :=
  carryOut 0x73 q (fun s => okAns { s with ps := { s.ps with sched := none, pendSched := none, intv := 0 } }) s

/-! ### Reading and acknowledging the record (R331, R281) -/

/-- The record can be read: a key is held and writing is not disabled by R45 or R381. -/
def State.readable (s : State) : Bool := s.rcd.enabled && s.nv.key.isSome

/-- Position of an entry in the queue. -/
def entryAt (s : State) (epoch : W16) (seq : W32) : Option Nat := s.rcd.q.findIdx? fun e => e.epoch == epoch && e.seq == seq

/-- REC_READ (R331, R281): an entry that is not held gives none. -/
def reqRecRead (q : Req) (flags count : Byte) (epoch : W16) (seq : W32) (s : State) : State :=
  carryOut 0x80 q (fun s =>
    if 1 < flags.toNat ∨ count.toNat < 1 ∨ 7 < count.toNat then refuse badField s
    else
      let start := if bit flags 0 then entryAt s epoch seq else some 0
      let l := match start with
        | some i => if s.readable then (s.rcd.q.drop i).take count.toNat else []
        | none => []
      okWith ([count8 l.length, flagByte (l.map (·.damaged)), 0, 0] ++ leBytes 2 s.rcd.q.length ++ [0, 0] ++ l.flatMap Entry.bytes) s) s

/-- The entry was written before the oldest one held, or before the next one where none is held. -/
def released (s : State) (epoch : W16) (seq : W32) : Bool :=
  let (he, hs) := match s.rcd.q with
    | e :: _ => (e.epoch, e.seq)
    | [] => (s.rcd.epoch, s.rcd.seq)
  decide (epoch < he) || (epoch == he && decide (seq < hs))

/-- Release the entries up to a position (R281). -/
def releaseEntries (i : Nat) (s : State) : State :=
  let rest := s.rcd.q.drop (i + 1)
  let (he, hs) := match rest with
    | e :: _ => (e.epoch, e.seq)
    | [] => (s.rcd.epoch, s.rcd.seq)
  rateRestore { s with rcd := { s.rcd with q := rest, headEpoch := he, headSeq := hs } }

/-- REC_ACK (R331, R281). -/
def reqRecAck (q : Req) (epoch reserved : W16) (seq : W32) (s : State) : State :=
  carryOut 0x81 q (fun s =>
    if reserved ≠ 0 then refuse badField s
    else match entryAt s epoch seq with
      | some i =>
        let s1 := releaseEntries i s
        okWith (leBytes 2 s1.rcd.q.length) s1
      | none => if released s epoch seq then okWith (leBytes 2 s.rcd.q.length) s else refuse badField s) s

/-- REC_EVENT (R331, R273): a DOOR or an ALARM. -/
def reqRecEvent (q : Req) (kind source : Byte) (flags : W16) (value : W32) (s : State) : State :=
  carryOut 0x82 q (fun s =>
    if !(kind == 7 || kind == 8) || (kind == 7 && (decide (15 < source.toNat) || decide (1 < value.toNat) || flags != 0)) then refuse badField s
    else if !s.writes then refuse notProvisioned s
    else entryAns 0x82 q (mkEntry kind source s.tb.dt value 0 flags) le4 s) s

/-! ### The key (R278, R279) -/

/-- The key leaves the request area of its mailbox as the Farrier takes it, since no read returns K (R278; 01_system.md R19). -/
def forgetKey (m : MailboxId) (h : HostIf) : HostIf :=
  { h with mb := memClear h.mb (0x1008 + 0x100 * m.val) (0x1028 + 0x100 * m.val) }

/-- REC_PROVISION (R331, R278): the reply waits for the epoch start. -/
def reqRecProvision (q : Req) (key : List Byte) (s : State) : State :=
  carryOut 0x83 q (fun s =>
    if key.length ≠ 32 then refuse badLen s
    else if s.rcd.decom.isSome then refuse busyCode s
    else if s.nv.key.isSome || s.nv.keyBad.isSome then refuse keyPresent s
    else if s.epochsSpent then refuse epochLimit s
    else if s.nvFails 3 || s.nvFails 2 then refuse nvError s
    else
      let s1 := { s with nv := { s.nv with key := some key }
                         rcd := { s.rcd with enabled := true, shut := false, lossPend := 0, lossCnt := 0 }
                         host := forgetKey q.mb s.host }
      let s2 := startEpoch 4 [mkEntry 0x0C 0 0 (keyCheck key s.nv.serial) 0 0] s1
      .later { s2 with rcd := { s2.rcd with epochMb := some (BitVec.ofNat 3 q.mb.val, q.tag, 0x83) } }) s

/-- REC_DECOMMISSION (R331, R279): deferred until every entry is acknowledged. A NOTE that waits for an epoch start is still
written at it. -/
def reqRecDecommission (q : Req) (word : W16) (s : State) : State :=
  carryOut 0x84 q (fun s =>
    if word ≠ 0xD1C0 then refuse locked s
    else if s.rcd.decom.isSome then refuse busyCode s
    else if s.nv.key.isNone then refuse notProvisioned s
    else
      let s1 := (note 5 0 0 s).1
      .later { s1 with rcd := { s1.rcd with shut := s1.rcd.epochPend.isNone, decom := some (BitVec.ofNat 3 q.mb.val, q.tag) } }) s

/-- REC_STATUS (R331). -/
def reqRecStatus (q : Req) (s : State) : State :=
  carryOut 0x85 q (fun s =>
    let r := s.rcd
    okWith ([flagByte [s.nv.key.isSome, s.writes, r.lossPend != 0], r.rateStep] ++ leBytes 2 r.q.length ++ le2 r.headEpoch ++ [0, 0] ++
            le4 r.headSeq ++ le2 r.lossCnt ++ [0, 0] ++ le4 s.ps.intv ++ le4 s.ps.parkInt) s) s

/-! ### The commands -/

/-- PRB_SCHED. -/
def execPrbSched (q : Req) (measInt : W32) (c0 c1 : ConvBlk) (topen tshort : W16) (s : State) : Out :=
  .next (reqPrbSched q measInt c0 c1 topen tshort s)
/-- PRB_COEF. -/
def execPrbCoef (q : Req) (p : Byte) (reserved : BitVec 24) (a b c3 : W64) (off : W32) (s : State) : Out :=
  .next (reqPrbCoef q p reserved a b c3 off s)
/-- PRB_READ. -/
def execPrbRead (q : Req) (p : Byte) (s : State) : Out := .next (reqPrbRead q p s)
/-- PRB_STOP. -/
def execPrbStop (q : Req) (s : State) : Out := .next (reqPrbStop q s)
/-- REC_READ. -/
def execRecRead (q : Req) (flags count : Byte) (epoch : W16) (seq : W32) (s : State) : Out := .next (reqRecRead q flags count epoch seq s)
/-- REC_ACK. -/
def execRecAck (q : Req) (epoch reserved : W16) (seq : W32) (s : State) : Out := .next (reqRecAck q epoch reserved seq s)
/-- REC_EVENT. -/
def execRecEvent (q : Req) (kind source : Byte) (flags : W16) (value : W32) (s : State) : Out := .next (reqRecEvent q kind source flags value s)
/-- REC_PROVISION. -/
def execRecProvision (q : Req) (key : List Byte) (s : State) : Out := .next (reqRecProvision q key s)
/-- REC_DECOMMISSION. -/
def execRecDecommission (q : Req) (word : W16) (s : State) : Out := .next (reqRecDecommission q word s)
/-- REC_STATUS. -/
def execRecStatus (q : Req) (s : State) : Out := .next (reqRecStatus q s)

end Sys2Proof.Machine
end

