-- ==== Sys2Proof/Machine/FarrierTake.lean ====
section
/-! DEFINITION. FARRIER_TAKE_REQUEST: the oldest PENDING request is read from its mailbox, checked and carried out
(14_farrier_commands.md R305 to R309, R322 to R334). -/

namespace Sys2Proof.Machine

/-- Shortest and longest payload of a command; none for a code that firmware 3.2 does not have (R322 to R334). -/
def payloadRange (cmd : Nat) : Option (Nat × Nat) :=
  let one (n : Nat) : Option (Nat × Nat) := some (n, n)
  match cmd with
  | 0x00 | 0x01 | 0x02 | 0x10 | 0x73 | 0x85 | 0xA0 | 0xA5 | 0xF1 | 0xF2 => one 0
  | 0x05 | 0x06 | 0x11 | 0x21 | 0x31 | 0x34 | 0x42 | 0x44 | 0x52 | 0x53 | 0x62 | 0x66 | 0x72 | 0x91 | 0xB2 | 0xB3 => one 1
  | 0x04 | 0x14 | 0x24 | 0x25 | 0x36 | 0x45 | 0x60 | 0x63 | 0x84 | 0xA1 | 0xA3 => one 2
  | 0x26 | 0xB0 => one 3
  | 0xA2 => one 4
  | 0x47 => one 5
  | 0x92 => one 6
  | 0x03 | 0x13 | 0x33 | 0x35 | 0x43 | 0x51 | 0x61 | 0x64 | 0x65 | 0x80 | 0x81 | 0x82 | 0x90 | 0xA4 => one 8
  | 0x12 | 0x23 => one 10
  | 0x22 => one 12
  | 0x32 => one 16
  | 0x30 => one 18
  | 0x20 => one 20
  | 0x41 => one 28
  | 0x71 | 0x83 => one 32
  | 0x70 => one 40
  | 0x50 => one 48
  | 0x40 | 0xF0 => some (5, 248)
  | 0x46 => some (8, 248)
  | 0xB1 => some (9, 248)
  | 0xB4 => some (12, 52)
  | _ => none

/-- A converter block at an offset of a payload (R330). -/
def blkOf (p : List Byte) (o : Nat) : ConvBlk :=
  let g (i n w : Nat) : BitVec w := BitVec.ofNat w (ofLe ((p.drop (o + i)).take n))
  { nslot := g 0 1 8, avg := g 1 1 8, chg := g 2 2 16, refSel := g 4 1 8, reserved := g 5 3 24, prbs := g 8 8 64 }

/-- Carry out a request by its code, its payload's fields as the tables give them. -/
def runRequest (cmd : Nat) (q : Req) (p : List Byte) (s : State) : State :=
  let g (o n w : Nat) : BitVec w := BitVec.ofNat w (ofLe ((p.drop o).take n))
  let b (o : Nat) : Byte := g o 1 8
  match cmd with
  | 0x00 => reqNop q s
  | 0x01 => reqIdentity q s
  | 0x02 => reqState q s
  | 0x03 => reqSleep q (b 0) (b 1) (g 2 2 16) (g 4 4 32) s
  | 0x04 => reqReset q (g 0 2 16) s
  | 0x05 => reqCauseClear q (b 0) s
  | 0x06 => reqProgMsg q (b 0) s
  | 0x10 => reqTimeGet q s
  | 0x11 => reqSpread q (b 0) s
  | 0x12 => reqAnchor q (g 0 4 32) (g 4 2 16) (b 6) (b 7) (g 8 2 16) s
  | 0x13 => reqDrift q (b 0) (g 1 3 24) (g 4 4 32) s
  | 0x14 => reqNewEpoch q (g 0 2 16) s
  | 0x20 => reqChOpen q (b 0) (g 1 3 24) (g 4 4 32) (g 8 4 32) (g 12 4 32) (g 16 4 32) s
  | 0x21 => reqChClose q (b 0) s
  | 0x22 => reqChCfg q (b 0) (g 1 3 24) (g 4 4 32) (g 8 4 32) s
  | 0x23 => reqChWrite q (b 0) (b 1) (b 2) (b 3) (g 4 6 48) s
  | 0x24 => reqChCtl q (b 0) (b 1) s
  | 0x25 => reqChRead q (b 0) (b 1) s
  | 0x26 => reqTioSet q (b 0) (b 1) (b 2) s
  | 0x30 => reqHOpen q (b 0) (b 1) (b 2) (b 3) (g 4 4 32) (g 8 8 64) (g 16 2 16) s
  | 0x31 => reqHClose q (b 0) s
  | 0x32 => reqHCfg q (b 0) (b 1) (g 2 2 16) (g 4 4 32) (g 8 4 32) (g 12 4 32) s
  | 0x33 => reqHAct q (b 0) (g 1 3 24) (g 4 4 32) s
  | 0x34 => reqHStatus q (b 0) s
  | 0x35 => reqHClear q (b 0) (g 1 3 24) (g 4 4 32) s
  | 0x36 => reqHRide q (b 0) (b 1) s
  | 0x40 => reqProgUpload q (g 0 4 32) (p.drop 4) s
  | 0x41 => reqProgOpen q (b 0) (g 1 3 24) (g 4 4 32) (g 8 8 64) (g 16 2 16) (g 18 2 16) (g 20 8 64) s
  | 0x42 => reqProgClose q (b 0) s
  | 0x43 => reqProgDoorbell q (b 0) (b 1) (g 2 2 16) (g 4 4 32) s
  | 0x44 => reqThreadInfo q (b 0) s
  | 0x45 => reqHeadroom q (g 0 2 16) s
  | 0x46 => reqSdWrite q (b 0) (b 1) (g 2 2 16) (p.drop 4) s
  | 0x47 => reqSdRead q (b 0) (b 1) (g 2 2 16) (b 4) s
  | 0x50 => reqGtOpen q (b 0) (g 1 3 24) (Vector.ofFn fun (i : Fin 11) => g (4 + 4 * i.val) 4 32) s
  | 0x51 => reqGtTune q (b 0) (b 1) (b 2) (b 3) (g 4 2 16) (g 6 2 16) s
  | 0x52 => reqGtClose q (b 0) s
  | 0x53 => reqGtStatus q (b 0) s
  | 0x60 => reqMotOpen q (b 0) (b 1) s
  | 0x61 => reqMotParam q (b 0) (b 1) (g 2 2 16) (g 4 4 32) s
  | 0x62 => reqMotStart q (b 0) s
  | 0x63 => reqMotStop q (b 0) (b 1) s
  | 0x64 => reqAxisMove q (b 0) (g 1 3 24) (g 4 4 32) s
  | 0x65 => reqAxisHome q (b 0) (g 1 3 24) (g 4 4 32) s
  | 0x66 => reqMotStatus q (b 0) s
  | 0x70 => reqPrbSched q (g 0 4 32) (blkOf p 4) (blkOf p 20) (g 36 2 16) (g 38 2 16) s
  | 0x71 => reqPrbCoef q (b 0) (g 1 3 24) (g 4 8 64) (g 12 8 64) (g 20 8 64) (g 28 4 32) s
  | 0x72 => reqPrbRead q (b 0) s
  | 0x73 => reqPrbStop q s
  | 0x80 => reqRecRead q (b 0) (b 1) (g 2 2 16) (g 4 4 32) s
  | 0x81 => reqRecAck q (g 0 2 16) (g 2 2 16) (g 4 4 32) s
  | 0x82 => reqRecEvent q (b 0) (b 1) (g 2 2 16) (g 4 4 32) s
  | 0x83 => reqRecProvision q p s
  | 0x84 => reqRecDecommission q (g 0 2 16) s
  | 0x85 => reqRecStatus q s
  | 0x90 => reqBOpen q (b 0) (b 1) (b 2) (b 3) (g 4 2 16) (b 6) (b 7) s
  | 0x91 => reqBClose q (b 0) s
  | 0x92 => reqBSet q (b 0) (b 1) (g 2 2 16) (b 4) (b 5) s
  | 0xA0 => reqHealthSum q s
  | 0xA1 => reqHealthDet q (b 0) (b 1) s
  | 0xA2 => reqInjOpen1 q (g 0 4 32) s
  | 0xA3 => reqInjOpen2 q (g 0 2 16) s
  | 0xA4 => reqInjFire q (b 0) (b 1) (g 2 2 16) (g 4 4 32) s
  | 0xA5 => reqInjClose q s
  | 0xB0 => reqCalRead q (g 0 2 16) (b 2) s
  | 0xB1 => reqCalWrite q (g 0 2 16) (b 2) (b 3) (g 4 2 16) (g 6 2 16) (p.drop 8) s
  | 0xB2 => reqCalProc q (b 0) s
  | 0xB3 => reqTagRead q (b 0) s
  | 0xB4 => reqTagWrite q (b 0) (b 1) (g 2 2 16) (p.drop 4) s
  | 0xF0 => reqPatchData q (g 0 4 32) (p.drop 4) s
  | 0xF1 => reqPatchRun q s
  | 0xF2 => reqBootContinue q s
  | _ => s

/-- The oldest PENDING request that is not taken (R309, 13_host_link.md R297). -/
def nextRequest (s : State) : Option MailboxId :=
  (s.host.order.map (bvFin 8 rfl)).find? fun m => bit s.host.reqBusy m.val && !bit s.host.taken m.val

/-- Take the request of a mailbox: an injected refusal, then the code, the limits of the state, the length and the header
(R305 to R307, R314), then the command. -/
def takeRequest (m : MailboxId) (s : State) : State :=
  let base := 0x1000 + 0x100 * m.val
  let rd (o n : Nat) : Nat := memLe s.host.mb (base + o) n
  let cmd : Byte := BitVec.ofNat 8 (rd 0 1)
  let q : Req := { mb := m, tag := BitVec.ofNat 8 (rd 1 1) }
  let len := rd 3 1
  if bit s.hlt.mbInj m.val then refuseMalformed cmd q badField true s
  else match payloadRange cmd.toNat with
    | none => refuseMalformed cmd q badCmd false s
    | some (lo, hi) =>
      if stateRefuses s cmd then writeReply m cmd q.tag badState [] s
      else if len < lo ∨ hi < len then refuseMalformed cmd q badLen false s
      else if rd 2 1 ≠ 0 ∨ rd 4 4 ≠ 0 then refuseMalformed cmd q badField false s
      else runRequest cmd.toNat q (memBytes s.host.mb (base + 8) len) s

/-- FARRIER_TAKE_REQUEST (R309). -/
def execFarrierTakeRequest (s : State) : Out :=
  .next (if !s.takes then s else match nextRequest s with | some m => takeRequest m s | none => s)

end Sys2Proof.Machine
end

