-- ==== Sys2Proof/Machine/Gait.lean ====
section
/-! DEFINITION. The commands of the gait trackers (10_gait.md R234 to R251). -/

namespace Sys2Proof.Machine

/-- GAIT_EDGE (R234 to R243): the tracker classifies the oldest capture handed to it by its stamp, its PW where the wheel channel
captures pairs, and the IN levels of SEC_CH and DIR_CH latched with the capture (R451). -/
def execGaitEdge (n : Fin 2) (s : State) : Out :=
  .next (match s.gt[n].inbox with
    | [] => s
    | e :: r => wheelEdge n e.stamp e.pw (bit e.secIn n.val) (bit e.dirIn n.val) (s.modGt n fun k => { k with inbox := r }))

/-- The deadline has passed: now exceeds it by more than the notice allowance, and no capture waits to be classified (R237). -/
def deadlineDue (s : State) (n : Fin 2) : Bool :=
  let k := s.gt[n]
  match k.deadline with
  | none => false
  | some d => k.inbox.isEmpty && decide (d + 1000000 * noticeAllowance s k < 1000000 * (s.nowEv - k.last).toNat)

/-- GAIT_DEADLINE (R237, R238). -/
def execGaitDeadline (t : Instant) (n : Fin 2) (s : State) : Out := event t (fun s => deadlineDue s n) (enterHold n) s

/-- 1 s has passed since the last accepted stamp, in HALF or HOLD (R248). -/
def stallDue (s : State) (n : Fin 2) : Bool :=
  let k := s.gt[n]
  (k.gs == .half || k.gs == .hold) && k.inbox.isEmpty && decide (sec1 ≤ (s.nowEv - k.last).toNat)

/-- GAIT_STALL (R248, R249). -/
def execGaitStall (t : Instant) (n : Fin 2) (s : State) : Out := event t (fun s => stallDue s n) (trackerStall n) s

end Sys2Proof.Machine
end

