-- ==== Sys2Proof/Machine/Health.lean ====
section
/-! DEFINITION. The commands of the health block: scrub, repair, samples, unit failure and migration, interpolators,
injection at a unit (17_health.md R379 to R386, R398). -/

namespace Sys2Proof.Machine

/-! ### Memories (R379, R380) -/

/-- An error that a read of the scrub found. -/
def scrubError (e : Byte × BitVec 24 × Bool) (s : State) : State :=
  if s.pwr.phase ≠ .run then s else if e.2.2 then uncorrectable e.1 e.2.1 false s else corrected e.1 e.2.1 false s

/-- SRAM_SCRUB (R379): the Farrier reads every word of the SRAMs, or of retained memory; `errs` are the words that read with
an error. Injected marks in them report likewise (R392). -/
def execSramScrub (retained : Bool) (errs : List (Byte × BitVec 24 × Bool)) (s : State) : Out :=
  let mine (m : Byte) : Bool := decide (m.toNat < 8) && ((m == 6) == retained)
  .next (
    if !s.farrierUp then s
    else
      let s1 := forEach (errs.filter fun e => mine e.1) scrubError s
      forEach (s.hlt.marks.filter fun k => mine k.1) (fun k s => if s.pwr.phase = .run then readWord k.1 k.2.1 s else s) s1)

/-- FRAME_REPAIR_DONE (R379): `words` as read from flash. -/
def execFrameRepairDone (f : Fin 128) (words : List W32) (s : State) : Out :=
  .next (if s.frm[f].used && s.frm[f].repair then fillDone f words s else s)

/-- CORRECTED_ERROR_WINDOW_END (R380, R384): counts whose window of 1 h has ended restart. -/
def execCorrectedErrorWindowEnd (t : Instant) (s : State) : Out :=
  event t (fun _ => true)
    (fun s =>
      let past (start : W64) : Bool := decide (5760000000000 ≤ (s.tb.dt - start).toNat)
      { s with
        hlt := { s.hlt with corr := s.hlt.corr.map fun (e : CorrEnt) => if past e.start then { e with cnt := 0 } else e }
        units := s.units.map fun (c : ChanUnit) => if past c.hl.ceStart then { c with hl := { c.hl with ceHour := 0 } } else c }) s

/-! ### Temperatures and supplies (R383) -/

/-- A die temperature in 0.1 °C: as read, corrected by DTEMP_OFS, with an injected offset while it is held (R377, R394). -/
def dieTemp (s : State) (d : Fin 2) (raw : BitVec 12) : Int :=
  let (add, until_) := s.hlt.tempInj[d]
  raw.toInt + s.cal.dtOfs[d].toInt + (if 0 < (until_ - s.tb.dt).toInt then 10 * add.toInt else 0)

/-- An injected offset is in force on a die. -/
def tempInjected (s : State) (d : Fin 2) : Bool := decide (0 < (s.hlt.tempInj[d].2 - s.tb.dt).toInt)

/-- A trip of the last report is in force (R400). -/
def tripShown (s : State) (cls idx : Byte) : Bool := s.hlt.det.any fun d => d.cls == cls && d.idx == idx && bit d.st 1

/-- The DATA of the last report. -/
def lastData (s : State) (cls idx : Byte) : W32 := ((s.hlt.det.find? fun d => d.cls == cls && d.idx == idx).map (·.last)).getD 0

/-- TEMP_WARN and TEMP_SHUT on one die. -/
def sampleDie (d : Fin 2) (t : Int) (s : State) : State :=
  let i : Byte := BitVec.ofNat 8 d.val
  let data : W32 := BitVec.ofNat 32 (openDiv t.toNat 10)
  let inj := tempInjected s d
  let warn : Int := 10 * s.cal.tempWarn.toNat
  let shut : Int := 10 * s.cal.tempShut.toNat
  let s :=
    if warn ≤ t && !bit s.hlt.warned d.val then
      pulse 214 (health 0x0B i 5 inj data { s with hlt := { s.hlt with warned := setBit s.hlt.warned d.val true } })
    else if t ≤ warn - 50 then { s with hlt := { s.hlt with warned := setBit s.hlt.warned d.val false } }
    else s
  if shut ≤ t && !tripShown s 0x0B i then
    tripSafe (pulse 214 (health 0x0B i 6 inj data { s with hlt := { s.hlt with tempTrip := true } }))
  else s

/-- The temperature trip ends when both dies are below TEMP_SHUT − 10 °C. -/
def tempRelease (t0 t1 : Int) (s : State) : State :=
  let low : Int := 10 * s.cal.tempShut.toNat - 100
  if s.hlt.tempTrip && decide (t0 < low) && decide (t1 < low) then
    let clear (d : Fin 2) (t : Int) (s : State) : State :=
      let i : Byte := BitVec.ofNat 8 d.val
      if tripShown s 0x0B i then health 0x0B i 7 (tempInjected s d) (BitVec.ofNat 32 (openDiv t.toNat 10)) s else s
    clear 1 t1 (clear 0 t0 { s with hlt := { s.hlt with tempTrip := false } })
  else s

/-- An injected supply trip is held (R377). -/
def supplyInjected (s : State) (i : Fin 5) : Bool := decide (0 < (s.hlt.supInj[i] - s.tb.dt).toInt)

/-- A report-only supply condition begins or ends: event 6 with source 215, then event 7. -/
def supplyReport (i : Fin 5) (now : Bool) (mv : W16) (s : State) : State :=
  let x : Byte := BitVec.ofNat 8 i.val
  let inj := supplyInjected s i
  let on := now || inj
  if on && !bit s.hlt.monTrip i.val then
    pulse 215 (health 0x0C x 6 inj (mv.zeroExtend 32) { s with hlt := { s.hlt with monTrip := setBit s.hlt.monTrip i.val true } })
  else if !on && bit s.hlt.monTrip i.val then
    health 0x0C x 7 false (lastData s 0x0C x) { s with hlt := { s.hlt with monTrip := setBit s.hlt.monTrip i.val false } }
  else s

/-- VBAT high: SAFE to every power-class harness; the trip ends when VBAT has stayed below 42 V for 100 ms. -/
def vbatReport (high below : Bool) (mv : W16) (s : State) : State :=
  let inj := supplyInjected s 1
  let on := high || inj
  let since := if below && !on then (if s.hlt.vbatSince.isSome then s.hlt.vbatSince else some s.tb.dt) else none
  let s := { s with hlt := { s.hlt with vbatSince := since } }
  if on && !s.hlt.vbatTrip then
    tripSafe (pulse 215 (health 0x0C 1 6 inj (mv.zeroExtend 32) { s with hlt := { s.hlt with vbatTrip := true } }))
  else match since with
    | some t =>
      if s.hlt.vbatTrip && decide (160000000 ≤ (s.tb.dt - t).toNat) then
        health 0x0C 1 7 false (lastData s 0x0C 1) { s with hlt := { s.hlt with vbatTrip := false } }
      else s
    | none => s

/-- MONITOR_SAMPLE (R383). While the Farrier does not run, only the temperature registers follow. -/
def execMonitorSample (t : Instant) (m : MonIn) (s : State) : Out :=
  event t (fun s => s.pwr.phase == .run)
    (fun s =>
      let t0 := dieTemp s 0 m.d0
      let t1 := dieTemp s 1 m.d1
      let s := { s with hlt := { s.hlt with dtemp := #v[BitVec.ofInt 12 t0, BitVec.ofInt 12 t1] } }
      if !s.farrierUp then s
      else
        let s := tempRelease t0 t1 (sampleDie 1 t1 (sampleDie 0 t0 s))
        let s := vbatReport m.vbatHigh m.vbatBelow42 m.vbatMv s
        let s := supplyReport 0 m.vbatLow m.vbatMv s
        let s := supplyReport 2 m.vcoreBad m.vcoreMv s
        supplyReport 3 m.vbakLow m.vbakMv s) s

/-! ### Channel units (R384 to R387) -/

/-- Checks of a unit run: FAB clocks, or in SLEEP and walk mode at a tide edge for a sleep-run unit. -/
def unitChecked (s : State) (u : UnitId) : Bool :=
  s.rootRuns || s.clocked || ((s.pwr.phase == .sleep || s.pwr.phase == .walk) && s.units[u].held && s.units[u].sleepRun)

/-- UNIT_FAILURE (R384, R386): `t` is the start of the faulty cycle, `chk` the checks that failed. -/
def execUnitFailure (t : Instant) (u : UnitId) (chk : BitVec 5) (s : State) : Out :=
  event t (fun s => chk != 0 && unitChecked s u) (fun s => failUnit u chk false s.nowEv s) s

/-- No migration that started before the channel's is under way: a second one starts when the first ends ("When things meet"). -/
def migrationNext (s : State) (l : Lch) : Bool :=
  match s.lmap[l].mig with
  | none => false
  | some start => (idxs 64).all fun k => match s.lmap[k].mig with | some b => decide (0 ≤ evDiff b start) | none => true

/-- MIGRATION_RESUME (R386, R387). -/
def execMigrationResume (t : Instant) (l : Lch) (s : State) : Out :=
  event t (fun s => s.rootRuns && migrationNext s l) (resumeMigration l) s

/-- UNIT_REGISTER_ECC_CORRECTION (R384). -/
def execUnitRegisterEccCorrection (t : Instant) (u : UnitId) (s : State) : Out :=
  event t (fun s => unitChecked s u && s.units[u].ust != .retired) (eccCorrect u false) s

/-- The item of an interpolator has failed already: a retired unit is not checked (R384), a failed converter stays so. -/
def tapsFailed (s : State) (i : Fin 70) : Bool :=
  match idx? 68 i.val, idx? 2 (i.val - 68) with
  | some u, _ => s.units[u].ust == .retired
  | none, some c => s.conv[c].failed
  | none, none => false

/-- TAPS_MEASURE (R385): 6 bits hold at most 63, so a value out of range is below 24. -/
def execTapsMeasure (t : Instant) (i : Fin 70) (taps : BitVec 6) (s : State) : Out :=
  event t (fun s => s.pwr.phase == .run)
    (fun s =>
      let s1 := if h : i.val < 68 then s.modUnit ⟨i.val, h⟩ fun c => { c with hl := { c.hl with taps := taps } } else s
      if taps.toNat < 24 && !tapsFailed s i then tapsFail i (taps.zeroExtend 32) false s1 else s1) s

/-- UNIT_INJ_WRITE (R398): ignored while injection is locked. -/
def execUnitInjWrite (u : UnitId) (v : BitVec 3) (s : State) : Out :=
  .next (if s.far.injOpen then injectUnit u v.toNat s else s)

end Sys2Proof.Machine
end

