-- ==== Sys2Proof/Machine/HostLink.lean ====
section
/-! DEFINITION. The commands of the host link (13_host_link.md) and of interrupt target F (15_interrupts.md R341 to R345). -/

namespace Sys2Proof.Machine

/-- STATUS_FRAME (R288). -/
def execStatusFrame (sdi : List Byte) (bad : Bool) (s : State) : Out := .next (serveFrame sdi bad s)

/-- STATUS_PEEK (R291): a frame of at most 3 bytes. -/
def execStatusPeek (sdi : List Byte) (s : State) : Out := .next (serveFrame (sdi.take 3) false s)

/-- READ_FRAME (R288). -/
def execReadFrame (sdi : List Byte) (bad : Bool) (s : State) : Out := .next (serveFrame sdi bad s)

/-- WRITE_FRAME (R288, R293). -/
def execWriteFrame (sdi : List Byte) (bad : Bool) (s : State) : Out := .next (serveFrame sdi bad s)

/-- WRITE_APPLY (R293). -/
def execWriteApply (s : State) : Out := .next (if s.serving then flushWrites s else s)

/-- CLAIM_FRAME (R288, 15_interrupts.md R347). -/
def execClaimFrame (sdi : List Byte) (bad : Bool) (s : State) : Out := .next (serveFrame sdi bad s)

/-- COMPLETE_FRAME (R288, 15_interrupts.md R343). -/
def execCompleteFrame (sdi : List Byte) (bad : Bool) (s : State) : Out := .next (serveFrame sdi bad s)

/-- DOORBELL_FRAME (R288, R297). -/
def execDoorbellFrame (sdi : List Byte) (bad : Bool) (s : State) : Out := .next (serveFrame sdi bad s)

/-- REPLY_RELEASE (R297). -/
def execReplyRelease (mask : Byte) (s : State) : Out := .next (releaseReplies mask s)

/-- PER is clocked, so the host watchdog counts (R301). -/
def State.hwdCounts (s : State) : Bool := s.serving

/-- The host watchdog has reached HWD_TO × 10 ms (16,000,000 ticks each), and has not expired since its restart. -/
def hwdDue (s : State) : Bool :=
  s.hwdCounts && s.host.hwdTo != 0 && !s.host.hostLost && decide (s.host.hwdTo.toNat * 16000000 ≤ (s.tb.dt - s.host.hwdAt).toNat)

/-- HOST_WATCHDOG_EXPIRY (R301). -/
def execHostWatchdogExpiry (t : Instant) (s : State) : Out := event t hwdDue (hwdExpire false) s

/-- HWD_TO_WRITE (R301): bits 7:0 HWD_TO, bit 8 HWD_ACT. -/
def execHwdToWrite (v : W32) (s : State) : Out := .next (writeHwd v s)

/-- HOST_LOST_CLEAR (R301). -/
def execHostLostClear (s : State) : Out := .next (clearHostLost s)

/-! ### Target F (15_interrupts.md R341 to R345) -/

/-- CLAIM_F_READ (R341, R342): `eligAtRef` tells whether F had an eligible source at the read request. A halted Farrier claims
nothing (R352). -/
def execClaimFRead (eligAtRef : Bool) (s : State) : Out := .next (if s.far.halted then s else claimF eligAtRef s)

/-- COMPLETE_F_WRITE (R343 to R345). -/
def execCompleteFWrite (id : Byte) (s : State) : Out := .next (if s.far.halted then s else completeF id s)

end Sys2Proof.Machine
end

