-- ==== Sys2Proof/Machine/Ostler.lean ====
section
/-! DEFINITION. The commands of the Ostler, the basins and the spillway (05_ostler.md R113, R114, R117 to R126, R133;
06_spillway.md R142, R144; 07_microcode.md R162). -/

namespace Sys2Proof.Machine

/-! ### Engines and budgets -/

/-- Threads placed on an engine. -/
def engThreads (s : State) (e : EngineId) : List Tid := (idxs 64).filter fun t => s.thr[t].st != .free && slotEng s.thr[t].slot == e

/-- ENGINE_DOZE (R113). A thread of a shipped program may be waiting, for its code is not in the spec. -/
def execEngineDoze (e : EngineId) (s : State) : Out :=
  .next (
    if !s.eng[e].retired && !(engThreads s e).any (fun t => s.thr[t].st == .ready && !s.prog[s.thr[t].progId].shipped) then
      s.modEng e fun g => { g with doze := true }
    else s)

/-- The count of an activation has passed BUDGET, or an injection counts it as an overrun (R114; 17_health.md R377). -/
def overruns (s : State) (tid : Tid) (cycles : Nat) : Bool :=
  let t := s.thr[tid]
  t.rt && (t.cyc.any fun n => decide (n ≤ cycles)) && !t.ovrDone && (decide (t.budget.toNat < cycles) || bit s.hlt.dlnInj tid.val)

/-- BUDGET_OVERRUN (R114, R132): `cycles` is the count, which holds besides what the model has counted the arbitration on shared data
(07_microcode.md R157), so it is never less. -/
def execBudgetOverrun (tid : Tid) (cycles : W32) (s : State) : Out :=
  .next (
    if !overruns s tid cycles.toNat then s
    else
      let t := s.thr[tid]
      let inj := bit s.hlt.dlnInj tid.val
      let s := s.modThr tid fun t => { t with dlnCnt := satInc t.dlnCnt, ovrDone := true, cyc := some cycles.toNat }
      let s := detEvent 0x08 (BitVec.ofNat 8 tid.val) 0 inj cycles { s with hlt := { s.hlt with dlnInj := setBit s.hlt.dlnInj tid.val false } }
      let s := pulse 202 (postB63 (sysRec s.nowEv 0x16 (BitVec.ofNat 8 tid.val) (t.slot.zeroExtend 16) cycles) s)
      if t.onOvr then stopThread 1 tid s else s)

/-- ENGINE_FAULT (17_health.md R389). -/
def execEngineFault (t : Instant) (e : EngineId) (pc : W32) (s : State) : Out :=
  event t (fun s => !s.eng[e].retired) (retireEngine e pc false) s

/-! ### Pages (R117, R119, R120) -/

/-- The frame into which a page of a program is being brought, by demand or by prefetch. -/
def comingIn (s : State) (p : ProgId) (page : BitVec 12) (pref : Bool) : Option (Fin 128) :=
  (idxs 128).find? fun i =>
    let f := s.frm[i]
    f.used && !f.valid && !f.repair && f.pref == pref && f.prog.toNat == p.val && f.page == page

/-- PAGE_FILL_COMPLETE (R117, R119): `words` as read from flash. -/
def execPageFillComplete (p : ProgId) (page : BitVec 12) (words : List W32) (s : State) : Out :=
  .next (match comingIn s p page false with | some i => fillDone i words s | none => s)

/-- PREFETCH_COMPLETE (R119, R120, 06_spillway.md R150). -/
def execPrefetchComplete (p : ProgId) (page : BitVec 12) (words : List W32) (s : State) : Out :=
  .next (match comingIn s p page true with | some i => fillDone i words s | none => s)

/-! ### Basins (R122 to R127) -/

/-- BASIN_POST (R124): a post that is not a thread's. -/
def execBasinPost (b : BasinId) (r : Rec) (s : State) : Out := .next (postBasin b r s)

/-- BASIN_AGE_EXPIRY (R126): the oldest unread record has waited AGE ms. -/
def execBasinAgeExpiry (t : Instant) (b : BasinId) (s : State) : Out :=
  event t (fun s => s.bas[b].open_ && s.bas[b].old s.tb.dt && !s.bas[b].aged)
    (fun s => thrEval b (s.modBas b fun k => { k with aged := true })) s

/-- RD_CNT_WRITE (R125). -/
def execRdCntWrite (b : BasinId) (v : W32) (s : State) : Out := .next (writeRdCnt b v s).1

/-! ### Timers (07_microcode.md R162, R111) -/

/-- The thread steps an axis: its match is AXIS_STEP_COUNTED (09_motion.md R225). -/
def stepsAxis (s : State) (tid : Tid) : Bool := (motionOf s tid).any fun h => s.har[h].mot.prog == .axis

/-- THREAD_TIMER_MATCH. The event of a commutation thread is what its program does (09_motion.md R219, R220). -/
def execThreadTimerMatch (t : Instant) (tid : Tid) (s : State) : Out :=
  event t (fun s => match s.thr[tid].timer with | some v => s.engClock && passed s.nowEv v && !stepsAxis s tid | none => false)
    (fun s =>
      let v := s.thr[tid].timer.getD 0
      let s := s.modThr tid fun k => { k with timer := none }
      match motionOf s tid with
      | some h => bridgeTimer h s
      | none => enqueue tid { kind := 5, src := 0, arg := 0, data := 0, time := v } s) s

/-! ### The spillway (06_spillway.md R142, R144, R145) -/

/-- The entry is the commutation entry of a bridge program: the harness (09_motion.md R220). -/
def commHarness (s : State) (e : SpwEnt) : Option HarnessId :=
  e.harness.bind fun h => (motionProg s h).bind fun p => if (firstTid s p).val = e.owner.toNat then some h else none

/-- The next confirmed entry to enter X78; entries of a migrating channel are held (R147). -/
def nextX78 (s : State) : Option (Fin 256) :=
  (s.spw.x78.map (bvFin 256 rfl)).find? fun i => !SpwEnt.migrating s s.spw.ent[i]

/-- An entry enters X78; a late commutation entry counts as an expiry (09_motion.md R220). -/
def commitEntry (i : Fin 256) (s : State) : State :=
  let e := s.spw.ent[i]
  let late := decide (leadOf s e < 64)
  let s1 := enterX78 i s
  match commHarness s e with
  | some h => if late then commutationMiss h s1 else s1
  | none => s1

/-- SPILLWAY_COMMIT (R142): X78 takes one entry per FAB cycle (R145). -/
def execSpillwayCommit (t : Instant) (s : State) : Out :=
  event t (fun s => s.engClock && !(s.spw.x78At.any fun a => sameCycle a s.now) && (nextX78 s).isSome)
    (fun s => match nextX78 s with | some i => commitEntry i s | none => s) s

/-- An unconfirmed entry whose expiry is passed is discarded (R144). -/
def expireEntry (i : Fin 256) (s : State) : State :=
  let e := s.spw.ent[i]
  let s1 := (dropEntries [i] s).modSpw fun k => { k with expired := satInc k.expired }
  match commHarness s e with
  | some h => commutationMiss h s1
  | none => s1

/-- SPILLWAY_EXPIRY (R144). -/
def execSpillwayExpiry (t : Instant) (i : Fin 256) (s : State) : Out :=
  event t (fun s => s.engClock && s.spw.ent[i].valid && !s.spw.ent[i].conf && passed s.nowEv s.spw.ent[i].expiry) (expireEntry i) s

end Sys2Proof.Machine
end

