-- ==== Sys2Proof/Machine/Dispatch.lean ====
section
/-! DEFINITION. The dispatch of a command to its meaning: one arm for each row of spec/opcode_table.json. -/

namespace Sys2Proof.Machine

/-- The effect of a command on everything but the queue (log entry 3). -/
def exec (i : Instr) (s : State) : Host.Outcome State Fault Refusal :=
  match i with
  | .spreadTakesEffect t => Sys2Proof.Machine.execSpreadTakesEffect t s
  | .tideErrorMeasurement t trc dtTicks => Sys2Proof.Machine.execTideErrorMeasurement t trc dtTicks s
  | .tidePairRefresh t tide => Sys2Proof.Machine.execTidePairRefresh t tide s
  | .tideCrystalStop t tide => Sys2Proof.Machine.execTideCrystalStop t tide s
  | .tideReturnToCrystal t tide => Sys2Proof.Machine.execTideReturnToCrystal t tide s
  | .trcFail t => Sys2Proof.Machine.execTrcFail t s
  | .tideAlarm t tide => Sys2Proof.Machine.execTideAlarm t tide s
  | .talarmWrite hi v => Sys2Proof.Machine.execTalarmWrite hi v s
  | .xtalFail t => Sys2Proof.Machine.execXtalFail t s
  | .pllRelocked t tide => Sys2Proof.Machine.execPllRelocked t tide s
  | .disciplineWindow t m => Sys2Proof.Machine.execDisciplineWindow t m s
  | .xtalRestore t => Sys2Proof.Machine.execXtalRestore t s
  | .pllUnlock t => Sys2Proof.Machine.execPllUnlock t s
  | .pllUnlockTimeout t => Sys2Proof.Machine.execPllUnlockTimeout t s
  | .epochZero => Sys2Proof.Machine.execEpochZero s
  | .sleepEntryBegin csnHigh => Sys2Proof.Machine.execSleepEntryBegin csnHigh s
  | .sleepTideLatch t tide => Sys2Proof.Machine.execSleepTideLatch t tide s
  | .wakeLatchSet which rise => Sys2Proof.Machine.execWakeLatchSet which rise s
  | .wakePllLock => Sys2Proof.Machine.execWakePllLock s
  | .wakeReseed tide => Sys2Proof.Machine.execWakeReseed tide s
  | .domainClocksRelease t => Sys2Proof.Machine.execDomainClocksRelease t s
  | .loWordLatchRead addr => Sys2Proof.Machine.execLoWordLatchRead addr s
  | .capHiRead u fall => Sys2Proof.Machine.execCapHiRead u fall s
  | .pwRead u => Sys2Proof.Machine.execPwRead u s
  | .rcFieldRead addr inc max => Sys2Proof.Machine.execRcFieldRead addr inc max s
  | .ratioRead p => Sys2Proof.Machine.execRatioRead p s
  | .registerWrite addr v hw => Sys2Proof.Machine.execRegisterWrite addr v hw s
  | .eventDispatch t x => Sys2Proof.Machine.execEventDispatch t x s
  | .linkWriteFrame => Sys2Proof.Machine.execLinkWriteFrame s
  | .linkFrameCrcFail t own => Sys2Proof.Machine.execLinkFrameCrcFail t own s
  | .faultFrame t h code member sense => Sys2Proof.Machine.execFaultFrame t h code member sense s
  | .ctrlWrite u v => Sys2Proof.Machine.execCtrlWrite u v s
  | .channelEnable t u v => Sys2Proof.Machine.execChannelEnable t u v s
  | .channelDisable u v => Sys2Proof.Machine.execChannelDisable u v s
  | .cmpLoWrite u which v => Sys2Proof.Machine.execCmpLoWrite u which v s
  | .cmpHiWrite u b v => Sys2Proof.Machine.execCmpHiWrite u b v s
  | .compareEffective t u b => Sys2Proof.Machine.execCompareEffective t u b s
  | .compareMatch t u b => Sys2Proof.Machine.execCompareMatch t u b s
  | .localMatch t u b down => Sys2Proof.Machine.execLocalMatch t u b down s
  | .periodBoundary t u => Sys2Proof.Machine.execPeriodBoundary t u s
  | .shadowWrite u which v => Sys2Proof.Machine.execShadowWrite u which v s
  | .disarmA u => Sys2Proof.Machine.execDisarmA u s
  | .disarmB u => Sys2Proof.Machine.execDisarmB u s
  | .forceHigh u => Sys2Proof.Machine.execForceHigh u s
  | .forceLow u => Sys2Proof.Machine.execForceLow u s
  | .forceSafe u => Sys2Proof.Machine.execForceSafe u s
  | .inputEdge t u level z => Sys2Proof.Machine.execInputEdge t u level z s
  | .filterAccept t u => Sys2Proof.Machine.execFilterAccept t u s
  | .engineDoze e => Sys2Proof.Machine.execEngineDoze e s
  | .budgetOverrun tid cycles => Sys2Proof.Machine.execBudgetOverrun tid cycles s
  | .pageFillComplete p page words => Sys2Proof.Machine.execPageFillComplete p page words s
  | .prefetchComplete p page words => Sys2Proof.Machine.execPrefetchComplete p page words s
  | .basinPost b r => Sys2Proof.Machine.execBasinPost b r s
  | .basinAgeExpiry t b => Sys2Proof.Machine.execBasinAgeExpiry t b s
  | .rdCntWrite b v => Sys2Proof.Machine.execRdCntWrite b v s
  | .threadTimerMatch t tid => Sys2Proof.Machine.execThreadTimerMatch t tid s
  | .engineFault t e pc => Sys2Proof.Machine.execEngineFault t e pc s
  | .spillwayCommit t => Sys2Proof.Machine.execSpillwayCommit t s
  | .spillwayExpiry t idx => Sys2Proof.Machine.execSpillwayExpiry t idx s
  | .add tid o => Sys2Proof.Machine.execAdd tid o s
  | .sub tid o => Sys2Proof.Machine.execSub tid o s
  | .and tid o => Sys2Proof.Machine.execAnd tid o s
  | .or tid o => Sys2Proof.Machine.execOr tid o s
  | .xor tid o => Sys2Proof.Machine.execXor tid o s
  | .shl tid o => Sys2Proof.Machine.execShl tid o s
  | .shr tid o => Sys2Proof.Machine.execShr tid o s
  | .sar tid o => Sys2Proof.Machine.execSar tid o s
  | .min tid o => Sys2Proof.Machine.execMin tid o s
  | .max tid o => Sys2Proof.Machine.execMax tid o s
  | .cmp tid o => Sys2Proof.Machine.execCmp tid o s
  | .tadd tid o => Sys2Proof.Machine.execTadd tid o s
  | .tsub tid o => Sys2Proof.Machine.execTsub tid o s
  | .mul tid o => Sys2Proof.Machine.execMul tid o s
  | .divu tid o => Sys2Proof.Machine.execDivu tid o s
  | .remu tid o => Sys2Proof.Machine.execRemu tid o s
  | .addi tid o => Sys2Proof.Machine.execAddi tid o s
  | .andi tid o => Sys2Proof.Machine.execAndi tid o s
  | .ori tid o => Sys2Proof.Machine.execOri tid o s
  | .xori tid o => Sys2Proof.Machine.execXori tid o s
  | .shli tid o => Sys2Proof.Machine.execShli tid o s
  | .shri tid o => Sys2Proof.Machine.execShri tid o s
  | .sari tid o => Sys2Proof.Machine.execSari tid o s
  | .cmpi tid o => Sys2Proof.Machine.execCmpi tid o s
  | .movi tid o => Sys2Proof.Machine.execMovi tid o s
  | .ldw tid o => Sys2Proof.Machine.execLdw tid o s
  | .ldd tid o => Sys2Proof.Machine.execLdd tid o s
  | .stw tid o => Sys2Proof.Machine.execStw tid o s
  | .std tid o => Sys2Proof.Machine.execStd tid o s
  | .fadd tid o => Sys2Proof.Machine.execFadd tid o s
  | .swap tid o => Sys2Proof.Machine.execSwap tid o s
  | .bcond tid o => Sys2Proof.Machine.execBcond tid o s
  | .call tid o => Sys2Proof.Machine.execCall tid o s
  | .jr tid o => Sys2Proof.Machine.execJr tid o s
  | .wait tid o => Sys2Proof.Machine.execWait tid o s
  | .lsn tid o => Sys2Proof.Machine.execLsn tid o s
  | .ulsn tid o => Sys2Proof.Machine.execUlsn tid o s
  | .timer tid o => Sys2Proof.Machine.execTimer tid o s
  | .timerx tid o => Sys2Proof.Machine.execTimerx tid o s
  | .now tid o => Sys2Proof.Machine.execNow tid o s
  | .sig tid o => Sys2Proof.Machine.execSig tid o s
  | .dbf tid o => Sys2Proof.Machine.execDbf tid o s
  | .attn tid o => Sys2Proof.Machine.execAttn tid o s
  | .mfs tid o => Sys2Proof.Machine.execMfs tid o s
  | .trap tid o => Sys2Proof.Machine.execTrap tid o s
  | .carm tid o => Sys2Proof.Machine.execCarm tid o s
  | .cshd tid o => Sys2Proof.Machine.execCshd tid o s
  | .cdis tid o => Sys2Proof.Machine.execCdis tid o s
  | .cfrc tid o => Sys2Proof.Machine.execCfrc tid o s
  | .clock tid o => Sys2Proof.Machine.execClock tid o s
  | .ccap tid o => Sys2Proof.Machine.execCcap tid o s
  | .hact tid o => Sys2Proof.Machine.execHact tid o s
  | .bpost tid o => Sys2Proof.Machine.execBpost tid o s
  | .bread tid o => Sys2Proof.Machine.execBread tid o s
  | .back tid o => Sys2Proof.Machine.execBack tid o s
  | .spw tid o => Sys2Proof.Machine.execSpw tid o s
  | .spc tid o => Sys2Proof.Machine.execSpc tid o s
  | .spx tid o => Sys2Proof.Machine.execSpx tid o s
  | .aconv tid o => Sys2Proof.Machine.execAconv tid o s
  | .tper tid o => Sys2Proof.Machine.execTper tid o s
  | .tlast tid o => Sys2Proof.Machine.execTlast tid o s
  | .harnessCommit h => Sys2Proof.Machine.execHarnessCommit h s
  | .harnessSafe h => Sys2Proof.Machine.execHarnessSafe h s
  | .harnessResume h => Sys2Proof.Machine.execHarnessResume h s
  | .harnessPhase h phases => Sys2Proof.Machine.execHarnessPhase h phases s
  | .harnessLevels h levels => Sys2Proof.Machine.execHarnessLevels h levels s
  | .timedActionApply t h => Sys2Proof.Machine.execTimedActionApply t h s
  | .peakEnd t h m sense => Sys2Proof.Machine.execPeakEnd t h m sense s
  | .peakTimeout t h m sense => Sys2Proof.Machine.execPeakTimeout t h m sense s
  | .holdSwitchOff t h m sense => Sys2Proof.Machine.execHoldSwitchOff t h m sense s
  | .holdSwitchOn t h m sense => Sys2Proof.Machine.execHoldSwitchOn t h m sense s
  | .regulationHandover t h => Sys2Proof.Machine.execRegulationHandover t h s
  | .deferCancel t h m => Sys2Proof.Machine.execDeferCancel t h m s
  | .bankDeferReport h m start cycles => Sys2Proof.Machine.execBankDeferReport h m start cycles s
  | .deadtimeEnd t h phase => Sys2Proof.Machine.execDeadtimeEnd t h phase s
  | .powerFaultCut t h code member sense mv => Sys2Proof.Machine.execPowerFaultCut t h code member sense mv s
  | .linkSilence => Sys2Proof.Machine.execLinkSilence s
  | .chargePumpReady t => Sys2Proof.Machine.execChargePumpReady t s
  | .chargePumpTimeout t mv => Sys2Proof.Machine.execChargePumpTimeout t mv s
  | .cpUndervoltage t => Sys2Proof.Machine.execCpUndervoltage t s
  | .catchWindowEnd t h => Sys2Proof.Machine.execCatchWindowEnd t h s
  | .alignEnd t h => Sys2Proof.Machine.execAlignEnd t h s
  | .noSyncTimeout t h => Sys2Proof.Machine.execNoSyncTimeout t h s
  | .commutationBlankingEnd t h => Sys2Proof.Machine.execCommutationBlankingEnd t h s
  | .brakePeek t h => Sys2Proof.Machine.execBrakePeek t h s
  | .brakeTimeout t h => Sys2Proof.Machine.execBrakeTimeout t h s
  | .axisStepCounted t h => Sys2Proof.Machine.execAxisStepCounted t h s
  | .gaitEdge n => Sys2Proof.Machine.execGaitEdge n s
  | .gaitDeadline t n => Sys2Proof.Machine.execGaitDeadline t n s
  | .gaitStall t n => Sys2Proof.Machine.execGaitStall t n s
  | .probeStart c => Sys2Proof.Machine.execProbeStart c s
  | .chargeDone t c => Sys2Proof.Machine.execChargeDone t c s
  | .dischargeTrip t c => Sys2Proof.Machine.execDischargeTrip t c s
  | .dischargeTimeout t c => Sys2Proof.Machine.execDischargeTimeout t c s
  | .probeSlotComplete p => Sys2Proof.Machine.execProbeSlotComplete p s
  | .measIntervalBoundary t => Sys2Proof.Machine.execMeasIntervalBoundary t s
  | .decommissionErase => Sys2Proof.Machine.execDecommissionErase s
  | .statusFrame sdi bad => Sys2Proof.Machine.execStatusFrame sdi bad s
  | .statusPeek sdi => Sys2Proof.Machine.execStatusPeek sdi s
  | .readFrame sdi bad => Sys2Proof.Machine.execReadFrame sdi bad s
  | .writeFrame sdi bad => Sys2Proof.Machine.execWriteFrame sdi bad s
  | .writeApply => Sys2Proof.Machine.execWriteApply s
  | .claimFrame sdi bad => Sys2Proof.Machine.execClaimFrame sdi bad s
  | .completeFrame sdi bad => Sys2Proof.Machine.execCompleteFrame sdi bad s
  | .doorbellFrame sdi bad => Sys2Proof.Machine.execDoorbellFrame sdi bad s
  | .replyRelease mask => Sys2Proof.Machine.execReplyRelease mask s
  | .farrierTakeRequest => Sys2Proof.Machine.execFarrierTakeRequest s
  | .hostWatchdogExpiry t => Sys2Proof.Machine.execHostWatchdogExpiry t s
  | .hwdToWrite v => Sys2Proof.Machine.execHwdToWrite v s
  | .hostLostClear => Sys2Proof.Machine.execHostLostClear s
  | .muster t => Sys2Proof.Machine.execMuster t s
  | .nop q => Sys2Proof.Machine.execNop q s
  | .identity q => Sys2Proof.Machine.execIdentity q s
  | .state q => Sys2Proof.Machine.execState q s
  | .sleep q st flags mask park => Sys2Proof.Machine.execSleep q st flags mask park s
  | .reset q word => Sys2Proof.Machine.execReset q word s
  | .resetReplyTimeout t => Sys2Proof.Machine.execResetReplyTimeout t s
  | .causeClear q bits => Sys2Proof.Machine.execCauseClear q bits s
  | .progMsg q max => Sys2Proof.Machine.execProgMsg q max s
  | .timeGet q => Sys2Proof.Machine.execTimeGet q s
  | .spread q setting => Sys2Proof.Machine.execSpread q setting s
  | .anchor q secs ms source reserved unc => Sys2Proof.Machine.execAnchor q secs ms source reserved unc s
  | .drift q source reserved ppm => Sys2Proof.Machine.execDrift q source reserved ppm s
  | .newEpoch q word => Sys2Proof.Machine.execNewEpoch q word s
  | .chOpen q lch reserved ctrl act prd cnt => Sys2Proof.Machine.execChOpen q lch reserved ctrl act prd cnt s
  | .chClose q lch => Sys2Proof.Machine.execChClose q lch s
  | .chCfg q lch reserved ctrl act => Sys2Proof.Machine.execChCfg q lch reserved ctrl act s
  | .chWrite q lch reg flags reserved value => Sys2Proof.Machine.execChWrite q lch reg flags reserved value s
  | .chCtl q lch op => Sys2Proof.Machine.execChCtl q lch op s
  | .chRead q lch flags => Sys2Proof.Machine.execChRead q lch flags s
  | .tioSet q pin outSel flags => Sys2Proof.Machine.execTioSet q pin outSel flags s
  | .hOpen q h kind hsd reserved mch grp mls => Sys2Proof.Machine.execHOpen q h kind hsd reserved mch grp mls s
  | .hClose q h => Sys2Proof.Machine.execHClose q h s
  | .hCfg q h sec reserved w0 w1 w2 => Sys2Proof.Machine.execHCfg q h sec reserved w0 w1 w2 s
  | .hAct q h reserved word => Sys2Proof.Machine.execHAct q h reserved word s
  | .hStatus q h => Sys2Proof.Machine.execHStatus q h s
  | .hClear q h reserved mask => Sys2Proof.Machine.execHClear q h reserved mask s
  | .hRide q h v => Sys2Proof.Machine.execHRide q h v s
  | .progUpload q off data => Sys2Proof.Machine.execProgUpload q off data s
  | .progOpen q source res1 off chMask hMask res2 bMask => Sys2Proof.Machine.execProgOpen q source res1 off chMask hMask res2 bMask s
  | .progClose q p => Sys2Proof.Machine.execProgClose q p s
  | .progDoorbell q p idx reserved word => Sys2Proof.Machine.execProgDoorbell q p idx reserved word s
  | .threadInfo q tid => Sys2Proof.Machine.execThreadInfo q tid s
  | .headroom q v => Sys2Proof.Machine.execHeadroom q v s
  | .sdWrite q p reserved off data => Sys2Proof.Machine.execSdWrite q p reserved off data s
  | .sdRead q p reserved off len => Sys2Proof.Machine.execSdRead q p reserved off len s
  | .gtOpen q n reserved words => Sys2Proof.Machine.execGtOpen q n reserved words s
  | .gtTune q n flags missMax reserved noise tol => Sys2Proof.Machine.execGtTune q n flags missMax reserved noise tol s
  | .gtClose q n => Sys2Proof.Machine.execGtClose q n s
  | .gtStatus q n => Sys2Proof.Machine.execGtStatus q n s
  | .motOpen q h p => Sys2Proof.Machine.execMotOpen q h p s
  | .motParam q h id reserved v => Sys2Proof.Machine.execMotParam q h id reserved v s
  | .motStart q h => Sys2Proof.Machine.execMotStart q h s
  | .motStop q h mode => Sys2Proof.Machine.execMotStop q h mode s
  | .axisMove q h reserved target => Sys2Proof.Machine.execAxisMove q h reserved target s
  | .axisHome q h reserved pos => Sys2Proof.Machine.execAxisHome q h reserved pos s
  | .motStatus q h => Sys2Proof.Machine.execMotStatus q h s
  | .prbSched q measInt c0 c1 topen tshort => Sys2Proof.Machine.execPrbSched q measInt c0 c1 topen tshort s
  | .prbCoef q p reserved a b c3 off => Sys2Proof.Machine.execPrbCoef q p reserved a b c3 off s
  | .prbRead q p => Sys2Proof.Machine.execPrbRead q p s
  | .prbStop q => Sys2Proof.Machine.execPrbStop q s
  | .recRead q flags count epoch seq => Sys2Proof.Machine.execRecRead q flags count epoch seq s
  | .recAck q epoch reserved seq => Sys2Proof.Machine.execRecAck q epoch reserved seq s
  | .recEvent q kind source flags value => Sys2Proof.Machine.execRecEvent q kind source flags value s
  | .recProvision q key => Sys2Proof.Machine.execRecProvision q key s
  | .recDecommission q word => Sys2Proof.Machine.execRecDecommission q word s
  | .recStatus q => Sys2Proof.Machine.execRecStatus q s
  | .bOpen q b floor ceil policy thresh age reserved => Sys2Proof.Machine.execBOpen q b floor ceil policy thresh age reserved s
  | .bClose q b => Sys2Proof.Machine.execBClose q b s
  | .bSet q b reserved thresh age ceil => Sys2Proof.Machine.execBSet q b reserved thresh age ceil s
  | .healthSum q => Sys2Proof.Machine.execHealthSum q s
  | .healthDet q cls idx => Sys2Proof.Machine.execHealthDet q cls idx s
  | .injOpen1 q word => Sys2Proof.Machine.execInjOpen1 q word s
  | .injOpen2 q word => Sys2Proof.Machine.execInjOpen2 q word s
  | .injFire q cls idx reserved par => Sys2Proof.Machine.execInjFire q cls idx reserved par s
  | .injClose q => Sys2Proof.Machine.execInjClose q s
  | .calRead q off len => Sys2Proof.Machine.execCalRead q off len s
  | .calWrite q off len res1 word res2 data => Sys2Proof.Machine.execCalWrite q off len res1 word res2 data s
  | .calProc q proc => Sys2Proof.Machine.execCalProc q proc s
  | .calProcDone m0 m1 m2 m3 => Sys2Proof.Machine.execCalProcDone m0 m1 m2 m3 s
  | .tagRead q lch => Sys2Proof.Machine.execTagRead q lch s
  | .tagWrite q lch sec reserved data => Sys2Proof.Machine.execTagWrite q lch sec reserved data s
  | .patchData q off data => Sys2Proof.Machine.execPatchData q off data s
  | .patchRun q => Sys2Proof.Machine.execPatchRun q s
  | .bootContinue q => Sys2Proof.Machine.execBootContinue q s
  | .claimFRead eligAtRef => Sys2Proof.Machine.execClaimFRead eligAtRef s
  | .completeFWrite id => Sys2Proof.Machine.execCompleteFWrite id s
  | .poReset => Sys2Proof.Machine.execPoReset s
  | .boReset => Sys2Proof.Machine.execBoReset s
  | .pinReset widthNs => Sys2Proof.Machine.execPinReset widthNs s
  | .wdgReset t => Sys2Proof.Machine.execWdgReset t s
  | .wdgWarning t => Sys2Proof.Machine.execWdgWarning t s
  | .wdtService v => Sys2Proof.Machine.execWdtService v s
  | .clkReset => Sys2Proof.Machine.execClkReset s
  | .lockReset => Sys2Proof.Machine.execLockReset s
  | .swrstWrite v => Sys2Proof.Machine.execSwrstWrite v s
  | .resetRelease t tide xtalOk parity => Sys2Proof.Machine.execResetRelease t tide xtalOk parity s
  | .vbatLoss => Sys2Proof.Machine.execVbatLoss s
  | .vbatReturn => Sys2Proof.Machine.execVbatReturn s
  | .reservoirLoss => Sys2Proof.Machine.execReservoirLoss s
  | .sramScrub retained errs => Sys2Proof.Machine.execSramScrub retained errs s
  | .frameRepairDone f words => Sys2Proof.Machine.execFrameRepairDone f words s
  | .monitorSample t m => Sys2Proof.Machine.execMonitorSample t m s
  | .unitFailure t u chk => Sys2Proof.Machine.execUnitFailure t u chk s
  | .migrationResume t l => Sys2Proof.Machine.execMigrationResume t l s
  | .tapsMeasure t idx taps => Sys2Proof.Machine.execTapsMeasure t idx taps s
  | .unitInjWrite u v => Sys2Proof.Machine.execUnitInjWrite u v s
  | .tapReset => Sys2Proof.Machine.execTapReset s
  | .extest => Sys2Proof.Machine.execExtest s
  | .idcode => Sys2Proof.Machine.execIdcode s
  | .samplePreload v => Sys2Proof.Machine.execSamplePreload v s
  | .clamp => Sys2Proof.Machine.execClamp s
  | .highz => Sys2Proof.Machine.execHighz s
  | .bypass => Sys2Proof.Machine.execBypass s
  | .dbgReg v => Sys2Proof.Machine.execDbgReg v s
  | .dbgMem v => Sys2Proof.Machine.execDbgMem v s
  | .dbgMemDone => Sys2Proof.Machine.execDbgMemDone s
  | .fuse v => Sys2Proof.Machine.execFuse v s
  | .fuseBlowDone => Sys2Proof.Machine.execFuseBlowDone s
  | .haltF => Sys2Proof.Machine.execHaltF s
  | .resumeF => Sys2Proof.Machine.execResumeF s
  | .stepF => Sys2Proof.Machine.execStepF s
  | .dbgrst => Sys2Proof.Machine.execDbgrst s
  | .walkEnter t tide => Sys2Proof.Machine.execWalkEnter t tide s
  | .walkExit => Sys2Proof.Machine.execWalkExit s
  | .haltEng e => Sys2Proof.Machine.execHaltEng e s
  | .resumeEng e => Sys2Proof.Machine.execResumeEng e s
  | .haltT tid => Sys2Proof.Machine.execHaltT tid s
  | .resumeT tid => Sys2Proof.Machine.execResumeT tid s
  | .stepT tid => Sys2Proof.Machine.execStepT tid s
  | .coarseTideEdge pads padZ => Sys2Proof.Machine.execCoarseTideEdge pads padZ s
  | .unitRegisterEccCorrection t u => Sys2Proof.Machine.execUnitRegisterEccCorrection t u s
  | .correctedErrorWindowEnd t => Sys2Proof.Machine.execCorrectedErrorWindowEnd t s

end Sys2Proof.Machine
end

