-- ==== Sys2Proof/WellFormed.lean ====
section
/-! DEFINITION. Well-formed commands: what no type of an operand says. A page is 128 words (05_ostler.md R115, R119), a payload
has at most 248 bytes (14_farrier_commands.md R305), a record key 32 (12_sealed_record.md R278), and where two engine
instructions share an OP, SUB tells which it is (07_microcode.md R185). -/

namespace Sys2Proof

/-- A page of an image, as a fill brings it. -/
def wfPage (words : List W32) : Bool := words.length == 128

/-- The variable bytes of a request that carries `fixed` bytes besides. -/
def wfPayload (fixed : Nat) (data : List Byte) : Bool := decide (fixed + data.length ≤ 248)

/-- A command is well formed. -/
def Instr.wf (i : Instr) : Bool :=
  groomSubOk i &&
  match i with
  | .pageFillComplete _ _ words => wfPage words
  | .prefetchComplete _ _ words => wfPage words
  | .frameRepairDone _ words => wfPage words
  | .progUpload _ _ data => wfPayload 4 data
  | .sdWrite _ _ _ _ data => wfPayload 4 data
  | .calWrite _ _ _ _ _ _ data => wfPayload 8 data
  | .tagWrite _ _ _ _ data => wfPayload 4 data
  | .patchData _ _ data => wfPayload 4 data
  | .recProvision _ key => key.length == 32
  | _ => true

end Sys2Proof
end

