-- ==== Sys2Proof/Safety.lean ====
section
/-! DEFINITION. What counts as a safe run: no step refuses, a step faults only at an address that names no register, and the
addressed memories stand in their canonical form. -/

namespace Sys2Proof

open Sys2Proof.Machine

/-- The state an outcome goes on in. -/
def outNext (o : Host.Outcome State Fault Refusal) : Option State :=
  match o with
  | .next s => some s
  | .fault _ => none
  | .refused _ => none

/-- Every addressed memory of a state, in its canonical form (log entry 5). -/
def State.memWf (s : Machine.State) : Bool :=
  Memory.wf s.bmem && Memory.wf s.nv.cal && Memory.wf s.nv.tags && Memory.wf s.host.mb && Memory.wf s.far.staging &&
  Memory.wf s.far.patchBuf && Memory.wf s.far.ram && Memory.wf s.far.flash &&
  s.thr.all (fun (t : Thread) => Memory.wf t.ctx.tlm) && s.prog.all (fun (p : Prog) => Memory.wf p.sd)

/-- A step is safe: it goes on, or stops at an address that the register map does not hold. -/
def safeOutcome (o : Host.Outcome State Fault Refusal) : Prop :=
  (∃ t, o = .next t) ∨ ∃ a, o = .fault (.noRegister a)

/-- A run of `k` steps is safe. -/
def safeRun : Nat → Machine.State → Prop
  | 0, _ => True
  | k + 1, s => safeOutcome (step s) ∧ ∀ t, step s = .next t → safeRun k t

end Sys2Proof
end

