-- ==== Sys2Proof/Claims.lean ====
section
/-! DEFINITION. A command goes on to a state with a property; the parts of a state, and the parts each command may change. -/

namespace Sys2Proof.Claims

open Sys2Proof Sys2Proof.Machine

/-- A command answers a next state, which has the property `P`. -/
def Goes (c : Instr) (s : State) (P : State → Prop) : Prop := ∃ t, exec c s = .next t ∧ P t

/-! ### The parts of a state, and the parts each command may change -/

/-- The parts of a state: its fields. -/
inductive Part where
  | tb
  | rsv
  | nv
  | fsh
  | cal
  | units
  | tio
  | pad
  | padZ
  | psn
  | xing
  | arm
  | link
  | har
  | thr
  | eng
  | prog
  | frm
  | bas
  | bmem
  | lmap
  | ost
  | spw
  | gt
  | conv
  | prb
  | ps
  | rcd
  | host
  | irq
  | far
  | hlt
  | pwr
  | dbg
  | pending
deriving DecidableEq, Repr

/-- A part is the same in two states. -/
def Part.same (p : Part) (s t : State) : Prop :=
  match p with
  | .tb => t.tb = s.tb
  | .rsv => t.rsv = s.rsv
  | .nv => t.nv = s.nv
  | .fsh => t.fsh = s.fsh
  | .cal => t.cal = s.cal
  | .units => t.units = s.units
  | .tio => t.tio = s.tio
  | .pad => t.pad = s.pad
  | .padZ => t.padZ = s.padZ
  | .psn => t.psn = s.psn
  | .xing => t.xing = s.xing
  | .arm => t.arm = s.arm
  | .link => t.link = s.link
  | .har => t.har = s.har
  | .thr => t.thr = s.thr
  | .eng => t.eng = s.eng
  | .prog => t.prog = s.prog
  | .frm => t.frm = s.frm
  | .bas => t.bas = s.bas
  | .bmem => t.bmem = s.bmem
  | .lmap => t.lmap = s.lmap
  | .ost => t.ost = s.ost
  | .spw => t.spw = s.spw
  | .gt => t.gt = s.gt
  | .conv => t.conv = s.conv
  | .prb => t.prb = s.prb
  | .ps => t.ps = s.ps
  | .rcd => t.rcd = s.rcd
  | .host => t.host = s.host
  | .irq => t.irq = s.irq
  | .far => t.far = s.far
  | .hlt => t.hlt = s.hlt
  | .pwr => t.pwr = s.pwr
  | .dbg => t.dbg = s.dbg
  | .pending => t.pending = s.pending

/-- Outside the parts listed, two states are equal. -/
def Within (ps : List Part) (s t : State) : Prop := ∀ p, p ∉ ps → p.same s t

/-- What a report to basin B63, and the interrupt it may raise, touches: the basins, the Ostler, the Farrier's queues, the health counts and
the interrupt sources. -/
def evParts : List Part := [.bas, .bmem, .far, .hlt, .irq, .ost]

/-- What the Farrier touches to reply to a request. -/
def replyParts : List Part := evParts ++ [.host]

/-- What a change at a channel output or a harness touches through the gate of its harness. -/
def gateParts : List Part := evParts ++ [.har, .link, .units]

/-- The same for a request. -/
def reqGateParts : List Part := evParts ++ [.host, .har, .link, .units]

/-- What a reset of the block clears: all but the NV block, the calibration in use and the pads. -/
def resetParts : List Part :=
  [.tb, .rsv, .fsh, .units, .tio, .xing, .arm, .link, .har, .thr, .eng, .prog, .frm, .bas, .bmem, .lmap, .ost, .spw,
   .gt, .conv, .prb, .ps, .rcd, .host, .irq, .far, .hlt, .pwr, .dbg]

/-- The parts of the state that a command may change. Where a retained memory is read an uncorrectable error may end in a
reset (17_health.md R382, R392), so commands that read one may change what a reset clears. -/
def parts : Instr → List Part
  | .spreadTakesEffect _ => [.tb]
  | .tideErrorMeasurement _ _ _ => gateParts ++ [.tb, .rsv, .nv, .xing, .prb, .ps, .rcd, .pwr]
  | .tidePairRefresh _ _ => gateParts ++ [.tb, .rsv, .xing, .ps, .rcd, .pwr]
  | .tideCrystalStop _ _ => gateParts ++ [.tb, .rsv, .nv, .xing, .prb, .ps, .rcd, .pwr]
  | .tideReturnToCrystal _ _ => gateParts ++ [.tb, .rsv, .nv, .xing, .prb, .ps, .rcd, .pwr]
  | .trcFail _ => [.tb, .rsv]
  | .tideAlarm _ _ => gateParts ++ [.tb, .rsv, .xing, .ps, .pwr]
  | .talarmWrite _ _ => [.rsv, .ps, .irq, .far, .pwr]
  | .xtalFail _ => resetParts
  | .pllRelocked _ _ => gateParts ++ [.tb, .rsv, .nv, .xing, .prb, .ps, .rcd, .pwr]
  | .disciplineWindow _ _ => [.tb]
  | .xtalRestore _ => [.tb, .nv, .prb, .ps, .rcd, .irq, .hlt]
  | .pllUnlock _ => resetParts
  | .pllUnlockTimeout _ => resetParts
  | .epochZero => [.tb, .rsv, .nv, .units, .arm, .link, .har, .bas, .ost, .spw, .gt, .conv, .prb, .ps, .rcd, .host, .irq, .far, .hlt, .dbg]
  | .sleepEntryBegin _ => [.rsv, .pwr]
  | .sleepTideLatch _ _ => resetParts
  | .wakeLatchSet _ _ => [.rsv, .ps, .irq, .far, .pwr]
  | .wakePllLock => [.tb, .pwr]
  | .wakeReseed _ => gateParts ++ [.tb, .rsv, .nv, .xing, .prb, .ps, .rcd, .pwr]
  | .domainClocksRelease _ => replyParts ++ [.tb, .rsv, .nv, .xing, .eng, .conv, .prb, .ps, .rcd, .pwr, .dbg]
  | .loWordLatchRead _ => resetParts
  | .capHiRead _ _ => [.units]
  | .pwRead _ => [.units]
  | .rcFieldRead _ _ _ => resetParts
  | .ratioRead _ => [.prb]
  | .registerWrite _ _ _ => resetParts
  | .eventDispatch _ _ => reqGateParts ++ [.tb, .xing, .thr, .eng, .lmap, .spw, .gt]
  | .linkWriteFrame => [.link, .har, .host]
  | .linkFrameCrcFail _ _ => reqGateParts ++ [.tb, .xing]
  | .faultFrame _ _ _ _ _ => reqGateParts ++ [.tb, .xing]
  | .ctrlWrite _ _ => [.units]
  | .channelEnable _ _ _ => [.tb, .units]
  | .channelDisable _ _ => [.units]
  | .cmpLoWrite _ _ _ => [.units]
  | .cmpHiWrite _ _ _ => [.units]
  | .compareEffective _ _ _ => gateParts ++ [.tb, .xing]
  | .compareMatch _ _ _ => gateParts ++ [.tb, .xing]
  | .localMatch _ _ _ _ => gateParts ++ [.tb, .xing]
  | .periodBoundary _ _ => gateParts ++ [.tb, .xing]
  | .shadowWrite _ _ _ => [.units]
  | .disarmA _ => [.units]
  | .disarmB _ => [.units]
  | .forceHigh _ => gateParts ++ [.xing]
  | .forceLow _ => gateParts ++ [.xing]
  | .forceSafe _ => gateParts ++ [.xing]
  | .inputEdge _ _ _ _ => evParts ++ [.tb, .units, .pad, .padZ, .psn, .xing]
  | .filterAccept _ _ => evParts ++ [.tb, .units, .xing]
  | .engineDoze _ => [.eng]
  | .budgetOverrun _ _ => evParts ++ [.thr, .spw]
  | .pageFillComplete _ _ _ => evParts ++ [.thr, .frm, .spw]
  | .prefetchComplete _ _ _ => evParts ++ [.thr, .frm, .spw]
  | .basinPost _ _ => evParts ++ [.thr, .eng]
  | .basinAgeExpiry _ _ => evParts ++ [.tb, .thr, .eng]
  | .rdCntWrite _ _ => evParts ++ [.thr, .eng]
  | .threadTimerMatch _ _ => gateParts ++ [.tb, .xing, .thr, .eng, .lmap]
  | .engineFault _ _ _ => evParts ++ [.tb, .rsv, .thr, .eng, .frm, .spw]
  | .spillwayCommit _ => gateParts ++ [.tb, .xing, .arm, .thr, .lmap, .spw]
  | .spillwayExpiry _ _ => gateParts ++ [.tb, .xing, .thr, .lmap, .spw]
  | .add _ _ => resetParts
  | .sub _ _ => resetParts
  | .and _ _ => resetParts
  | .or _ _ => resetParts
  | .xor _ _ => resetParts
  | .shl _ _ => resetParts
  | .shr _ _ => resetParts
  | .sar _ _ => resetParts
  | .min _ _ => resetParts
  | .max _ _ => resetParts
  | .cmp _ _ => resetParts
  | .tadd _ _ => resetParts
  | .tsub _ _ => resetParts
  | .mul _ _ => resetParts
  | .divu _ _ => resetParts
  | .remu _ _ => resetParts
  | .addi _ _ => resetParts
  | .andi _ _ => resetParts
  | .ori _ _ => resetParts
  | .xori _ _ => resetParts
  | .shli _ _ => resetParts
  | .shri _ _ => resetParts
  | .sari _ _ => resetParts
  | .cmpi _ _ => resetParts
  | .movi _ _ => resetParts
  | .ldw _ _ => resetParts
  | .ldd _ _ => resetParts
  | .stw _ _ => resetParts
  | .std _ _ => resetParts
  | .fadd _ _ => resetParts
  | .swap _ _ => resetParts
  | .bcond _ _ => resetParts
  | .call _ _ => resetParts
  | .jr _ _ => resetParts
  | .wait _ _ => resetParts
  | .lsn _ _ => resetParts
  | .ulsn _ _ => resetParts
  | .timer _ _ => resetParts
  | .timerx _ _ => resetParts
  | .now _ _ => resetParts
  | .sig _ _ => resetParts
  | .dbf _ _ => resetParts
  | .attn _ _ => resetParts
  | .mfs _ _ => resetParts
  | .trap _ _ => resetParts
  | .carm _ _ => resetParts
  | .cshd _ _ => resetParts
  | .cdis _ _ => resetParts
  | .cfrc _ _ => resetParts
  | .clock _ _ => resetParts
  | .ccap _ _ => resetParts
  | .hact _ _ => resetParts
  | .bpost _ _ => resetParts
  | .bread _ _ => resetParts
  | .back _ _ => resetParts
  | .spw _ _ => resetParts
  | .spc _ _ => resetParts
  | .spx _ _ => resetParts
  | .aconv _ _ => resetParts
  | .tper _ _ => resetParts
  | .tlast _ _ => resetParts
  | .harnessCommit _ => gateParts ++ [.xing]
  | .harnessSafe _ => gateParts ++ [.xing]
  | .harnessResume _ => gateParts ++ [.xing]
  | .harnessPhase _ _ => gateParts ++ [.xing]
  | .harnessLevels _ _ => gateParts ++ [.xing]
  | .timedActionApply _ _ => gateParts ++ [.tb, .xing, .lmap]
  | .peakEnd _ _ _ _ => [.tb, .units, .link, .har]
  | .peakTimeout _ _ _ _ => reqGateParts ++ [.tb, .xing]
  | .holdSwitchOff _ _ _ _ => [.tb, .units, .link, .har]
  | .holdSwitchOn _ _ _ _ => [.tb, .units, .link, .har]
  | .regulationHandover _ _ => [.tb, .units, .link, .har]
  | .deferCancel _ _ _ => evParts ++ [.tb, .har]
  | .bankDeferReport _ _ _ _ => evParts ++ [.har]
  | .deadtimeEnd _ _ _ => [.tb, .link]
  | .powerFaultCut _ _ _ _ _ _ => [.tb, .link, .har]
  | .linkSilence => [.link, .har]
  | .chargePumpReady _ => reqGateParts ++ [.tb, .xing]
  | .chargePumpTimeout _ _ => replyParts ++ [.tb, .link]
  | .cpUndervoltage _ => reqGateParts ++ [.tb, .xing]
  | .catchWindowEnd _ _ => gateParts ++ [.tb, .xing, .thr, .lmap]
  | .alignEnd _ _ => gateParts ++ [.tb, .xing, .thr, .lmap]
  | .noSyncTimeout _ _ => reqGateParts ++ [.tb, .thr]
  | .commutationBlankingEnd _ _ => [.tb, .har, .thr, .spw, .hlt]
  | .brakePeek _ _ => gateParts ++ [.tb, .xing, .thr, .lmap]
  | .brakeTimeout _ _ => reqGateParts ++ [.tb, .thr]
  | .axisStepCounted _ _ => gateParts ++ [.tb, .xing, .thr, .lmap]
  | .gaitEdge _ => gateParts ++ [.rsv, .xing, .thr, .eng, .spw, .gt]
  | .gaitDeadline _ _ => gateParts ++ [.tb, .xing, .thr, .eng, .spw, .gt]
  | .gaitStall _ _ => evParts ++ [.tb, .rsv, .thr, .eng, .gt]
  | .probeStart _ => [.conv, .prb, .ps]
  | .chargeDone _ _ => [.tb, .conv]
  | .dischargeTrip _ _ => evParts ++ [.tb, .xing, .conv, .prb, .ps]
  | .dischargeTimeout _ _ => evParts ++ [.tb, .xing, .conv, .prb, .ps]
  | .probeSlotComplete _ => [.nv, .xing, .prb, .ps, .rcd, .irq, .far, .hlt]
  | .measIntervalBoundary _ => [.tb, .conv, .prb, .ps]
  | .decommissionErase => [.nv, .rcd, .host]
  | .statusFrame _ _ => resetParts
  | .statusPeek _ => resetParts
  | .readFrame _ _ => resetParts
  | .writeFrame _ _ => resetParts
  | .writeApply => resetParts
  | .claimFrame _ _ => resetParts
  | .completeFrame _ _ => resetParts
  | .doorbellFrame _ _ => resetParts
  | .replyRelease _ => resetParts
  | .farrierTakeRequest => resetParts ++ [.nv]
  | .hostWatchdogExpiry _ => reqGateParts ++ [.tb, .xing]
  | .hwdToWrite _ => [.host]
  | .hostLostClear => [.host]
  | .muster _ => reqGateParts ++ [.tb, .nv, .xing, .thr, .eng, .prog, .frm, .lmap, .spw, .gt, .prb, .ps, .rcd]
  | .nop _ => replyParts
  | .identity _ => replyParts
  | .state _ => replyParts
  | .sleep _ _ _ _ _ => reqGateParts ++ [.rsv, .nv, .xing, .thr, .eng, .spw, .gt, .prb, .ps, .rcd]
  | .reset _ _ => replyParts
  | .resetReplyTimeout _ => resetParts
  | .causeClear _ _ => replyParts ++ [.pwr]
  | .progMsg _ _ => replyParts
  | .timeGet _ => replyParts ++ [.tb]
  | .spread _ _ => replyParts ++ [.tb]
  | .anchor _ _ _ _ _ _ => replyParts ++ [.nv, .prb, .ps, .rcd]
  | .drift _ _ _ _ => replyParts ++ [.tb, .nv, .prb, .ps, .rcd]
  | .newEpoch _ _ => replyParts ++ [.nv, .prb, .ps, .rcd]
  | .chOpen _ _ _ _ _ _ _ => replyParts ++ [.units, .xing, .lmap]
  | .chClose _ _ => replyParts ++ [.units, .xing, .lmap, .spw]
  | .chCfg _ _ _ _ _ => replyParts ++ [.units]
  | .chWrite _ _ _ _ _ _ => reqGateParts ++ [.xing, .lmap]
  | .chCtl _ _ _ => reqGateParts ++ [.xing]
  | .chRead _ _ _ => replyParts ++ [.units]
  | .tioSet _ _ _ _ => replyParts ++ [.units, .tio, .xing]
  | .hOpen _ _ _ _ _ _ _ _ => reqGateParts ++ [.xing]
  | .hClose _ _ => reqGateParts ++ [.xing, .spw]
  | .hCfg _ _ _ _ _ _ _ => reqGateParts ++ [.xing]
  | .hAct _ _ _ _ => reqGateParts ++ [.xing]
  | .hStatus _ _ => replyParts ++ [.har]
  | .hClear _ _ _ _ => replyParts ++ [.har]
  | .hRide _ _ _ => replyParts ++ [.har]
  | .progUpload _ _ _ => replyParts
  | .progOpen _ _ _ _ _ _ _ _ => replyParts ++ [.thr, .eng, .prog, .frm, .lmap, .spw]
  | .progClose _ _ => replyParts ++ [.har, .thr, .eng, .prog, .frm, .lmap, .spw]
  | .progDoorbell _ _ _ _ _ => replyParts ++ [.thr, .eng]
  | .threadInfo _ _ => replyParts ++ [.thr]
  | .headroom _ _ => replyParts
  | .sdWrite _ _ _ _ _ => replyParts ++ [.prog]
  | .sdRead _ _ _ _ _ => resetParts
  | .gtOpen _ _ _ _ => reqGateParts ++ [.rsv, .xing, .thr, .eng, .spw, .gt]
  | .gtTune _ _ _ _ _ _ _ => replyParts ++ [.gt]
  | .gtClose _ _ => reqGateParts ++ [.xing, .thr, .eng, .spw, .gt]
  | .gtStatus _ _ => replyParts ++ [.gt]
  | .motOpen _ _ _ => replyParts ++ [.units, .har, .thr, .eng, .prog, .frm, .spw]
  | .motParam _ _ _ _ _ => reqGateParts ++ [.xing, .lmap]
  | .motStart _ _ => reqGateParts ++ [.thr]
  | .motStop _ _ _ => reqGateParts ++ [.thr]
  | .axisMove _ _ _ _ => reqGateParts ++ [.xing, .thr, .lmap]
  | .axisHome _ _ _ _ => replyParts ++ [.har]
  | .motStatus _ _ => replyParts
  | .prbSched _ _ _ _ _ _ => replyParts ++ [.nv, .conv, .prb, .ps, .rcd]
  | .prbCoef _ _ _ _ _ _ _ => replyParts ++ [.prb]
  | .prbRead _ _ => replyParts
  | .prbStop _ => replyParts ++ [.ps]
  | .recRead _ _ _ _ _ => replyParts
  | .recAck _ _ _ _ => replyParts ++ [.nv, .prb, .ps, .rcd]
  | .recEvent _ _ _ _ _ => replyParts ++ [.nv, .prb, .ps, .rcd]
  | .recProvision _ _ => replyParts ++ [.nv, .rcd]
  | .recDecommission _ _ => replyParts ++ [.nv, .prb, .ps, .rcd]
  | .recStatus _ => replyParts
  | .bOpen _ _ _ _ _ _ _ _ => replyParts
  | .bClose _ _ => replyParts ++ [.thr, .eng]
  | .bSet _ _ _ _ _ _ => replyParts ++ [.thr, .eng]
  | .healthSum _ => replyParts
  | .healthDet _ _ _ => replyParts
  | .injOpen1 _ _ => replyParts
  | .injOpen2 _ _ => replyParts
  | .injFire _ _ _ _ _ => resetParts ++ [.nv]
  | .injClose _ => replyParts
  | .calRead _ _ _ => replyParts
  | .calWrite _ _ _ _ _ _ _ => replyParts ++ [.nv, .prb, .ps, .rcd]
  | .calProc _ _ => replyParts
  | .calProcDone _ _ _ _ => [.nv, .prb, .ps, .rcd, .host, .irq, .far, .hlt]
  | .tagRead _ _ => replyParts
  | .tagWrite _ _ _ _ _ => replyParts ++ [.nv, .units]
  | .patchData _ _ _ => replyParts
  | .patchRun _ => reqGateParts ++ [.tb, .rsv, .nv, .xing, .thr, .eng, .prog, .frm, .lmap, .spw, .gt, .conv, .prb, .ps, .rcd, .pwr]
  | .bootContinue _ => reqGateParts ++ [.tb, .rsv, .nv, .xing, .thr, .eng, .prog, .frm, .lmap, .spw, .gt, .conv, .prb, .ps, .rcd, .pwr]
  | .claimFRead _ => [.irq]
  | .completeFWrite _ => [.rsv, .irq]
  | .poReset => resetParts
  | .boReset => resetParts
  | .pinReset _ => resetParts
  | .wdgReset _ => resetParts
  | .wdgWarning _ => evParts ++ [.tb]
  | .wdtService _ => [.far]
  | .clkReset => resetParts
  | .lockReset => resetParts
  | .swrstWrite _ => resetParts
  | .resetRelease _ _ _ _ => reqGateParts ++ [.tb, .rsv, .nv, .fsh, .cal, .xing, .arm, .thr, .eng, .prog, .frm, .lmap, .spw, .gt, .conv, .prb, .ps, .rcd, .pwr, .dbg]
  | .vbatLoss => [.rsv, .pwr]
  | .vbatReturn => resetParts
  | .reservoirLoss => resetParts
  | .sramScrub _ _ => resetParts
  | .frameRepairDone _ _ => evParts ++ [.thr, .frm, .spw]
  | .monitorSample _ _ => gateParts ++ [.tb, .xing]
  | .unitFailure _ _ _ => reqGateParts ++ [.tb, .rsv, .xing, .arm, .thr, .lmap, .spw]
  | .migrationResume _ _ => reqGateParts ++ [.tb, .nv, .xing, .arm, .thr, .lmap]
  | .tapsMeasure _ _ _ => reqGateParts ++ [.tb, .rsv, .xing, .arm, .thr, .lmap, .spw, .conv]
  | .unitInjWrite _ _ => reqGateParts ++ [.rsv, .xing, .arm, .thr, .lmap, .spw]
  | .tapReset => evParts ++ [.units, .xing, .dbg]
  | .extest => gateParts ++ [.xing, .dbg]
  | .idcode => evParts ++ [.units, .xing, .dbg]
  | .samplePreload _ => evParts ++ [.units, .xing, .dbg]
  | .clamp => gateParts ++ [.xing, .dbg]
  | .highz => gateParts ++ [.xing, .dbg]
  | .bypass => evParts ++ [.units, .xing, .dbg]
  | .dbgReg _ => resetParts ++ [.nv]
  | .dbgMem _ => evParts ++ [.units, .xing, .dbg]
  | .dbgMemDone => resetParts
  | .fuse _ => evParts ++ [.units, .xing, .dbg]
  | .fuseBlowDone => [.nv, .dbg]
  | .haltF => [.far, .dbg]
  | .resumeF => reqGateParts ++ [.tb, .rsv, .nv, .xing, .thr, .eng, .prog, .frm, .lmap, .spw, .gt, .conv, .prb, .ps, .rcd, .pwr]
  | .stepF => [.far, .dbg]
  | .dbgrst => resetParts
  | .walkEnter _ _ => gateParts ++ [.tb, .rsv, .xing, .rcd, .pwr, .dbg]
  | .walkExit => [.irq, .pwr, .dbg]
  | .haltEng _ => [.thr, .eng]
  | .resumeEng _ => [.thr, .eng]
  | .haltT _ => [.thr, .eng]
  | .resumeT _ => [.thr, .eng]
  | .stepT _ => resetParts
  | .coarseTideEdge _ _ => gateParts ++ [.tb, .rsv, .pad, .padZ, .xing, .ps, .pwr]
  | .unitRegisterEccCorrection _ _ => reqGateParts ++ [.tb, .rsv, .xing, .arm, .thr, .lmap, .spw]
  | .correctedErrorWindowEnd _ => [.tb, .units, .hlt]

end Sys2Proof.Claims
end

