-- ==== Sys2Proof/Vocab.lean ====
section
/-! DEFINITION. The words the statements are written in: when an engine issues an instruction, what a completed instruction
leaves unchanged, what an alarm or a report does, when the Farrier accepts a request and what reply it writes. -/

namespace Sys2Proof.Claims

open Sys2Proof Sys2Proof.Machine

/-! ### Pins (04_channels.md R69, R71) -/

/-- The input of a unit reads a TIO pin whose control word names the logical channel. -/
def ReadsPinOf (s : State) (v : UnitId) (l : Lch) : Prop :=
  ∃ k : Fin 40, s.units[v].insel.toNat = k.val ∧ (fld s.tio[k] 0 7).toNat = l.val

/-! ### Interrupt sources and the tide alarm (15_interrupts.md R338, R339; 02_time.md R40) -/

/-- A pulse of a latched source has arrived: at each target where it is enabled it is latched, or active and counted. -/
def Latched (i : Nat) (u : State) : Prop :=
  (bit u.irq.enF i = true → bit u.irq.latF i = true ∨ bit u.irq.actF i = true) ∧
  (bit u.irq.enH i = true → bit u.irq.latH i = true ∨ bit u.irq.actH i = true)

/-- The tide alarm of a state has fired: TALARM_EN is clear, an armed alarm has set its wake latch, and outside SLEEP and DEEP
source 194 has been raised; the count and the compare stand. -/
def AlarmFired (a u : State) : Prop :=
  u.rsv.talarmEn = false ∧ u.rsv.tide = a.rsv.tide ∧ u.rsv.talarm = a.rsv.talarm ∧
  (bit a.rsv.arm 1 = true → bit u.rsv.wk 1 = true) ∧ (a.asleep = false → Latched 194 u)

/-! ### Resets (16_reset_power.md R355 to R359) -/

/-- A reset source has asserted: the reset is held at the level the source now has, and its cause bit is set. -/
def HeldBy (r : RstSrc) (s u : State) : Prop :=
  u.pwr.phase = .held ∧ bit u.pwr.cause r.idx = true ∧ u.pwr.lastLevel = BitVec.ofNat 2 (levelNow s r) ∧
  u.pwr.level = BitVec.ofNat 2 (levelNow s r)

/-! ### Engine instructions (07_microcode.md R153 to R159, R174, R175, R185) -/

/-- The page that holds the PC is resident, its word reads without an error, and an RT thread runs in a pinned page (R116,
R117); a shipped program has no page. -/
def PageIn (tid : Tid) (s : State) : Prop :=
  let t := s.thr[tid]
  let g := s.prog[t.progId]
  match frameOf s t.progId (pageOf t.ctx.pc) with
  | none => g.shipped = true
  | some i => g.shipped = false ∧ s.frm[i].valid = true ∧ markAt s 2 (frameWord i t.ctx.pc).toNat = none ∧
      (t.rt = true → g.pinc.getD (pageOf t.ctx.pc).toNat 0 = 1)

/-- Thread `tid` issues its next instruction, one that reads the registers `regs`: its engine runs and is not halted and its
next cycle is this thread's (05_ostler.md R110), the thread is READY and has not run off the end of its image, its page is in,
no breakpoint stops it, and the register words it reads carry no error. -/
def Issues (tid : Tid) (regs : List (BitVec 4)) (s : State) : Prop :=
  canIssue s tid = true ∧ s.thr[tid].fell = false ∧ PageIn tid s ∧
  (s.thr[tid].bpSkip = true ∨ breakpoint s tid = none) ∧ ∀ w ∈ readSet tid regs, markAt s 3 w = none

/-- A register as a thread reads it. -/
def reg (s : State) (tid : Tid) (r : BitVec 4) : W64 := s.thr[tid].ctx.getG r

/-- The five flags of a thread. -/
structure Fl where
  z : Bool
  n : Bool
  c : Bool
  v : Bool
  f : Bool
deriving DecidableEq, Repr

/-- The flags a thread holds. -/
def flags (s : State) (tid : Tid) : Fl :=
  let c := s.thr[tid].ctx
  ⟨c.z, c.n, c.c, c.v, c.f⟩

/-- Z and N follow a result; the other flags stay (R153). -/
def Fl.zn (k : Fl) (r : W64) : Fl := { k with z := decide (r = 0), n := decide (r.toInt < 0) }

/-- All of Z, N, C and V after a + b: C the carry out of bit 63, V signed overflow (R153). -/
def Fl.add (k : Fl) (a b : W64) : Fl :=
  { k.zn (a + b) with c := decide (2 ^ 64 ≤ a.toNat + b.toNat), v := decide ((a + b).toInt ≠ a.toInt + b.toInt) }

/-- All of Z, N, C and V after a − b: C the borrow, V signed overflow (R153). -/
def Fl.sub (k : Fl) (a b : W64) : Fl :=
  { k.zn (a - b) with c := decide (a.toNat < b.toNat), v := decide ((a - b).toInt ≠ a.toInt - b.toInt) }

/-- Register rd holds `v`, unless rd is g0, which reads 0; every other register is unchanged. -/
def RegIs (tid : Tid) (rd : BitVec 4) (v : W64) (s t : State) : Prop :=
  reg t tid 0 = 0 ∧ ∀ r, r ≠ 0 → reg t tid r = if r = rd then v else reg s tid r

/-- Every register of the thread is unchanged. -/
def RegsSame (tid : Tid) (s t : State) : Prop := ∀ r, reg t tid r = reg s tid r

/-- The thread's local memory is unchanged, byte for byte. -/
def TlmSame (tid : Tid) (s t : State) : Prop := ∀ a, memGet t.thr[tid].ctx.tlm a = memGet s.thr[tid].ctx.tlm a

/-- The parts of the state that an engine touches as it issues an instruction or stops its thread. -/
def engParts : List Part := evParts ++ [.eng, .frm, .prog, .spw, .thr]

/-- Every thread but one is unchanged. -/
def OthersSame (tid : Tid) (s t : State) : Prop := ∀ u, u ≠ tid → t.thr[u] = s.thr[u]

/-- Everything outside the threads, the engines, the instruction frames, the shared data of programs and what the
report of a stopped thread touches is unchanged, and so is every other thread. -/
def Apart (tid : Tid) (s t : State) : Prop := Within engParts s t ∧ OthersSame tid s t

/-- The basins and their memory, the spillway and the interrupt sources are unchanged: so it is where the thread goes on
inside its page. -/
def Still (s t : State) : Prop :=
  t.bas = s.bas ∧ t.bmem = s.bmem ∧ t.spw = s.spw ∧ t.irq = s.irq ∧ t.ost.pageFree = s.ost.pageFree ∧ t.hlt.det = s.hlt.det

/-- The same, with the Farrier's message queue. -/
def Quiet (s t : State) : Prop := Still s t ∧ t.far.msgs = s.far.msgs

/-- The next code address lies in the image and in the page of the PC. -/
def StaysInPage (tid : Tid) (s : State) : Prop :=
  let t := s.thr[tid]
  t.ctx.pc.toNat + 1 < codeEnd s.prog[t.progId] ∧ (fld t.ctx.pc 0 7).toNat < 127

/-- The state of a thread that trapped with a cause (R174, R175): STOPPED where the image has no TRAP_ENTRY or TH was set;
at TRAP_ENTRY otherwise, with TH, TCAUSE and TPC written. -/
def Trapped (tid : Tid) (cause : W16) (s t : State) : Prop :=
  let k := s.thr[tid]
  let g := s.prog[k.progId]
  let d := t.thr[tid]
  if g.trapEntry = 0xFFFFFFFF#32 ∨ k.ctx.th = true then d.st = .stopped
  else d.ctx.th = true ∧ d.ctx.tcause = cause ∧ d.ctx.tpc = k.ctx.pc ∧ d.ctx.pc = g.trapEntry.truncate 19

/-- The activation's cycle count after an instruction of `cycles` cycles: those in which the ready thread waited for its
engine count too (R114). -/
def counted (tid : Tid) (cycles : Nat) (s : State) : Option Nat :=
  s.thr[tid].cyc.map fun n => n + (issueCycle s tid - s.thr[tid].busy) + cycles

/-- A completed instruction goes on at the next code address; past the end of the image the thread traps BUS with TCAUSE
15:8 = 1 (R158). Its cycles are counted. -/
def GoesOn (tid : Tid) (cycles : Nat) (s t : State) : Prop :=
  let k := s.thr[tid]
  let d := t.thr[tid]
  (k.ctx.pc.toNat + 1 < codeEnd s.prog[k.progId] →
    d.ctx.pc = k.ctx.pc + 1 ∧ d.ctx.th = k.ctx.th ∧ d.ctx.tcause = k.ctx.tcause ∧ d.ctx.tpc = k.ctx.tpc) ∧
  (codeEnd s.prog[k.progId] ≤ k.ctx.pc.toNat + 1 → Trapped tid 0x0103 s t) ∧
  (StaysInPage tid s → d.cyc = counted tid cycles s)

/-- What an instruction does beside its result and flags: it goes on, and everything else is unchanged. -/
def AluRest (tid : Tid) (cycles : Nat) (s t : State) : Prop :=
  GoesOn tid cycles s t ∧ Apart tid s t ∧ TlmSame tid s t ∧ t.prog = s.prog ∧ (StaysInPage tid s → Quiet s t)

/-- The command writes `v` to rd, leaves the flags `fl` and goes on; nothing else changes. -/
def AluDoes (c : Instr) (tid : Tid) (rd : BitVec 4) (v : W64) (fl : Fl) (cycles : Nat) (s : State) : Prop :=
  Goes c s fun t => RegIs tid rd v s t ∧ flags t tid = fl ∧ AluRest tid cycles s t

/-- The command writes no register, leaves the flags `fl`, goes on and has the effect `P`; nothing else of the thread
changes, and outside it nothing but what an engine touches. -/
def PlainDoes (c : Instr) (tid : Tid) (fl : Fl) (cycles : Nat) (s : State) (P : State → Prop) : Prop :=
  Goes c s fun t => RegsSame tid s t ∧ flags t tid = fl ∧ AluRest tid cycles s t ∧ P t

/-- The thread goes on with its registers, its local memory and its program as they stand, and no other thread changes. -/
def Moves (tid : Tid) (cycles : Nat) (s t : State) : Prop :=
  GoesOn tid cycles s t ∧ RegsSame tid s t ∧ TlmSame tid s t ∧ t.prog = s.prog ∧ OthersSame tid s t

/-- The command traps with a cause (R174): it has no other effect and changes no flag. -/
def Traps (c : Instr) (tid : Tid) (cause : W16) (s : State) : Prop :=
  Goes c s fun t => Trapped tid cause s t ∧ RegsSame tid s t ∧ flags t tid = flags s tid ∧ TlmSame tid s t ∧ t.prog = s.prog ∧
    Apart tid s t

/-- The thread goes on at a code address, 2 cycles later where that lies in its page. -/
def JumpsTo (tid : Tid) (pc : BitVec 19) (s t : State) : Prop :=
  let k := s.thr[tid]
  let d := t.thr[tid]
  d.ctx.pc = pc ∧ d.ctx.th = k.ctx.th ∧ d.ctx.tcause = k.ctx.tcause ∧ d.ctx.tpc = k.ctx.tpc ∧ flags t tid = flags s tid ∧
  TlmSame tid s t ∧ t.prog = s.prog ∧ Apart tid s t ∧
  (pageOf pc = pageOf k.ctx.pc → d.cyc = counted tid 2 s ∧ Quiet s t)

/-- The fields of an S-format word that most instructions do not define are 0, and SUB has a value that is (R184, R185). -/
def Plain (o : SOps) (subs : List (BitVec 6)) : Prop := o.zero = false ∧ o.x = false ∧ o.sub ∈ subs

/-- The same for a channel or harness instruction, where X may be 1. -/
def PlainX (o : SOps) (subs : List (BitVec 6)) : Prop := o.zero = false ∧ o.sub ∈ subs

/-- The basin that k names is open and bound to the thread's program (R161, R168). -/
def MyBasin (s : State) (tid : Tid) (k : BitVec 6) : Prop :=
  k.toNat < 62 ∧ s.bas[k.toNat].open_ = true ∧ bit s.prog[s.thr[tid].progId].bMask k.toNat = true

/-- The object that a channel or harness instruction names (R164). -/
def named (s : State) (tid : Tid) (o : SOps) : BitVec 6 := if o.x then (reg s tid o.rb).truncate 6 else o.k

/-- The channel is open and bound to the thread's program (R164). -/
def MyChannel (s : State) (tid : Tid) (l : Lch) : Prop :=
  s.lmap[l].open_ = true ∧ bit s.prog[s.thr[tid].progId].chMask l.val = true

/-- The writes that wait in the crossing of the thread's engine (R165, 03_crossings.md R55). -/
def crossing (s : State) (tid : Tid) : List ArmW := s.arm.q[slotEng s.thr[tid].slot]

/-- A thread's write to a channel passes through its engine's crossing at once: none waits there, and none of another engine
has reached the channel at this FAB edge. -/
def Clear (tid : Tid) (l : Lch) (s : State) : Prop :=
  crossing s tid = [] ∧ (sameCycle s.arm.at_ s.now = true → ∀ q ∈ s.arm.top, q.1 ≠ BitVec.ofNat 8 l.val)

/-- A write to a unit by an engine instruction: the thread goes on with its flags, and no other unit changes. -/
def OneUnit (tid : Tid) (u : UnitId) (s t : State) : Prop :=
  Moves tid 2 s t ∧ flags t tid = flags s tid ∧ (∀ j, j ≠ u → t.units[j] = s.units[j]) ∧ Within (engParts ++ [.units, .arm]) s t

/-- The spillway entry that a handle names belongs to the thread's program, is unconfirmed and has not expired (R138, R171). -/
def MyEntry (s : State) (tid : Tid) (h : W16) (i : Fin 256) : Prop :=
  let e := s.spw.ent[i]
  i.val = h.toNat % 256 ∧ e.valid = true ∧ e.conf = false ∧ e.gen.toNat = h.toNat / 256 ∧ passed s.nowEv e.expiry = false ∧
  ∃ t : Tid, e.owner = BitVec.ofNat 8 t.val ∧ s.thr[t].st ≠ .free ∧ s.thr[t].progId = s.thr[tid].progId

/-! ### Requests carried out by the Farrier (14_farrier_commands.md R305 to R314) -/

/-- The code and the request that a row of the Farrier carries; none for every other row. -/
def request : Instr → Option (Byte × Req)
  | .nop q => some (0x00, q)
  | .identity q => some (0x01, q)
  | .state q => some (0x02, q)
  | .sleep q _ _ _ _ => some (0x03, q)
  | .reset q _ => some (0x04, q)
  | .causeClear q _ => some (0x05, q)
  | .progMsg q _ => some (0x06, q)
  | .timeGet q => some (0x10, q)
  | .spread q _ => some (0x11, q)
  | .anchor q _ _ _ _ _ => some (0x12, q)
  | .drift q _ _ _ => some (0x13, q)
  | .newEpoch q _ => some (0x14, q)
  | .chOpen q _ _ _ _ _ _ => some (0x20, q)
  | .chClose q _ => some (0x21, q)
  | .chCfg q _ _ _ _ => some (0x22, q)
  | .chWrite q _ _ _ _ _ => some (0x23, q)
  | .chCtl q _ _ => some (0x24, q)
  | .chRead q _ _ => some (0x25, q)
  | .tioSet q _ _ _ => some (0x26, q)
  | .hOpen q _ _ _ _ _ _ _ => some (0x30, q)
  | .hClose q _ => some (0x31, q)
  | .hCfg q _ _ _ _ _ _ => some (0x32, q)
  | .hAct q _ _ _ => some (0x33, q)
  | .hStatus q _ => some (0x34, q)
  | .hClear q _ _ _ => some (0x35, q)
  | .hRide q _ _ => some (0x36, q)
  | .progUpload q _ _ => some (0x40, q)
  | .progOpen q _ _ _ _ _ _ _ => some (0x41, q)
  | .progClose q _ => some (0x42, q)
  | .progDoorbell q _ _ _ _ => some (0x43, q)
  | .threadInfo q _ => some (0x44, q)
  | .headroom q _ => some (0x45, q)
  | .sdWrite q _ _ _ _ => some (0x46, q)
  | .sdRead q _ _ _ _ => some (0x47, q)
  | .gtOpen q _ _ _ => some (0x50, q)
  | .gtTune q _ _ _ _ _ _ => some (0x51, q)
  | .gtClose q _ => some (0x52, q)
  | .gtStatus q _ => some (0x53, q)
  | .motOpen q _ _ => some (0x60, q)
  | .motParam q _ _ _ _ => some (0x61, q)
  | .motStart q _ => some (0x62, q)
  | .motStop q _ _ => some (0x63, q)
  | .axisMove q _ _ _ => some (0x64, q)
  | .axisHome q _ _ _ => some (0x65, q)
  | .motStatus q _ => some (0x66, q)
  | .prbSched q _ _ _ _ _ => some (0x70, q)
  | .prbCoef q _ _ _ _ _ _ => some (0x71, q)
  | .prbRead q _ => some (0x72, q)
  | .prbStop q => some (0x73, q)
  | .recRead q _ _ _ _ => some (0x80, q)
  | .recAck q _ _ _ => some (0x81, q)
  | .recEvent q _ _ _ _ => some (0x82, q)
  | .recProvision q _ => some (0x83, q)
  | .recDecommission q _ => some (0x84, q)
  | .recStatus q => some (0x85, q)
  | .bOpen q _ _ _ _ _ _ _ => some (0x90, q)
  | .bClose q _ => some (0x91, q)
  | .bSet q _ _ _ _ _ => some (0x92, q)
  | .healthSum q => some (0xA0, q)
  | .healthDet q _ _ => some (0xA1, q)
  | .injOpen1 q _ => some (0xA2, q)
  | .injOpen2 q _ => some (0xA3, q)
  | .injFire q _ _ _ _ => some (0xA4, q)
  | .injClose q => some (0xA5, q)
  | .calRead q _ _ => some (0xB0, q)
  | .calWrite q _ _ _ _ _ _ => some (0xB1, q)
  | .calProc q _ => some (0xB2, q)
  | .tagRead q _ => some (0xB3, q)
  | .tagWrite q _ _ _ _ => some (0xB4, q)
  | .patchData q _ _ => some (0xF0, q)
  | .patchRun q => some (0xF1, q)
  | .bootContinue q => some (0xF2, q)
  | _ => none

/-- The request of a row is accepted: the Farrier takes requests, no injected refusal stands for the mailbox, and the state
allows the command (R309, R314). -/
def Accepted (c : Instr) (s : State) : Prop :=
  match request c with
  | some (cmd, q) => accepts cmd q s = true
  | none => False

/-- The row writes its reply, with this status and payload, over a state with the property `P`. -/
def Answers (c : Instr) (s : State) (st : Byte) (pay : List Byte) (P : State → Prop) : Prop :=
  match request c with
  | some (cmd, q) => ∃ u, exec c s = .next (writeReply q.mb cmd q.tag st pay u) ∧ P u
  | none => False

/-- The row is refused with a status and has no effect but its reply (R308). -/
def Turned (c : Instr) (s : State) (st : Byte) : Prop :=
  match request c with
  | some (cmd, q) => exec c s = .next (writeReply q.mb cmd q.tag st [] (markTaken q.mb s))
  | none => False

/-- The row is refused as malformed: the refusal counts and is reported, and there is no other effect (R306, R308). -/
def Malformed (c : Instr) (s : State) (st : Byte) : Prop :=
  match request c with
  | some (cmd, q) => exec c s = .next (refuseMalformed cmd q st false (markTaken q.mb s))
  | none => False

/-- The reply of a row is due later: its mailbox stays PENDING, and the state has the property `P` (R310). -/
def Waits (c : Instr) (s : State) (P : State → Prop) : Prop :=
  match request c with
  | some (_, q) => ∃ u, exec c s = .next u ∧ bit u.host.reqBusy q.mb.val = true ∧ P u
  | none => False

/-- Record entries can be written now: writing is enabled, no epoch start is under way, no loss of the queue, of park wakes or
of probe results is pending, the queue header reads, SEQ has room and the interval will not double. -/
def CanRecord (s : State) : Prop :=
  s.writes = true ∧ s.rcd.epochPend = none ∧ s.rcd.hdrBad = false ∧ s.rcd.seq ≠ 0xFFFFFFFF ∧ s.rcd.lossPend = 0 ∧
  s.ps.missedDue = false ∧ s.ps.lostN = 0 ∧ s.rcd.q.length < 383

/-- An entry has been queued: it carries the SEQ and EPOCH of the record and the tag chained to the last one (R274, R276). -/
def Recorded (e : Entry) (s u : State) : Prop :=
  let d := { e with seq := s.rcd.seq, epoch := s.rcd.epoch }
  let tag := chainTag (s.nv.key.getD []) s.rcd.lastTag d
  u.rcd.q = s.rcd.q ++ [{ d with tag := tag }] ∧ u.rcd.seq = s.rcd.seq + 1 ∧ u.rcd.lastTag = tag ∧ u.rcd.epoch = s.rcd.epoch ∧
  u.rcd.lossCnt = s.rcd.lossCnt

end Sys2Proof.Claims
end

