-- ==== Sys2Proof/Certificates/Slice0/Obligations.lean ====
section
/-! DEFINITION. The statements of this row, each over the words of Claims and Vocab. -/

open Sys2Proof Sys2Proof.Machine Sys2Proof.Claims

/-! ### The block as a whole -/

/-- A step runs the command at the front of the queue on the queue's rest (95_what_each_step_holds.md). For every command
c and state s, a step of s with c put at the front of its queue is exec of c on s with the queue's rest. -/
def Obligations.StepRunsFrontCommand : Prop :=
  ∀ (c : Instr) (s : State), step { s with pending := c :: s.pending } = exec c s

/-- The model's choice (log entry 8): a step on an empty queue is one ROOT edge (02_time.md, R22, 00_scope.md). With no
command waiting a step lets one ROOT edge pass (DESIGN CHOICE, log entry 8): where ROOT does not clock DT nothing
changes; on BRC the discipline increment is added to DT with its fraction; on the crystal only the timebase changes. -/
def Obligations.IdleStepIsOneRootEdge : Prop :=
  ∀ s : State, s.pending = [] →
    (s.rootRuns = false → step s = .next s) ∧
    (s.rootRuns = true → s.tb.refBrc = true → ∃ t, step s = .next t ∧
      t.tb.acc = s.tb.acc + s.tb.discInc.zeroExtend 96 ∧ Within [.tb] s t) ∧
    (s.rootRuns = true → s.tb.refBrc = false → ∃ t, step s = .next t ∧ Within [.tb] s t)

/-- The state right after reset: held at level 0, every channel, thread, harness, basin and program closed
(16_reset_power.md, R357, R358, 04_channels.md, 05_ostler.md, 12_sealed_record.md). Right after reset the reset is
held at level 0, no command waits, DT and the tide counter read 0, every channel unit is FREE, disabled, its output
low, its input none, every logical channel, harness, program and basin is closed, every thread is FREE, the spillway
is empty, the record holds no entry, no source is enabled, the host interface holds no request, and every addressed
memory is in its canonical form. -/
def Obligations.ResetLeavesTheBlock : Prop :=
  State.reset.pwr.phase = .held ∧ State.reset.pwr.level = 0 ∧ State.reset.pending = [] ∧
  State.reset.tb.dt = 0 ∧ State.reset.rsv.tide = 0 ∧
  (∀ u : Fin 68, State.reset.units[u].ust = .free ∧ State.reset.units[u].ctrl = 0x3F000000 ∧ State.reset.units[u].level = false) ∧
  (∀ l : Fin 64, State.reset.lmap[l].open_ = false) ∧ (∀ h : Fin 16, State.reset.har[h].kind = 0) ∧
  (∀ p : Fin 16, State.reset.prog[p].open_ = false) ∧ (∀ b : Fin 64, State.reset.bas[b].open_ = false) ∧
  (∀ t : Fin 64, State.reset.thr[t].st = .free) ∧ (∀ i : Fin 256, State.reset.spw.ent[i].valid = false) ∧
  State.reset.rcd.q = [] ∧ State.reset.irq.enF = 0 ∧ State.reset.irq.enH = 0 ∧ State.reset.host.reqBusy = 0 ∧
  State.reset.host.replyRdy = 0 ∧ Sys2Proof.State.memWf State.reset = true

/-- Every command leaves unchanged every part of the state that its rules do not give it (95_what_each_step_holds.md,
04_channels.md, 05_ostler.md, 07_microcode.md, 08_power_harnesses.md, 13_host_link.md, 14_farrier_commands.md,
16_reset_power.md, 17_health.md, 18_debug.md). For every one of the 292 commands and every state: where the command
answers a next state, each of the 34 parts of the state that the table of parts does not list for that command is
unchanged (the timebase, the reservoir, NV, the units, the harnesses, the threads, the basins, the spillway, the host
interface, the interrupt sources and so on), and so is the queue of waiting commands. -/
def Obligations.CommandsStayInTheirParts : Prop :=
  ∀ (c : Instr) (s t : State), exec c s = .next t → Within (parts c) s t

/-- A step takes exactly the front command off the queue; no command puts one there (95_what_each_step_holds.md,
00_scope.md). Whenever a step answers a next state, the queue after it is the queue before it without its front
command, in the same order; on an empty queue it stays empty. -/
def Obligations.EveryStepTakesOneCommand : Prop :=
  ∀ s t : State, step s = .next t → t.pending = s.pending.tail

/-- No step is refused, and a step faults only at an address that names no register (00_scope.md, R8, 18_debug.md,
95_what_each_step_holds.md). For every state, a step answers a next state or the fault of an address that no register
table holds; it is never refused. The fault is raised by register accesses alone: every other command always answers a
next state. -/
def Obligations.OnlyMissingRegistersStopTheBlock : Prop :=
  (∀ s : State, safeOutcome (step s)) ∧
  (∀ (c : Instr) (s : State),
    (∀ a v w, c ≠ .registerWrite a v w) → (∀ a n x, c ≠ .rcFieldRead a n x) → (∀ a, c ≠ .loWordLatchRead a) → ∃ t, exec c s = .next t)

/-! ### The timebase and the tide counter -/

/-- Spread, tide measurements, the tide pair and the discipline window change the timebase as their rules say
(02_time.md, R23, R27, R29, R38, R47, R448). With time at the instant of the event, ROOT running on XTAL and
modulation step 0 reached after the setting was written, the waiting spread setting takes effect and nothing else
changes. In RUN a measurement of TRC, or of the crystal within 500 ppm, is kept with the last 7 before it, and the
mean of those held is stored in backup register 29 or 28 where the Farrier runs; a crystal measurement outside 500 ppm
is not kept, sets TERR_RANGE and counts, and the eighth in a row stops the crystal as a source: CHG_TIDE is latched,
the counter goes to TRC and advances by 4. At the edge that the refresh falls due the pair takes DT and the tide
count, and the next falls due 32,768 edges later; at any other edge nothing changes. A discipline window on BRC in RUN
sets the increment from the ROOT cycles it counted. -/
def Obligations.TimebaseCountsAndMeasures : Prop :=
  (∀ t s v, (advanceTo t s).rootRuns = true → s.tb.refBrc = false → s.tb.sscPend = some v → (advanceTo t s).tb.sscStep = 0 →
    s.tb.sscAt ≤ (advanceTo t s).tb.cycleStart → exec (.spreadTakesEffect t) s =
      .next { advanceTo t s with tb := { (advanceTo t s).tb with ssc := v, sscPend := none } }) ∧
  (∀ t s d, s.pwr.phase = .run →
    Goes (.tideErrorMeasurement t true d) s fun u =>
      u.tb.trcMeas = satInt 32 (tideError true d) ∧ u.tb.trcHist = (u.tb.trcMeas :: s.tb.trcHist).take 8 ∧
      u.tb.terrMeas = s.tb.terrMeas ∧ u.tb.terrHist = s.tb.terrHist ∧
      (s.farrierWrites = true → u.rsv.backup[29] = meanErr u.tb.trcHist) ∧ (s.farrierWrites = false → u.rsv = s.rsv)) ∧
  (∀ t s d, s.pwr.phase = .run → -500000 ≤ tideError false d → tideError false d ≤ 500000 →
    Goes (.tideErrorMeasurement t false d) s fun u =>
      u.tb.terrMeas = satInt 32 (tideError false d) ∧ u.tb.terrHist = (u.tb.terrMeas :: s.tb.terrHist).take 8 ∧
      u.tb.terrRej = 0 ∧ u.tb.rejRun = 0 ∧ u.tb.terrRange = s.tb.terrRange ∧ u.tb.trcHist = s.tb.trcHist ∧
      (s.farrierWrites = true → u.rsv.backup[28] = meanErr u.tb.terrHist) ∧ (s.farrierWrites = false → u.rsv = s.rsv)) ∧
  (∀ t s d, s.pwr.phase = .run → (tideError false d < -500000 ∨ 500000 < tideError false d) → s.tb.rejRun.toNat < 7 →
    Goes (.tideErrorMeasurement t false d) s fun u =>
      u.tb.terrMeas = satInt 32 (tideError false d) ∧ u.tb.terrRange = true ∧ u.tb.terrRej = satInc s.tb.terrRej ∧
      u.tb.rejRun = s.tb.rejRun + 1 ∧ u.tb.terrHist = s.tb.terrHist ∧ u.rsv.onTrc = s.rsv.onTrc) ∧
  (∀ t s d, s.pwr.phase = .run → (tideError false d < -500000 ∨ 500000 < tideError false d) → 7 ≤ s.tb.rejRun.toNat →
    s.rsv.onTrc = false → s.rsv.trcFail = false →
    Goes (.tideErrorMeasurement t false d) s fun u =>
      u.rsv.onTrc = true ∧ u.rsv.tideFail = true ∧ u.rsv.chgValid = true ∧ u.rsv.chgTide = s.rsv.tide ∧
      u.rsv.tide = s.rsv.tide + 4) ∧
  (∀ t k s, (let a := tidePass k (advanceTo t s)
      (a.tb.refreshOn = true → a.rsv.tide = a.tb.refreshAt → exec (.tidePairRefresh t k) s =
        .next { a with
          tb := { a.tb with refreshAt := a.rsv.tide + 32768, pairX := a.tb.allowX, pairT := a.tb.allowT }
          rsv := { a.rsv with tpDt := a.tb.dt, tpTide := a.rsv.tide, tpValid := true, tpSleep := false, tpSrc := a.rsv.onTrc,
                              tpErrX := a.rsv.backup[28], tpErrT := a.rsv.backup[29] }
          rcd := { a.rcd with gapDt := none } }) ∧
      (a.tb.refreshOn = false ∨ a.rsv.tide ≠ a.tb.refreshAt → exec (.tidePairRefresh t k) s = .next s))) ∧
  (∀ t m s, s.pwr.phase = .run → s.tb.refBrc = true → s.tb.pllLock = true → m ≠ 0#32 →
    Goes (.disciplineWindow t m) s fun u =>
      u.tb.disc = true ∧ u.tb.coarse = false ∧ u.rsv = s.rsv ∧
      u.tb.discInc = satNat 64 (openDiv
        (tideTicks s.rsv.onTrc (if s.rsv.onTrc then s.rsv.tpErrT else s.rsv.tpErrX) 4096 * 2 ^ 32) m.toNat))

/-- The tide counter changes to TRC when the crystal stops and returns to it; TRC_FAIL is kept (02_time.md, R38, R39,
R49). A crystal stop with TRC running latches CHG_TIDE at the present count, changes the counter to TRC and advances
it by 4; the pair and the backup registers stand. With TRC failed too it only makes the stored time invalid, and on
TRC it changes nothing but that the crystal is no longer known to be good. In RUN, once the crystal has been measured
within 500 ppm and where no injected failure holds it, the Farrier returns the counter to the crystal at a tide edge,
with a TIME_SOURCE change at the present DT that ends the uncertainty gathered; on the crystal, without such a
measurement or without the Farrier nothing changes. TRC_FAIL sets its flag, makes the stored time invalid if the
counter is on TRC, and changes nothing else. -/
def Obligations.TideSourceChanges : Prop :=
  (∀ t k s, s.rsv.onTrc = false → s.rsv.trcFail = false → (let a := tidePass k (advanceTo t s)
    Goes (.tideCrystalStop t k) s fun u =>
      u.rsv.onTrc = true ∧ u.rsv.tideFail = true ∧ u.rsv.chgValid = true ∧
      u.rsv.chgTide = a.rsv.tide ∧ u.rsv.tide = a.rsv.tide + 4 ∧
      u.rsv.tpTide = s.rsv.tpTide ∧ u.rsv.tpDt = s.rsv.tpDt ∧ u.rsv.backup = s.rsv.backup ∧ u.tb.xtalGood = false)) ∧
  (∀ t k s, s.rsv.onTrc = false → s.rsv.trcFail = true →
    exec (.tideCrystalStop t k) s =
      .next (let a := tidePass k (advanceTo t s)
        { a with rsv := { a.rsv with tideFail := true, tpValid := false }, tb := { a.tb with xtalGood := false } })) ∧
  (∀ t k s, s.rsv.onTrc = true →
    exec (.tideCrystalStop t k) s =
      .next (let a := tidePass k (advanceTo t s)
        { a with tb := { a.tb with xtalGood := false } })) ∧
  (∀ t k s, s.pwr.phase = .run → s.farrierWrites = true → s.rsv.onTrc = true → s.tb.xtalGood = true →
    (advanceTo t s).clkHeld 2 = false → (let a := tidePass k (advanceTo t s)
    Goes (.tideReturnToCrystal t k) s fun u =>
      u.rsv = { a.rsv with onTrc := false } ∧ u.tb.dt = a.tb.dt ∧ u.tb.srcSince = u.tb.dt ∧ u.tb.unc = 0)) ∧
  (∀ t k s, s.rsv.onTrc = false ∨ s.tb.xtalGood = false ∨ s.farrierWrites = false →
    exec (.tideReturnToCrystal t k) s = .next s) ∧
  (∀ t s, exec (.trcFail t) s =
    .next (let a := advanceTo t s
      { a with rsv := { a.rsv with trcFail := true, tpValid := a.rsv.tpValid && !a.rsv.onTrc } }))

/-- The tide alarm fires once when the count reaches or passes the compare, at a tide edge or at a write (02_time.md,
R40, R50). When at a tide edge, or at a write of TALARM_LO or TALARM_HI, the alarm is enabled and the count has
reached or passed the compare, TALARM_EN clears, an armed tide alarm sets its wake latch, and outside SLEEP and DEEP
source 194 latches where it is enabled; the count and the compare stay as they stand. Otherwise the edge only moves
time and the count on, and the write only writes its half of the compare (the high half with TALARM_EN in bit 16). No
tide edge leaves an enabled alarm that the count has reached. -/
def Obligations.TideAlarmFires : Prop :=
  (∀ t k s, (let a := tidePass k (advanceTo t s)
      (a.rsv.talarmEn = true → passed a.rsv.tide a.rsv.talarm = true →
        Goes (.tideAlarm t k) s fun u => AlarmFired a u) ∧
      (a.rsv.talarmEn = false ∨ passed a.rsv.tide a.rsv.talarm = false → exec (.tideAlarm t k) s = .next a))) ∧
  (∀ t k s, Goes (.tideAlarm t k) s fun u => u.rsv.talarmEn = true → passed u.rsv.tide u.rsv.talarm = false) ∧
  (∀ (hi : Bool) v s, (let a : State := { s with rsv := if hi then { s.rsv with talarm := fld v 0 16 ++ fld s.rsv.talarm 0 32, talarmEn := bit v 16 }
                                     else { s.rsv with talarm := fld s.rsv.talarm 32 16 ++ v } }
      (a.rsv.talarmEn = true → passed a.rsv.tide a.rsv.talarm = true →
        Goes (.talarmWrite hi v) s fun u => AlarmFired a u) ∧
      (a.rsv.talarmEn = false ∨ passed a.rsv.tide a.rsv.talarm = false → exec (.talarmWrite hi v) s = .next a)))

/-- Loss of the crystal or of PLL lock: DT advances coarsely, the flags are set and CLK is raised; relock and return
(02_time.md, R46, R47, R48, 16_reset_power.md, R364). From boot step 8 on, outside walk mode, the loss of XTAL raises
the CLK reset; where that is carried out at level 1 or 2 the PLL is on BRC with spread off, DT coarse and the flag
set. Before step 8 source 190 waits and nothing is reset. Loss of lock with XTAL healthy lets DT advance coarsely and
sets its flag; without relock CLK is raised. A relock on XTAL, where no injected failure holds the PLL, lets DT count
on ROOT again with a TIME_SOURCE change that ends the uncertainty gathered; on BRC DT stays coarse, disciplined from
the first window on. The return of XTAL takes the PLL off BRC and DT is coarse until it relocks. -/
def Obligations.ClockFailures : Prop :=
  (∀ t s, s.pwr.phase = .run → s.tb.refBrc = false → s.rsv.deepFlag = false → s.dbg.walkDone = false →
    Goes (.xtalFail t) s fun u =>
      u.pwr.phase = .held ∧ bit u.pwr.cause 6 = true ∧
      (levelNow s .clk = 1 ∨ levelNow s .clk = 2 →
        u.tb.refBrc = true ∧ u.tb.xtalFailF = true ∧ u.tb.coarse = true ∧ u.tb.pllLock = false ∧ u.tb.disc = false ∧
        u.tb.ssc = 0 ∧ u.tb.sscPend = none)) ∧
  (∀ t s, s.pwr.phase = .bootWait → s.tb.refBrc = false →
    Goes (.xtalFail t) s fun u =>
      u.pwr = { s.pwr with clkSrc190 := true } ∧ u.tb.refBrc = true ∧ u.tb.xtalFailF = s.tb.xtalFailF ∧ u.tb.coarse = true ∧
      u.tb.pllLock = false ∧ u.tb.disc = false ∧ u.tb.ssc = 0 ∧ u.tb.sscPend = none ∧ Within [.tb, .pwr] s u) ∧
  (∀ t s, s.pwr.phase = .run → s.tb.refBrc = false → s.tb.pllLock = true → s.dbg.walkDone = false →
    Goes (.pllUnlock t) s fun u =>
      u.tb.pllUnlockF = true ∧ u.tb.pllLock = false ∧ u.tb.coarse = true ∧ u.tb.xtalFailF = s.tb.xtalFailF ∧
      Within [.tb] s u) ∧
  (∀ t s, s.pwr.phase = .run → s.tb.refBrc = false → s.tb.pllLock = false → s.rsv.deepFlag = false → s.dbg.walkDone = false →
    Goes (.pllUnlockTimeout t) s fun u => u.pwr.phase = .held ∧ bit u.pwr.cause 6 = true) ∧
  (∀ t k s, s.pwr.phase = .run → s.tb.pllLock = false → s.clkHeld 1 = false → (let a := tidePass k s
    Goes (.pllRelocked t k) s fun u =>
      u.tb.pllLock = true ∧ u.tb.coarse = (s.tb.refBrc && s.tb.coarse) ∧ u.tb.disc = (s.tb.refBrc || s.tb.disc) ∧
      u.rsv = a.rsv ∧ u.tb.unc = 0)) ∧
  (∀ t s, s.pwr.phase = .run → s.tb.refBrc = true → (advanceTo t s).clkHeld 0 = false →
    Goes (.xtalRestore t) s fun u =>
      u.tb.refBrc = false ∧ u.tb.disc = false ∧ u.tb.pllLock = false ∧ u.tb.coarse = true ∧ u.tb.unc = 0 ∧
      u.tb.dt = (advanceTo t s).tb.dt ∧ u.rsv = s.rsv)

/-- EPOCH_ZERO sets DT and the tide counter to 0, takes the new epoch from NV and latches the pair at zero
(02_time.md, R43, R44). When an epoch start is under way and the Farrier, which starts it, runs, EPOCH_ZERO sets DT,
its fraction and the tide count to 0, EPOCH_RUN to the epoch in the NV block, and latches the tide pair at DT 0 and
tide 0; with no epoch start under way, or without the Farrier, it changes nothing. -/
def Obligations.EpochStart : Prop :=
  (∀ s c l, s.rcd.epochPend = some (c, l) → s.farrierWrites = true →
    Goes .epochZero s fun u =>
      u.tb.dt = 0 ∧ u.tb.frac = 0 ∧ u.tb.epochRun = s.nv.epoch ∧ u.rsv.tide = 0 ∧ u.rsv.tpDt = 0 ∧ u.rsv.tpTide = 0 ∧
      u.rsv.tpValid = true ∧ u.rsv.tpSleep = false) ∧
  (∀ s, s.rcd.epochPend = none ∨ s.farrierWrites = false → exec .epochZero s = .next s)

/-! ### Power, reset and supplies -/

/-- Sleep entry, its latch, the wake latches and the wake ladder move the power state as their steps say (02_time.md,
R32, R33, R34, R35, R40, 16_reset_power.md, R371, R372, 15_interrupts.md, R349, R350, R354). Sleep entry begins once a
sleep command is pending, CSN is high, no request is open, no probe run is under way and the Farrier is not halted,
and arms the park mask. Its latch takes the tide pair with TP_SLEEP at this tide edge, ends the pending command and
goes to SLEEP (DT on the tide source, the PLL unlocked, every gate and the charge pump off) or to DEEP; with a park
interval it sets the alarm. An armed input's edge sets its wake latch, and no other, and in SLEEP starts the wake
ladder, whose steps follow one another: PLL lock; reseed of DT with the coarse DT of the tide edge, on BRC still
coarse, owing the GAP entry of that edge; release of the clocks with every arm cleared, the entries owed written and,
where it is no park wake, GATE_H open and the park cycle ended. While DT runs coarsely each tide edge adds its
increment and 1 to the tide count and samples the pads; in DEEP and in a held level 0 or 1 reset only the count moves.
-/
def Obligations.SleepAndWakeLadder : Prop :=
  (∀ s, s.pwr.phase = .run → s.far.sleepPend.isSome = true → s.host.reqBusy = 0 → s.probing = false → s.far.halted = false →
    exec (.sleepEntryBegin true) s =
      .next { s with pwr := { s.pwr with phase := .sleepEntry }, rsv := { s.rsv with arm := s.ps.parkMask } }) ∧
  (∀ t k s, s.pwr.phase = .sleepEntry → s.ps.parkInt = 0 → s.rsv.talarmEn = false → (let a := tidePass k (advanceTo t s)
    Goes (.sleepTideLatch t k) s fun u =>
      u.rsv.tpDt = a.tb.dt ∧ u.rsv.tpTide = u.rsv.tide ∧ u.rsv.tide = a.rsv.tide ∧
      u.rsv.tpValid = true ∧ u.rsv.tpSleep = true ∧ u.far.sleepPend = none ∧
      (s.far.sleepPend ≠ some 2#2 → u.pwr = { s.pwr with phase := .sleep } ∧ u.tb.coarse = true ∧ u.tb.pllLock = false ∧
        u.tb.refreshOn = false ∧ u.link.hg = 0 ∧ u.link.lg = 0 ∧ u.link.cpRun = false ∧ u.link.cpReady = false ∧
        u.thr = a.thr ∧ u.units = a.units) ∧
      (s.far.sleepPend = some 2#2 → u.pwr.phase = .deep ∧ u.rsv.deepFlag = true))) ∧
  (∀ t k s, s.pwr.phase = .sleepEntry → s.ps.parkInt ≠ 0 →
    Goes (.sleepTideLatch t k) s fun u =>
      u.rsv.talarm = (if s.ps.parkRun then s.ps.parkAlarm else (tidePass k (advanceTo t s)).rsv.tide) +
        BitVec.ofNat 48 (tideCounts s s.ps.parkInt.toNat)) ∧
  (∀ (w : Fin 11) r s, edgeTaken s w r = true → s.pinsCut = false ∨ w = 2 → bit s.rsv.arm w.val = true → s.pwr.phase = .sleep →
    Goes (.wakeLatchSet w r) s fun u =>
      u.pwr = { s.pwr with phase := .wakePll } ∧ (∀ i : Fin 11, bit u.rsv.wk i.val = (decide (i = w) || bit s.rsv.wk i.val)) ∧
      Within [.pwr, .rsv] s u) ∧
  (∀ (w : Fin 11) r s, edgeTaken s w r = false ∨ bit s.rsv.arm w.val = false ∨ (s.pinsCut = true ∧ w ≠ 2) →
    exec (.wakeLatchSet w r) s = .next s) ∧
  (∀ s, s.pwr.phase = .wakePll → s.clkHeld 1 = false →
    exec .wakePllLock s = .next { s with pwr := { s.pwr with phase := .wakeLocked }, tb := { s.tb with pllLock := true } }) ∧
  (∀ k s, s.pwr.phase = .wakeLocked → s.tb.coarse = true → passed k s.rsv.tide = true →
    Goes (.wakeReseed k) s fun u =>
      u.pwr.phase = .wakeReseeded ∧ u.tb.coarse = s.tb.refBrc ∧ u.rsv.tide = k ∧
      u.tb.acc = s.tb.acc + BitVec.ofNat 96 ((k - s.rsv.tide).toNat * coarseInc s) ∧
      (s.dbg.walkDone = false → ∃ e, u.tb.gapDue.getLast? = some e ∧ e.kind = 2 ∧ e.source = 1 ∧ e.dt = u.tb.dt)) ∧
  (∀ t s, s.pwr.phase = .wakeReseeded → s.tb.pllLock = true → s.dbg.walkDone = false → s.far.halted = false → s.tb.gapDue ≠ [] →
    s.parkWake = false →
    Goes (.domainClocksRelease t) s fun u =>
      u.pwr = { s.pwr with phase := .run } ∧ u.rsv.arm = 0 ∧ u.tb.refreshOn = true ∧ u.tb.dt = (advanceTo t s).tb.dt ∧
      u.host.hwdAt = u.tb.dt ∧ u.tb.gapDue = [] ∧ u.irq.gateH = true ∧ u.ps.parkInt = 0 ∧
      (∀ e, s.tb.gapDue = [e] → s.rcd.due = [] → CanRecord s → Recorded e s u)) ∧
  (∀ pads pz s, s.tb.coarse = true → s.pwr.phase ≠ .deep → s.pwr.phase ≠ .held ∨ s.pwr.level = 2 →
    Goes (.coarseTideEdge pads pz) s fun u =>
      u.tb.acc = s.tb.acc + BitVec.ofNat 96 (coarseInc s) ∧ u.rsv.tide = s.rsv.tide + 1 ∧ u.pad = pads &&& ~~~pz ∧ u.padZ = pz) ∧
  (∀ pads pz s, s.pwr.phase = .deep ∨ (s.pwr.phase = .held ∧ s.pwr.level ≠ 2) →
    Goes (.coarseTideEdge pads pz) s fun u => u.rsv.tide = s.rsv.tide + 1 ∧ u.tb.dt = s.tb.dt ∧ u.pad = s.pad) ∧
  (∀ pads pz s, s.tb.coarse = false → s.pwr.phase ≠ .deep → s.pwr.phase ≠ .held → exec (.coarseTideEdge pads pz) s = .next s)

/-- Each reset source holds the device at its level and sets its cause bit; what each level clears (16_reset_power.md,
R355, R356, R357, R358, R359, R375, 17_health.md, R382, 14_farrier_commands.md, R323). Outside DEEP each reset source
(power-on, brown-out, a pin pulse of 10 us or more where the pins are not cut by the debug port, watchdog at 10 ms, a
write of A5C3 to SWRST, RESET's reply timeout at 100 ms, DBGRST, clock failure in RUN, lockstep) holds the device at
the level that its default or the fuse map gives it now, and sets its cause bit. A pin pulse under 2 us or on a pin
that is cut, another word to SWRST, a reply timeout without a RESET pending, a clock failure outside RUN do nothing,
and no source acts in DEEP. From RUN a level 2 reset leaves the timebase, the host interface and NV, frees every
thread but not its local memory, empties the spillway and stops the Farrier; a level 1 reset keeps NV, the calibration
in use, the pads and the queue of the record and gives units, harnesses, basins, the crossings, the host interface and
the interrupt controller their reset values and ends an access of the debug port; level 0 clears the cause bits but
its own, the debug port and the clock flags besides. -/
def Obligations.ResetSourcesHold : Prop :=
  (∀ s, s.pwr.phase ≠ .deep → s.rsv.deepFlag = false →
    Goes .poReset s (HeldBy .po s) ∧ Goes .boReset s (HeldBy .bo s) ∧ Goes .lockReset s (HeldBy .lock s) ∧
    Goes (.swrstWrite 0xA5C3) s (HeldBy .sw s) ∧ (s.pinsCut = false → ∀ w, 10000 ≤ w → Goes (.pinReset w) s (HeldBy .pin s)) ∧
    (s.pwr.phase = .run → Goes .clkReset s (HeldBy .clk s)) ∧
    (s.tapOn = true → s.dbgOpen = true → Goes .dbgrst s (HeldBy .dbg s)) ∧
    (∀ t, s.far.rstPend = true → s.far.halted = false → 160000000 ≤ ((advanceTo t s).tb.dt - s.far.rstAt).toNat →
      Goes (.resetReplyTimeout t) s (HeldBy .sw s)) ∧
    (∀ t, (advanceTo t s).wdtRuns = true → 16000000 ≤ (advanceTo t s).wdtTicks → Goes (.wdgReset t) s (HeldBy .wdg s))) ∧
  (∀ s w, w < 2000 ∨ s.pinsCut = true → exec (.pinReset w) s = .next s) ∧
  (∀ t s, s.far.rstPend = false ∨ s.far.halted = true → exec (.resetReplyTimeout t) s = .next s) ∧
  (∀ s v, v ≠ 0xA5C3 → exec (.swrstWrite v) s = .next s) ∧
  (∀ s, s.pwr.phase ≠ .run → exec .clkReset s = .next s) ∧
  (∀ s, s.pwr.phase = .deep → exec .boReset s = .next s ∧ exec .lockReset s = .next s) ∧
  (∀ s, s.pwr.phase = .run → s.rsv.deepFlag = false →
    (levelNow s .lock = 2 → Goes .lockReset s fun u =>
      u.tb = s.tb ∧ u.host = s.host ∧ u.nv = s.nv ∧ u.far.running = false ∧ u.irq.actF = 0 ∧
      (∀ t : Tid, u.thr[t].st = .free ∧ u.thr[t].ctx.tlm = s.thr[t].ctx.tlm) ∧ (∀ i : Fin 256, u.spw.ent[i].valid = false)) ∧
    (levelNow s .lock = 1 → Goes .lockReset s fun u =>
      u.nv = s.nv ∧ u.cal = s.cal ∧ u.rcd.q = s.rcd.q ∧ u.pad = s.pad ∧ u.units = State.reset.units ∧ u.har = State.reset.har ∧
      u.bas = State.reset.bas ∧ u.host = State.reset.host ∧ u.irq = State.reset.irq ∧ u.xing = State.reset.xing ∧
      u.dbg = { s.dbg with memBusy := false, walkDone := false } ∧
      u.tb.refBrc = s.tb.refBrc ∧ u.tb.dt = 0 ∧ u.fsh.map = s.fsh.map ∧ u.fsh.dbgLock = true) ∧
    (levelNow s .lock = 0 → Goes .lockReset s fun u =>
      u.nv = s.nv ∧ u.rcd.q = s.rcd.q ∧ u.units = State.reset.units ∧ u.dbg = Debug.reset ∧ u.pwr.cause = 0x80 ∧
      u.tb.xtalFailF = false ∧ u.tb.pllUnlockF = false ∧ u.tb.refBrc = false))

/-- The release of a reset boots or restarts; the supplies, the watchdog warning and its service act as their rules
say (16_reset_power.md, R357, R362, R363, R367, R373, 17_health.md, R382, R399). The release of a held reset of level
0 or 1 takes the fuses and the calibration from NV, the crystal or BRC as the reference, and goes to RUN, to the boot
wait where BOOT_SRC says so, or halts; that of level 2 goes to RUN and takes neither. With VBAT absent, or with no
reset held, it does nothing. VBAT_LOSS moves VRES to VBAK; its return raises PO unless the device is in SLEEP or DEEP,
and in DEEP with its latch armed it starts a boot; with VBAT absent a reservoir loss clears the reservoir and retained
memory and marks them unpowered. At 8 ms without service the warning is raised once; a service with 5A starts the
count again, and another byte does nothing. -/
def Obligations.ReleaseAndSupplies : Prop :=
  (∀ t k x par s, s.pwr.phase = .held → s.pwr.vbat = true → s.pwr.level ≠ 2 →
    Goes (.resetRelease t k x par) s fun u =>
      u.fsh = { map := s.nv.fuseMap, mapLock := s.nv.mapLock, bootSrc := s.nv.bootSrc, dbgLock := s.nv.dbgLock } ∧
      u.cal = (calCheck s.nv.cal s.nv.calBad).1 ∧ u.tb.refBrc = !x ∧ u.tb.pllLock = true ∧
      (u.pwr.phase = .run ∨ u.pwr.phase = .bootWait ∨ u.pwr.phase = .bootHalt) ∧
      (s.haltsOnReset = false → s.nv.bootSrc = false → u.pwr.phase = .run)) ∧
  (∀ t k x par s, s.pwr.phase = .held → s.pwr.vbat = true → s.pwr.level = 2 →
    Goes (.resetRelease t k x par) s fun u => u.pwr.phase = .run ∧ u.fsh = s.fsh ∧ u.cal = s.cal) ∧
  (∀ t k x par s, s.pwr.phase ≠ .held ∨ s.pwr.vbat = false → exec (.resetRelease t k x par) s = .next s) ∧
  (∀ s, exec .vbatLoss s =
    .next { s with pwr := { s.pwr with vbat := false }, rsv := { s.rsv with vresSrc := true } }) ∧
  (∀ s, s.pwr.vbat = false → s.pwr.phase ≠ .deep → s.pwr.phase ≠ .sleep → s.rsv.deepFlag = false →
    Goes .vbatReturn s fun u => HeldBy .po s u ∧ u.pwr.vbat = true) ∧
  (∀ s, s.pwr.vbat = false → s.pwr.phase = .deep → s.rsv.deepFlag = true → bit s.rsv.arm 2 = true →
    Goes .vbatReturn s fun u =>
      u.pwr.vbat = true ∧ bit u.rsv.wk 2 = true ∧ u.pwr.phase = .held ∧ u.pwr.level = 0 ∧ u.pwr.wakeBoot = true ∧
      u.rsv.resLost = (s.rsv.resLost || !s.rsv.powered)) ∧
  (∀ s, s.pwr.vbat = false →
    Goes .reservoirLoss s fun u =>
      u.rsv = { Reservoir.reset with powered := false, vresSrc := true } ∧ u.rcd = RecordQ.reset ∧ u.ps = ProbeSys.reset ∧
      u.tb = Timebase.reset ∧ (∀ p : Fin 16, u.prb[p] = Probe.reset) ∧
      u.pwr.phase = .held ∧ u.pwr.level = 0 ∧ u.pwr.vbat = false ∧ u.nv = s.nv) ∧
  (∀ s, s.pwr.vbat = true → exec .reservoirLoss s = .next s) ∧
  (∀ t s, (advanceTo t s).wdtRuns = true → s.far.wdtWarned = false → 12800000 ≤ (advanceTo t s).wdtTicks →
    Goes (.wdgWarning t) s fun u => u.far.wdtWarned = true ∧ Latched 218 u ∧ u.pwr = s.pwr) ∧
  (∀ s, s.hlt.wdtInj = false →
    exec (.wdtService 0x5A) s = .next { s with far := { s.far with
      wdtAt := s.tb.dt, wdtStop := s.far.wdtStop.map fun _ => s.tb.dt, wdtWarned := false } }) ∧
  (∀ s v, v ≠ 0x5A → exec (.wdtService v) s = .next s)

/-! ### The internal bus, the link and event dispatch -/

/-- Event time is DT bits 45:0 with two fine bits; when a compare value is passed (R25). The event time of now is DT bits
45:0 with the two fine bits of now appended; a compare value C is passed at now exactly when (now − C) mod 2^48 is
below 2^47, and a value equal to now is passed. -/
def Obligations.EventTimeOrder : Prop :=
  (∀ s : State, fld s.nowEv 2 46 = fld s.tb.dt 0 46 ∧ fld s.nowEv 0 2 = fld s.tb.frac 30 2) ∧
  (∀ now c : EvTime, passed now c = true ↔ (now.toNat + 2 ^ 48 - c.toNat) % 2 ^ 48 < 2 ^ 47) ∧
  (∀ now : EvTime, passed now now = true)

/-- The CRC-8 of the link, bit by bit and at its check value (R289). The link's CRC of no byte is the initial value FF
after the final XOR with FF; each further byte enters the value before that XOR, and each of its eight bits from the
top shifts it left by one and, where the top bit was set, adds the polynomial 1D; the check value of 123456789 is 4B. -/
def Obligations.LinkCrcIsCrc8 : Prop :=
  crc8 [] = 0xFF ^^^ 0xFF ∧
  (∀ (l : List Byte) (b : Byte) (bitStep : Byte → Byte), (∀ c, bitStep c = if c.msb then (c <<< 1) ^^^ 0x1D else c <<< 1) →
    crc8 (l ++ [b]) = Nat.repeat bitStep 8 ((crc8 l ^^^ 0xFF) ^^^ b) ^^^ 0xFF) ∧
  crc8 [0x31, 0x32, 0x33, 0x34, 0x35, 0x36, 0x37, 0x38, 0x39] = 0x4B

/-- What a read of a register changes: high words latch, RC counters clear, FULL bits clear; unmapped addresses stop
(00_scope.md, R8, R13, 02_time.md, R50, 04_channels.md, R93, R101, 11_probes.md, R271). A read of DT_LO latches the
high word and the fine bits; a read of a unit's CAPR_LO latches the high half of its capture. Reads of CAPR_HI,
CAPF_HI and PW clear the FULL bits their rule names; a read of RATIO clears the result's FULL bit. A read of an RC
counter (of TERR_REJ, of a unit's REJ, of the two that share a word of the spillway) clears it, or leaves 1 where it
was incremented in the same cycle. Nothing else changes. At an address that lies in no block each register access is
the fault of that address. -/
def Obligations.RegisterReadsLatchAndClear : Prop :=
  (∀ s, exec (.loWordLatchRead 0x42000008) s =
    .next { s with tb := { s.tb with dtHi := fld s.tb.dt 32 32, fineL := fld s.tb.frac 30 2 } }) ∧
  (∀ (u : UnitId) s, exec (.loWordLatchRead (BitVec.ofNat 32 (0x20000000 + 0x100 * u.val + 0x34))) s =
    .next (s.modUnit u fun c => { c with cap := { c.cap with capRHiL := fld c.cap.capR 32 16 } })) ∧
  (∀ (u : UnitId) s, exec (.capHiRead u false) s = .next (s.modUnit u fun c => { c with cap := { c.cap with fullR := false } })) ∧
  (∀ (u : UnitId) s, exec (.capHiRead u true) s =
    .next (s.modUnit u fun c =>
      { c with cap := { c.cap with fullF := false, fullR := c.cap.fullR && c.capm != 2#2 } })) ∧
  (∀ (u : UnitId) s, exec (.pwRead u) s =
    .next (s.modUnit u fun c => { c with cap := { c.cap with fullR := false, fullF := false } })) ∧
  (∀ inc mx s, exec (.rcFieldRead 0x4200002C inc mx) s =
    .next { s with tb := { s.tb with terrRej := if bit inc 0 then 1 else 0 } }) ∧
  (∀ (u : UnitId) inc mx s, exec (.rcFieldRead (BitVec.ofNat 32 (0x20000000 + 0x100 * u.val + 0x54)) inc mx) s =
    .next (s.modUnit u fun c => { c with cap := { c.cap with rej := if bit inc 0 then 1 else 0 } })) ∧
  (∀ inc mx s, exec (.rcFieldRead 0x24000004 inc mx) s =
    .next (s.modSpw fun k => { k with confirmed := if bit inc 0 then 1 else 0, late := if bit inc 1 then 1 else 0 })) ∧
  (∀ p s, exec (.ratioRead p) s = .next (s.modPrb p fun r => { r with full := false })) ∧
  (∀ a v hw inc mx s, blockOf a = none →
    exec (.loWordLatchRead a) s = .fault (.noRegister a) ∧ exec (.rcFieldRead a inc mx) s = .fault (.noRegister a) ∧
    exec (.registerWrite a v hw) s = .fault (.noRegister a))

/-- A register write changes the register it names and no other; writes of a power harness travel the link
(00_scope.md, R8, R11, R12, 03_crossings.md, R57, 04_channels.md, R69, R102, 08_power_harnesses.md, R213,
16_reset_power.md, R376). A write of a TIO control word sets the 12 bits of that pin and touches no unit that does not
read it; a write of a unit's TRIM word sets its two trims; a write of a timing flag word clears the flags written as
1, but for one that hardware sets in the same cycle or that an injected failure of TRC holds; a write of a word of
basin memory stores its four bytes at that offset, low byte first, and every other byte reads as before; a write of
the pre-driver settings of a power harness joins the queue of the link and changes no harness; a write of a backup
register below 24 is its value. Nothing else changes. -/
def Obligations.RegisterWritesReachTheirRegister : Prop :=
  (∀ (k : Fin 40) v hw s, Goes (.registerWrite (BitVec.ofNat 32 (0x20004400 + 4 * k.val)) v hw) s fun t =>
    t.tio = s.tio.set k (v &&& 0xFFF) ∧ (∀ u : UnitId, s.units[u].insel.toNat ≠ k.val → t.units[u] = s.units[u]) ∧
    t.har = s.har ∧ t.link = s.link ∧ t.tb = s.tb ∧ t.rsv = s.rsv) ∧
  (∀ (u : UnitId) v hw s, exec (.registerWrite (BitVec.ofNat 32 (0x20000000 + 0x100 * u.val + 0x60)) v hw) s =
    .next (s.modUnit u fun c => { c with trimRise := fld v 0 10, trimFall := fld v 16 10 })) ∧
  (∀ v hw s, (let clears (i : Nat) : Bool := bit v i && !bit hw i
    exec (.registerWrite 0x42000028 v hw) s =
    .next { s with
      tb := { s.tb with xtalFailF := s.tb.xtalFailF && !clears 0, pllUnlockF := s.tb.pllUnlockF && !clears 1,
                        terrRange := s.tb.terrRange && !clears 4 }
      rsv := { s.rsv with tideFail := s.rsv.tideFail && !clears 2, trcFail := s.rsv.trcFail && !(clears 3 && !s.clkHeld 3) } })) ∧
  (∀ off v hw s, off < 0x40000 → off % 4 = 0 → Memory.wf s.bmem = true →
    Goes (.registerWrite (BitVec.ofNat 32 (0x30000000 + off)) v hw) s fun t =>
      memBytes t.bmem off 4 = [fld v 0 8, fld v 8 8, fld v 16 8, fld v 24 8] ∧
      (∀ a, a < off ∨ off + 4 ≤ a → memGet t.bmem a = memGet s.bmem a) ∧ Within [.bmem, .hlt] s t) ∧
  (∀ (h : HarnessId) v hw s, s.har[h].power = true →
    exec (.registerWrite (BitVec.ofNat 32 (0x21000000 + 0x100 * h.val + 0x14)) v hw) s =
      .next { s with link := { s.link with
        queue := s.link.queue ++ [(BitVec.ofNat 32 (0x21000000 + 0x100 * h.val + 0x14), v)] } }) ∧
  (∀ (i : Fin 32) v hw s, i.val < 24 →
    exec (.registerWrite (BitVec.ofNat 32 (0x50000000 + 4 * i.val)) v hw) s =
      .next { s with rsv := { s.rsv with backup := s.rsv.backup.set i v } })

/-- The Ostler takes the oldest event of a crossing and routes it to mirror, thread, tracker and basin (05_ostler.md,
R111, R112, 07_microcode.md, R160, R166, 06_spillway.md, R140, 10_gait.md, R232). With time at the instant, where it
is the crossing's turn, its oldest event leaves the FIFO and, where no motor program hears it, no other crossing
changes; the capture mirror of its channel takes what it carries, and a capture of a tracker's wheel channel waits for
that tracker. A match or boundary event of a channel bound to a thread that is READY with room enters that thread's
queue as KIND 1 with the channel, the event and its stamp, and wakes the engine; unbound and without a post it changes
nothing more. Where it is not the crossing's turn, nothing changes. -/
def Obligations.CrossingEventsAreRouted : Prop :=
  (∀ t (x : Fin 68) s e r, (let x' : Fin 70 := ⟨x.val, by omega⟩; let l : Lch := bvFin 64 rfl e.lch
      dispatchTurn (advanceTo t s) x = true → s.xing[x'].fifo = e :: r → e.what.toNat ≤ 5 →
      (Goes (.eventDispatch t x) s fun u =>
        u.lmap = vmod s.lmap l (fun m => { m with mir := m.mir.take e }) ∧ u.tb = (advanceTo t s).tb ∧
        (e.what.toNat < 3 ∨ (∀ h : HarnessId, s.har[h].mot.prog ≠ .bridge) →
          u.xing = vmod s.xing x' (fun k => { k with fifo := r }) ∧ u.units = s.units)) ∧
      (∀ n : Fin 2, 3 ≤ e.what.toNat → s.gt[n].gs ≠ .off → s.gt[n].wheelCh = l → (∀ h : HarnessId, s.har[h].mot.prog ≠ .bridge) →
        Goes (.eventDispatch t x) s fun u => u.gt[n].inbox = s.gt[n].inbox ++ [e]) ∧
      (∀ tid : Tid, e.what.toNat < 3 → e.post = none → s.lmap[l].open_ = true → s.lmap[l].tbind = true →
        bvFin 64 rfl s.lmap[l].tid = tid → s.thr[tid].st = .ready → s.thr[tid].evq.length < 8 →
        Goes (.eventDispatch t x) s fun u =>
          u.thr = vmod s.thr tid (fun k => { k with evq := k.evq ++
            [{ kind := 1, src := e.lch.zeroExtend 8, arg := e.what.zeroExtend 16, data := 0, time := e.stamp }] }) ∧
          u.eng[slotEng s.thr[tid].slot].doze = false ∧ Within [.tb, .xing, .lmap, .ost, .thr, .eng] s u) ∧
      (e.what.toNat < 3 → e.post = none → s.lmap[l].open_ = false ∨ s.lmap[l].tbind = false →
        Goes (.eventDispatch t x) s fun u => Within [.tb, .xing, .lmap, .ost] s u))) ∧
  (∀ t (x : Fin 68) s, dispatchTurn (advanceTo t s) x = false → exec (.eventDispatch t x) s = .next s)

/-- The die-to-die link carries queued writes, counts its repeats and reports the faults of the P-die
(03_crossings.md, R57, R58, R59, 08_power_harnesses.md, R207, R209, 14_farrier_commands.md, R326). A write frame takes
the oldest write off the link's queue, ends the count of repeats and puts the word into its harness, and where it is
the last write of an H_CFG its reply is written; with an empty queue nothing changes. A frame that fails its CRC is
repeated and counted up to three times and then sets LINK_FAULT, is dropped, and puts every power harness in FAULT. A
fault frame carries the flag of a cut or an open load: one with an open-load or peak code sets that member's flag,
counts code 8 and touches no unit, one with a cut's code puts the harness in FAULT with its windows closed; each ends
the silence of the link. A frame without such a flag or of a harness without drivers changes nothing. -/
def Obligations.LinkFramesAndFaultFrames : Prop :=
  (∀ s, s.link.queue = [] → exec .linkWriteFrame s = .next s) ∧
  (∀ (h : HarnessId) v r s, s.link.queue = (BitVec.ofNat 32 (0x21000000 + 0x100 * h.val + 0x14), v) :: r →
    harRefused s h 0x14 v = false → s.link.cfgReply = none →
    exec .linkWriteFrame s =
      .next { s with link := { s.link with queue := r, tries := 0 }
                     har := vmod s.har h fun k => { k with w14 := v &&& 0x0FFF00FF } }) ∧
  (∀ (h : HarnessId) v r c s, s.link.queue = (BitVec.ofNat 32 (0x21000000 + 0x100 * h.val + 0x14), v) :: r →
    harRefused s h 0x14 v = false → s.link.cfgReply = some c → c.left = 1 → s.farrierUp = true →
    exec .linkWriteFrame s =
      .next (writeReply (bvFin 8 rfl c.mb) 0x32 c.tag (if c.bad then 0x14 else 0) []
        { s with link := { s.link with queue := r, tries := 0, cfgReply := none }
                 har := vmod s.har h fun k => { k with w14 := v &&& 0x0FFF00FF } })) ∧
  (∀ t own s, own = false ∨ s.link.queue ≠ [] → s.link.failed own < 3 →
    exec (.linkFrameCrcFail t own) s =
      .next { advanceTo t s with link := { s.link with tries := s.link.failed own + 1, tryOwn := own, retry := satInc s.link.retry } }) ∧
  (∀ t own s, own = false ∨ s.link.queue ≠ [] → ¬ s.link.failed own < 3 →
    Goes (.linkFrameCrcFail t own) s fun u =>
      u.link.fault = true ∧ u.link.tries = 0 ∧ u.link.queue = (if own then s.link.queue.drop 1 else s.link.queue) ∧
      ∀ h : HarnessId, s.har[h].power = true → u.har[h].hstate = .fault ∧ bit u.har[h].flt 13 = true) ∧
  (∀ t s, s.link.queue = [] → exec (.linkFrameCrcFail t true) s = .next s) ∧
  (∀ t (h : HarnessId) (code member : Byte) sense s, s.har[h].power = true → flagDue s h code member sense = true →
    (code = 8 ∨ code = 9 → Goes (.faultFrame t h code member sense) s fun u =>
      bit u.har[h].flt (faultBit code.toNat member.toNat) = true ∧ u.har[h].hstate = s.har[h].hstate ∧
      u.har[h].openCnt = (if code = 8 then satInc s.har[h].openCnt else s.har[h].openCnt) ∧ u.link.silent = false ∧
      u.units = s.units) ∧
    (code.toNat < 8 → Goes (.faultFrame t h code member sense) s fun u =>
      bit u.har[h].flt (faultBit code.toNat member.toNat) = true ∧ u.har[h].hstate = .fault ∧ u.har[h].actPend = false ∧
      u.har[h].win = 0 ∧ u.har[h].phase = 0 ∧ u.har[h].cut = false ∧ u.har[h].flag = none ∧ u.link.silent = false)) ∧
  (∀ t h code member sense s, s.har[h].power = false ∨ flagDue s h code member sense = false →
    exec (.faultFrame t h code member sense) s = .next s)

/-! ### Channel units -/

/-- CTRL_WRITE, CHANNEL_ENABLE and CHANNEL_DISABLE: a refused word sets CFG_ERR alone; an accepted one is in force, EN
starting or stopping the counter (04_channels.md, R72, R73, R74, R79). A CTRL word that is refused is ignored
entirely: CFG_ERR is set on the unit and nothing else changes. A change of MODE while EN is 1 and stays 1 is refused.
An accepted word is the CTRL register, its Reserved bits 0, with level, flags and every other unit unchanged. EN going
1 to 0 disarms both compares in free mode and holds the counter's position in local mode. EN going 0 to 1 takes PRD in
force, clears SAFE_HELD and, in local mode, places PORG so that the counter runs on from CNT. -/
def Obligations.ChannelControlWrites : Prop :=
  (∀ (u : UnitId) v (s : State), (s.units[u].ctrlRefused (v &&& ctrlMask) = true →
      ∀ c : Instr, (c = .ctrlWrite u v ∨ c = .channelDisable u v) →
      exec c s = .next { s with units := vmod s.units u fun k => { k with flags := setBit k.flags 9 true } })) ∧
  (∀ (u : UnitId) (v : W32) (s : State), s.units[u].en = true → bit v 0 = true → fld v 1 2 ≠ s.units[u].mode →
      s.units[u].ctrlRefused (v &&& ctrlMask) = true) ∧
  (∀ (u : UnitId) v (s : State), s.units[u].ctrlRefused (v &&& ctrlMask) = false →
      ∀ c : Instr, (c = .ctrlWrite u v ∨ c = .channelDisable u v) → Goes c s fun t =>
        t.units[u].ctrl = v &&& ctrlMask ∧ t.units[u].level = s.units[u].level ∧ t.units[u].act = s.units[u].act ∧
        (∀ j, j ≠ u → t.units[j] = s.units[j]) ∧ Within [.units] s t) ∧
  (∀ (u : UnitId) v (s : State), s.units[u].ctrlRefused (v &&& ctrlMask) = false → bit v 0 = false → s.units[u].en = true →
      Goes (.channelDisable u v) s fun t =>
        t.units[u].en = false ∧
        (s.units[u].mode = 0 → t.units[u].armA = false ∧ t.units[u].armB = false) ∧
        (s.units[u].mode ≠ 0 → t.units[u].cnt = (s.units[u].position s.nowEv).1 ∧ t.units[u].dir = (s.units[u].position s.nowEv).2)) ∧
  (∀ at_ (u : UnitId) v (s : State), (let a := advanceTo at_ s
      a.units[u].ctrlRefused (v &&& ctrlMask) = false → bit v 0 = true → a.units[u].en = false → a.units[u].lock = false →
      Goes (.channelEnable at_ u v) s fun t =>
        t.tb = a.tb ∧ t.units[u].en = true ∧ t.units[u].ctrl = v &&& ctrlMask ∧ t.units[u].safeHeld = false ∧
        t.units[u].prdRun = a.units[u].prd ∧ t.units[u].cnt = a.units[u].cnt ∧
        (fld v 1 2 = (1 : BitVec 2) → t.units[u].dir = false ∧ t.units[u].porg = a.nowEv - BitVec.ofNat 48 (8 * a.units[u].cnt.toNat)) ∧
        (fld v 1 2 = (2 : BitVec 2) → t.units[u].dir = true ∧
          t.units[u].porg = a.nowEv - BitVec.ofNat 48 (8 * (a.units[u].prd.toNat - a.units[u].cnt.toNat))) ∧
        (∀ j, j ≠ u → t.units[j] = s.units[j]) ∧ Within [.units, .tb] s t))

/-- CMP_LO_WRITE, CMP_HI_WRITE, SHADOW_WRITE, DISARM_A and DISARM_B: staged halves, arming, shadows and their update
point (04_channels.md, R75, R76, R77, R81, R82, R84). The low-word write stages its half and changes no compare or
shadow. The high-word write takes both halves into the compare at once, arms it in free mode while EN is 1, and makes
it effective 4 FAB cycles later, 6 for a gate-command line; the other compare stands. A shadow write sets its value
and SHV; with UPD 0b000 and LOCK 0 its apply edge transfers it and clears SHV, a period of 0 being refused with
CFG_ERR. A disarm clears its ARM bit, keeps the edge at which it did, up to whose FAB cycle a match still comes about,
and changes nothing else. -/
def Obligations.ChannelCompareAndShadowWrites : Prop :=
  (∀ (u : UnitId) (w : Fin 4) v (s : State), exec (.cmpLoWrite u w v) s = .next { s with units := vmod s.units u fun k =>
      match w with
      | 0 => { k with cmpALo := v } | 1 => { k with cmpBLo := v } | 2 => { k with shALo := v } | 3 => { k with shBLo := v } }) ∧
  (∀ (u : UnitId) (b : Bool) (v : W16) (s : State), (let k := s.units[u]
      let w : EvTime := v ++ (if b then k.cmpBLo else k.cmpALo)
      Goes (.cmpHiWrite u b v) s fun t =>
        t.units[u].cmp b = w ∧ t.units[u].cmp (!b) = k.cmp (!b) ∧
        t.units[u].arm b = (k.arm b || (k.en && k.mode == 0#2)) ∧ t.units[u].arm (!b) = k.arm (!b) ∧
        t.units[u].eff b = false ∧ t.units[u].eff (!b) = k.eff (!b) ∧
        t.units[u].effT b = s.nowEv + (if k.held = true ∧ gateLine s k.lchId = true then 48 else 32) ∧
        t.units[u].level = k.level ∧ t.units[u].ctrl = k.ctrl ∧ (∀ j, j ≠ u → t.units[j] = s.units[j]) ∧ Within [.units] s t)) ∧
  (∀ (u : UnitId) (b : Bool) v (s : State), (let k := s.units[u]
      let w : EvTime := v.truncate 16 ++ (if b then k.shBLo else k.shALo)
      Goes (.shadowWrite u (if b then 1 else 0) v) s fun t =>
        (if b then t.units[u].shB else t.units[u].shA) = w ∧
        (if b then t.units[u].shvB else t.units[u].shvA) = (decide (k.upd ≠ 0) || k.lock) ∧
        t.units[u].cmp b = (if k.upd = 0 ∧ k.lock = false then w else k.cmp b) ∧
        (k.upd ≠ 0 ∨ k.lock = true → t.units[u].arm b = k.arm b ∧ t.units[u].prd = k.prd) ∧
        t.units[u].ctrl = k.ctrl ∧ t.units[u].level = k.level ∧ (∀ j, j ≠ u → t.units[j] = s.units[j]) ∧ Within [.units] s t)) ∧
  (∀ (u : UnitId) v (s : State), (let k := s.units[u]
      Goes (.shadowWrite u 2 v) s fun t =>
        t.units[u].prdSh = v ∧ t.units[u].shvP = (decide (k.upd ≠ 0) || k.lock) ∧
        t.units[u].prd = (if k.upd = 0 ∧ k.lock = false ∧ v ≠ 0 then v else k.prd) ∧
        (k.upd = 0 → k.lock = false → v = 0 → bit t.units[u].flags 9 = true) ∧
        t.units[u].prdRun = k.prdRun ∧ t.units[u].cnt = k.cnt ∧ t.units[u].ctrl = k.ctrl ∧
        (∀ j, j ≠ u → t.units[j] = s.units[j]) ∧ Within [.units] s t)) ∧
  (∀ (u : UnitId) (s : State), exec (.disarmA u) s = .next { s with units := vmod s.units u fun k => { k with armA := false, disA := if k.armA then some s.now else k.disA } } ∧
      exec (.disarmB u) s = .next { s with units := vmod s.units u fun k => { k with armB := false, disB := if k.armB then some s.now else k.disB } })

/-- FORCE_HIGH, FORCE_LOW and FORCE_SAFE: the level is driven at once; the safe level also stops the channel and
disarms it (04_channels.md, R71, R89, R94, R450). FORCE_HIGH drives the output of the unit high and FORCE_LOW low, at
once, from the high-impedance state too, its compares and CTRL standing. FORCE_SAFE drives the level of SAFE (low,
high or high-impedance; a gate-command line is off), sets SAFE_HELD, disarms both compares and clears EN. No output of
another unit changes in any case, and where the channel is no gate-command line no harness does, nor a unit whose
input is neither a pin nor its own output; where no input reads pins or outputs at all nothing else of the state
changes. -/
def Obligations.ChannelForces : Prop :=
  (∀ (u : UnitId) (b : Bool) (s : State), (let c : Instr := if b then .forceHigh u else .forceLow u
      let driven : ActCyc := { cyc := s.nowEv >>> 3, fall := s.nowEv, lv := b, hz := false, wait := false, forced := true }
      (Goes c s fun t => t.units[u].level = b ∧ t.units[u].hiz = false ∧ t.units[u].lastAct = some driven ∧
        (∀ j, j ≠ u → t.units[j].level = s.units[j].level ∧ t.units[j].hiz = s.units[j].hiz) ∧
        t.units[u].armA = s.units[u].armA ∧ t.units[u].armB = s.units[u].armB ∧ t.units[u].ctrl = s.units[u].ctrl ∧
        (gateLine s s.units[u].lchId = false → t.har = s.har ∧ t.link = s.link ∧
          ∀ j, j ≠ u → 40 ≤ s.units[j].insel.toNat → t.units[j] = s.units[j])) ∧
      (gateLine s s.units[u].lchId = false → (∀ j : UnitId, 40 ≤ s.units[j].insel.toNat ∧ s.units[j].insel ≠ 46) →
        exec c s = .next { s with units := vmod s.units u fun k =>
          { k with level := b, hiz := false, outOld := none, lastAct := some driven } }))) ∧
  (∀ (u : UnitId) (s : State), (let k := s.units[u]
      let gate : Bool := k.held && gateLine s k.lchId
      Goes (.forceSafe u) s fun t =>
        t.units[u].level = (!gate && k.safe == 1#2) ∧ t.units[u].hiz = (!gate && k.safe == 2#2) ∧
        t.units[u].safeHeld = true ∧ t.units[u].armA = false ∧ t.units[u].armB = false ∧ t.units[u].en = false ∧
        (∀ j, j ≠ u → t.units[j].level = s.units[j].level ∧ t.units[j].hiz = s.units[j].hiz) ∧
        (gateLine s k.lchId = false → t.har = s.har ∧ t.link = s.link ∧
          (∀ j, j ≠ u → 40 ≤ s.units[j].insel.toNat → t.units[j] = s.units[j]) ∧
          ((∀ j : UnitId, 40 ≤ s.units[j].insel.toNat ∧ s.units[j].insel ≠ 46) →
            (∀ j, j ≠ u → t.units[j] = s.units[j]) ∧ Within [.units] s t))))

/-- COMPARE_EFFECTIVE, COMPARE_MATCH, LOCAL_MATCH and PERIOD_BOUNDARY: action, disarm, notify event, transfers and
period origin at the matched time (04_channels.md, R75, R76, R79, R80, R82, R84, R85, R86, R87, R88, R89). Where the
event is the first due of its unit: a free-mode match disarms the compare, drives the level its action asks unless a
FORCE closed that FAB cycle, and, for a notify code other than 0, puts one event with the compare's time plus its trim
on the unit's crossing, where no input reads the output; with UPD 0b100 it takes the compare's pending shadow, which
is armed again. A compare that becomes effective already passed fires late, with LATE and the present time, and one
not passed only becomes effective. A local match acts at the crossing's time and is not due again there. At a boundary
PORG moves by the pass just ended, DIR takes the direction of the mode and the PRD then in force runs; with UPD 0b001
every pending shadow is transferred but one written in the FAB cycle of the boundary. At the top of an up/down pass
DIR turns. An event that is not due changes nothing. -/
def Obligations.ChannelMatches : Prop :=
  (∀ (at_ : Instant) (u : UnitId) (b : Bool) (s : State), (let a := advanceTo at_ s
      let k := a.units[u]
      let first := firstEvent (dueEvents a u)
      let code : BitVec 2 := fld k.act (if b then 12 else 10) 2
      let w := k.cmp b + k.trim (k.freeAct b)
      let e (stamp : EvTime) (late : Bool) : XEv := { XEv.reset with
        what := (if b then 1 else 0), stamp := stamp, lch := k.lch, post := (if code = 3 then some (fld k.act 18 6) else none),
        rflags := (if late then 1 else 0), at_ := a.now }
      let deaf := ∀ v : UnitId, 40 ≤ a.units[v].insel.toNat ∧ a.units[v].insel ≠ 46
      let forcedIn (t : EvTime) : Bool := k.lastAct.any fun p => p.forced && p.cyc == t >>> 3
      let drives (t : EvTime) (act : BitVec 2) : Bool := if forcedIn t then k.level else (k.actTarget act).getD k.level
      let room := (a.xing[u.val].settle ⟨u.val, by omega⟩ a.now).fifo
      let taken (edge : Instant) (pend : Bool) : Bool := pend && !sameCycle (if b then k.shEB else k.shEA) edge
      (first = some (.free b) → Goes (.compareMatch at_ u b) s fun t =>
        t.units[u].arm (!b) = k.arm (!b) ∧ t.units[u].level = drives w (k.freeAct b) ∧
        (k.upd ≠ 4 → t.units[u].arm b = false ∧ t.units[u].cmp b = k.cmp b) ∧
        (k.upd = 4 → k.lock = false → (let edge : EvTime := ((w >>> 3) + 1) <<< 3
          taken (a.inst edge) (if b then k.shvB else k.shvA) = true →
            t.units[u].cmp b = (if b then k.shB else k.shA) ∧ t.units[u].arm b = true ∧
            (if b then t.units[u].shvB else t.units[u].shvA) = false)) ∧
        (code = 0 → deaf → t.xing = a.xing) ∧
        (code ≠ 0 → deaf → room.length < 4 → bit t.units[u].flags (if b then 1 else 0) = true ∧
          t.xing[u.val].fifo = room ++ [e w false])) ∧
      ((∀ x ∈ dueEvents a u, x.2.2 ≠ .free b) → exec (.compareMatch at_ u b) s = .next s) ∧
      (unitFine a u = true → k.eff b = false → passed a.nowEv (k.effT b) = true → k.upd ≠ 4 → Goes (.compareEffective at_ u b) s fun t =>
        t.units[u].eff b = true ∧
        (if k.en = true ∧ k.mode = 0 ∧ k.arm b = true ∧ passed a.nowEv w = true then
          t.units[u].arm b = false ∧ bit t.units[u].flags 7 = true ∧ t.units[u].level = drives a.nowEv (k.freeAct b) ∧
          (code ≠ 0 → deaf → room.length < 4 → t.xing[u.val].fifo = room ++ [e a.nowEv true])
        else t.units[u].arm b = k.arm b ∧ t.units[u].level = k.level ∧ t.xing = a.xing)) ∧
      (∀ (down : Bool) x, first = some (.local_ b down) → localDue a u b down = some x → k.upd ≠ 4 →
        Goes (.localMatch at_ u b down) s fun t =>
          t.units[u].level = drives x (k.localAct b down) ∧ t.units[u].done b = x ∧
          (code ≠ 0 → deaf → room.length < 4 →
            t.xing[u.val].fifo = room ++ [e (x + k.trim (k.localAct b down)) false])) ∧
      (∀ down : Bool, (∀ x ∈ dueEvents a u, x.2.2 ≠ .local_ b down) → exec (.localMatch at_ u b down) s = .next s) ∧
      (first = some .boundary → Goes (.periodBoundary at_ u) s fun t =>
        t.units[u].porg = k.porg + BitVec.ofNat 48 (8 * k.passCounts) ∧ t.units[u].prdRun = t.units[u].prd ∧
        t.units[u].dir = (k.mode == 2#2) ∧ t.units[u].level = drives k.passEnd (if k.pDone then 0 else fld k.act 0 2) ∧
        (k.upd ≠ 1 → k.upd ≠ 3 → k.upd ≠ 4 → t.units[u].cmpA = k.cmpA ∧ t.units[u].cmpB = k.cmpB ∧ t.units[u].prd = k.prd) ∧
        (k.upd = 1 → k.lock = false → (let p := a.inst k.passEnd
          let tA := k.shvA && !sameCycle k.shEA p
          let tB := k.shvB && !sameCycle k.shEB p
          let tP := k.shvP && !sameCycle k.shEP p
          t.units[u].shvA = (k.shvA && !tA) ∧ t.units[u].shvB = (k.shvB && !tB) ∧ t.units[u].shvP = (k.shvP && !tP) ∧
          t.units[u].cmpA = (if tA then k.shA else k.cmpA) ∧ t.units[u].cmpB = (if tB then k.shB else k.cmpB) ∧
          t.units[u].prdRun = (if tP = true ∧ k.prdSh ≠ 0 then k.prdSh else k.prd)))) ∧
      (first = some .top → Goes (.periodBoundary at_ u) s fun t =>
        t.units[u].dir = true ∧ t.units[u].porg = k.porg ∧ t.units[u].level = k.level ∧ (∀ j, j ≠ u → t.units[j] = a.units[j]) ∧
        Within [.units] a t) ∧
      (boundaryDue a u = false → earlyDue a u = false → topDue a u = false → exec (.periodBoundary at_ u) s = .next s)))

/-- INPUT_EDGE and FILTER_ACCEPT: the filter, the input level and the capture of an accepted transition
(04_channels.md, R71, R90, R91, R92, R450). A change of a selected pin's level that finds no transition waiting and
differs from IN enters the filter with its time, IN unchanged; one that returns to IN before a waiting transition is
due rejects it, counted in REJ while EN is 1; a second one in the FAB cycle of the last leaves the filter as it was
before that one, counted in REJ while EN is 1. A pin that the board no longer drives is noted. An accepted transition
is IN; with EN 0 nothing is captured. Single capture of a rise with its edge enabled stores the time less CTRIM_RISE
in CAPR and sets FULL_R, an unread capture counting in OVRCNT; of a fall, CAPF likewise. Paired capture of a fall
before any rise since the enable captures nothing. -/
def Obligations.ChannelInputs : Prop :=
  (∀ (at_ : Instant) (u : UnitId) (v : Bool) (s : State), (let a := advanceTo at_ s
      let k := a.units[u]
      let lv : Bool := v ^^ bit k.ctrl 12
      let again := k.cap.undo.filter fun x => sameCycle x.1 (a.inst a.nowEv)
      k.insel.toNat < 40 → unitFine a u = true → a.pinsCut = false → k.cap.raw ≠ v → Goes (.inputEdge at_ u v false) s fun t =>
        bit t.pad k.insel.toNat = v ∧ bit t.padZ k.insel.toNat = false ∧ t.units[u].cap.raw = v ∧
        (again = none → k.cap.cand = none → lv ≠ k.cap.inn →
          t.units[u].cap.cand = some { level := lv, stamp := a.nowEv, coarse := a.tb.coarse } ∧ t.units[u].cap.inn = k.cap.inn) ∧
        (again = none → k.cap.cand = none → lv = k.cap.inn → t.units[u].cap.cand = none ∧ t.units[u].cap.inn = k.cap.inn) ∧
        (again = none → k.cap.cand ≠ none → candDue a u = false → lv = k.cap.inn →
          t.units[u].cap.cand = none ∧ t.units[u].cap.inn = k.cap.inn ∧
          t.units[u].cap.rej = (if k.en then satInc k.cap.rej else k.cap.rej)) ∧
        (∀ x, again = some x → candDue a u = false → t.units[u].cap.cand = x.2.1 ∧ t.units[u].cap.inn = k.cap.inn ∧
          t.units[u].cap.rej = (if k.en then satInc x.2.2 else x.2.2)) ∧
        t.units[u].level = k.level ∧ t.units[u].ctrl = k.ctrl)) ∧
  (∀ (at_ : Instant) (u : UnitId) (v : Bool) (s : State), s.units[u].insel.toNat < 40 →
      Goes (.inputEdge at_ u v true) s fun t =>
        bit t.padZ s.units[u].insel.toNat = true ∧ bit t.pad s.units[u].insel.toNat = false ∧ t.units[u].level = s.units[u].level) ∧
  (∀ (at_ : Instant) (u : UnitId) x (s : State), (let a := advanceTo at_ s
      let k := a.units[u]
      unitFine a u = true → k.cap.cand = some x → candDue a u = true → Goes (.filterAccept at_ u) s fun t =>
        t.units[u].cap.inn = x.level ∧ t.units[u].cap.cand = none ∧ t.units[u].level = k.level ∧
        (k.en = false → t = { a with units := vmod a.units u fun c => { c with cap := { c.cap with inn := x.level, cand := none } } }) ∧
        (k.en = true → k.capm = 1 → x.level = true → bit k.ctrl 10 = true →
          t.units[u].cap.capR = x.stamp - k.ctrimRise.signExtend 48 ∧ t.units[u].cap.fullR = true ∧ t.units[u].cap.capF = k.cap.capF ∧
          t.units[u].cap.ovrcnt = (if k.cap.fullR then satInc k.cap.ovrcnt else k.cap.ovrcnt)) ∧
        (k.en = true → k.capm = 1 → x.level = false → bit k.ctrl 11 = true →
          t.units[u].cap.capF = x.stamp - k.ctrimFall.signExtend 48 ∧ t.units[u].cap.fullF = true ∧ t.units[u].cap.capR = k.cap.capR ∧
          t.units[u].cap.ovrcnt = (if k.cap.fullF then satInc k.cap.ovrcnt else k.cap.ovrcnt)) ∧
        (k.en = true → k.capm = 2 → x.level = true →
          t.units[u].cap.capR = x.stamp - k.ctrimRise.signExtend 48 ∧ t.units[u].cap.fullR = true ∧ t.units[u].cap.gotRise = true) ∧
        (k.en = true → k.capm = 2 → x.level = false → k.cap.gotRise = false →
          t.units[u].cap.capF = k.cap.capF ∧ t.units[u].cap.pw = k.cap.pw ∧ t.xing = a.xing))) ∧
  (∀ (at_ : Instant) (u : UnitId) (s : State), candDue (advanceTo at_ s) u = false → exec (.filterAccept at_ u) s = .next s)

/-! ### Engines, pages, basins and the spillway -/

/-- ENGINE_DOZE, BUDGET_OVERRUN, ENGINE_FAULT and THREAD_TIMER_MATCH (05_ostler.md, R113, R114, R133, 07_microcode.md,
R160, R162, 17_health.md, R389). An engine that is not retired and has no READY thread with a program of its own
dozes, and nothing else changes. An RT activation counted past BUDGET for the first time, at no fewer cycles than the
engine has counted, counts in DLN_CNT and raises source 202; with ON_OVR the thread is stopped, without it its state
stands; a count that is no overrun changes nothing. An engine that fails is retired, marked in the reservoir, and each
thread it ran is placed on another engine or stopped. A thread timer that is reached is disarmed and, for a thread
that is not the first of a shipped motion program, its event, KIND 5 with the timer's time, enters the thread's queue,
or goes straight to the registers of a thread that waits with an empty queue. -/
def Obligations.EnginesAndThreadTimers : Prop :=
  (∀ (e : EngineId) (s : State), s.eng[e].retired = false →
      (∀ tid : Tid, slotEng s.thr[tid].slot = e → s.thr[tid].st = .ready → s.prog[s.thr[tid].progId].shipped = true) →
      exec (.engineDoze e) s = .next { s with eng := vmod s.eng e fun g => { g with doze := true } }) ∧
  (∀ (tid : Tid) (n : W32) (s : State), s.thr[tid].rt = true → s.thr[tid].cyc.any (fun k => k ≤ n.toNat) = true →
      s.thr[tid].ovrDone = false → s.thr[tid].budget.toNat < n.toNat → Goes (.budgetOverrun tid n) s fun t =>
        t.thr[tid].dlnCnt = satInc s.thr[tid].dlnCnt ∧ t.thr[tid].ovrDone = true ∧ Latched 202 t ∧
        t.thr[tid].ctx = s.thr[tid].ctx ∧ (∀ j, j ≠ tid → t.thr[j] = s.thr[j]) ∧
        (if s.thr[tid].onOvr then t.thr[tid].st = .stopped ∧ t.thr[tid].timer = none
         else t.thr[tid].st = s.thr[tid].st ∧ t.thr[tid].cyc = some n.toNat)) ∧
  (∀ (tid : Tid) (n : W32) (s : State), n.toNat ≤ s.thr[tid].budget.toNat → bit s.hlt.dlnInj tid.val = false →
      exec (.budgetOverrun tid n) s = .next s) ∧
  (∀ (at_ : Instant) (e : EngineId) (pc : W32) (s : State), (let a := advanceTo at_ s
      (s.eng[e].retired = true → exec (.engineFault at_ e pc) s = .next s) ∧
      (s.eng[e].retired = false → Goes (.engineFault at_ e pc) s fun t =>
        t.eng[e].retired = true ∧ bit t.rsv.engMarks e.val = true ∧ bit t.hlt.cause 1 = true ∧ Latched 201 t ∧
        ∀ tid : Tid, s.thr[tid].st ≠ .free → s.thr[tid].st ≠ .stopped → slotEng s.thr[tid].slot = e →
          t.thr[tid].st = .stopped ∨ slotEng t.thr[tid].slot ≠ e))) ∧
  (∀ (at_ : Instant) (tid : Tid) (v : EvTime) (s : State), (let a := advanceTo at_ s
      let k := a.thr[tid]
      k.timer = some v → a.engClock = true → passed a.nowEv v = true → motionOf a tid = none →
      Goes (.threadTimerMatch at_ tid) s fun t =>
        t.thr[tid].timer = none ∧ (∀ j, j ≠ tid → t.thr[j] = a.thr[j]) ∧
        (k.st = .wait → k.evq = [] → k.waitRd ≠ 0 → k.waitRd ≠ 15 →
          reg t tid k.waitRd = 5 ∧ reg t tid (k.waitRd + 1) = v.zeroExtend 64 ∧ t.thr[tid].evq = [] ∧
          t.thr[tid].st = (if k.stepping then .halt else .ready)) ∧
        (k.st ≠ .wait → k.st ≠ .free → k.st ≠ .stopped → k.evq.length < 8 →
          t.thr[tid].evq = k.evq ++ [{ kind := 5, src := 0, arg := 0, data := 0, time := v }] ∧ t.thr[tid].st = k.st ∧
          t.thr[tid].ctx = k.ctx)))

/-- PAGE_FILL_COMPLETE and PREFETCH_COMPLETE: a page whose CRC agrees becomes resident, a first mismatch fetches again, a
second stops its threads (05_ostler.md, R117, R119, R120). For a frame into which the page is being brought: where the
CRC-32 of the words is the page's, and only that page is waited for, the frame is valid with those words and every
thread stalled on the page goes on, READY or held by the debugger; a first mismatch leaves the frame waiting for a
second fetch; a second frees the frame, counts FILL_ERR, raises source 205 and stops every thread stalled on the page.
Words for a page that is not being brought in change nothing. -/
def Obligations.PageFills : Prop :=
  ∀ (p : ProgId) (page : BitVec 12) (words : List W32) (pref : Bool) (s : State),
    let c : Instr := if pref then .prefetchComplete p page words else .pageFillComplete p page words
    let crc := crc32 (words.flatMap fun w => leBytes 4 w.toNat)
    let alone := ∀ q ∈ s.ost.fillQ, q.2 = page ∧ s.thr[bvFin 64 rfl q.1].progId = p
    (comingIn s p page pref = none → exec c s = .next s) ∧
    (∀ i, comingIn s p page pref = some i →
      (crc = s.prog[p].pcrc.getD page.toNat 0 → alone → Goes c s fun t =>
        t.frm[i].valid = true ∧ t.frm[i].words = words ∧ t.frm[i].page = page ∧ (∀ j, j ≠ i → t.frm[j] = s.frm[j]) ∧
        t.ost.fillQ = [] ∧
        (∀ tid ∈ stalledOn s p page, t.thr[tid].stallOn = .none ∧ t.thr[tid].ctx = s.thr[tid].ctx ∧
          t.thr[tid].st = if (s.thr[tid].haltReq || s.eng[slotEng s.thr[tid].slot].halted) && !s.thr[tid].stepping then .halt else .ready) ∧
        (∀ tid, tid ∉ stalledOn s p page → t.thr[tid] = s.thr[tid])) ∧
      (crc ≠ s.prog[p].pcrc.getD page.toNat 0 → s.frm[i].tries = 0 → Goes c s fun t =>
        t.frm[i] = { s.frm[i] with tries := 1 } ∧ t.thr = s.thr ∧ t.ost.fillErr = s.ost.fillErr) ∧
      (crc ≠ s.prog[p].pcrc.getD page.toNat 0 → s.frm[i].tries ≠ 0 → alone → Goes c s fun t =>
        t.frm[i] = Frame.reset ∧ t.ost.fillErr = satInc s.ost.fillErr ∧ Latched 205 t ∧
        (∀ tid ∈ stalledOn s p page, t.thr[tid].st = .stopped) ∧
        (∀ tid, tid ∉ stalledOn s p page → t.thr[tid] = s.thr[tid])))

/-- BASIN_POST, BASIN_AGE_EXPIRY and RD_CNT_WRITE: the 16 bytes written and no other, the counts, overwriting, drops and
the age source (05_ostler.md, R122, R123, R124, R125, R126, R127, R128, R130). A post to a basin with room, no
subscriber and no open overflow episode writes the record's 16 bytes into the slot of WR_CNT, no other byte of basin
memory, and adds 1 to WR_CNT. Without room a dropping basin in an episode counts the drop and changes nothing else; an
overwriting one discards the oldest page's records, RD_CNT and DISC moving by them. A post to a basin that is not open
has no effect. Once the oldest unread record of an open basin has waited AGE ms of device time, an age expiry asserts
the threshold source; before that it changes nothing. A write of RD_CNT within what is unread applies, pages
above FLOOR returning; one beyond it sets the error bit and changes nothing else. -/
def Obligations.BasinCommands : Prop :=
  (∀ (b : BasinId) (r : Rec) (s : State), b ≠ 63 → s.bas[b].open_ = false → exec (.basinPost b r) s = .next s) ∧
  (∀ (b : BasinId) (r : Rec) (s : State), (let k := s.bas[b]
      let slot := k.wrCnt.toNat % 64
      let page := ((if slot = 0 then k.ring.rotateLeft else k.ring).headD 0).toNat
      let at_ := 0x400 * page + 16 * slot
      b ≠ 63 → k.open_ = true → (slot ≠ 0 ∨ k.nextUnread = false) → k.ovf = false → (∀ tid : Tid, bit s.thr[tid].subB b.val = false) →
      Memory.wf s.bmem = true → Goes (.basinPost b r) s fun t =>
        memBytes t.bmem at_ 16 = leBytes 6 r.time.toNat ++ [r.kind, r.src, r.flags, k.wrCnt.truncate 8] ++ leBytes 2 r.aux.toNat ++
          leBytes 4 r.data.toNat ∧
        (∀ x, x < at_ ∨ at_ + 16 ≤ x → memGet t.bmem x = memGet s.bmem x) ∧
        t.bas[b].wrCnt = k.wrCnt + 1 ∧ t.bas[b].rdCnt = k.rdCnt ∧ t.bas[b].drop = k.drop ∧ (∀ c, c ≠ b → t.bas[c] = s.bas[c]) ∧
        Within [.bas, .bmem, .hlt] s t)) ∧
  (∀ (b : BasinId) (r : Rec) (s : State), (let k := s.bas[b]
      b ≠ 63 → k.open_ = true → k.wrCnt.toNat % 64 = 0 → k.nextUnread = true → k.ceil.toNat ≤ k.ring.length →
      (k.policy ≠ 1 → k.ovf = true → exec (.basinPost b r) s = .next { s with bas := vmod s.bas b fun k =>
        { k with drop := satInc k.drop, epi := satInc k.epi } }) ∧
      (k.policy = 1 → Goes (.basinPost b r) s fun t =>
        t.bas[b].rdCnt = k.rdCnt + BitVec.ofNat 32 (64 - k.rdCnt.toNat % 64) ∧
        t.bas[b].disc = satAdd k.disc (64 - k.rdCnt.toNat % 64) ∧ t.bas[b].wrCnt = k.wrCnt + 1 ∧ t.bas[b].drop = k.drop))) ∧
  (∀ (at_ : Instant) (b : BasinId) (s : State), (let a := advanceTo at_ s
      let k := s.bas[b]
      let waited := k.old a.tb.dt
      b ≠ 63 → k.open_ = true → 0 < k.occ → k.aged = false →
      (waited = true → Goes (.basinAgeExpiry at_ b) s fun t =>
        t.bas[b].aged = true ∧ irqInput t (b.val + 1) = true ∧ t.bas[b].wrCnt = k.wrCnt ∧ t.bas[b].rdCnt = k.rdCnt) ∧
      (waited = false → exec (.basinAgeExpiry at_ b) s = .next s))) ∧
  (∀ (b : BasinId) (v : W32) (s : State), (let k := s.bas[b]
      (k.occ < (v - k.rdCnt).toNat →
        exec (.rdCntWrite b v) s = .next { s with bas := vmod s.bas b fun k => { k with rdErr := true } }) ∧
      ((v - k.rdCnt).toNat ≤ k.occ → (∀ tid : Tid, bit s.thr[tid].subB b.val = false ∧ s.thr[tid].stallOn ≠ .post) →
        Goes (.rdCntWrite b v) s fun t =>
          t.bas[b].rdCnt = v ∧ t.bas[b].rdErr = false ∧ t.bas[b].wrCnt = k.wrCnt ∧ t.bas[b].drop = k.drop ∧
          (k.ring ≠ [] → t.bas[b].ring.length =
            k.ring.length - min (k.ring.length - { k with rdCnt := v }.pagesNeeded) (k.ring.length - k.floor.toNat)) ∧
          (∀ c, c ≠ b → t.bas[c] = s.bas[c]) ∧ Within [.bas, .ost] s t)))

/-- SPILLWAY_COMMIT and SPILLWAY_EXPIRY: a confirmed entry arms its target with 64 fines of lead or is discarded as
LATE; an expired one is counted (06_spillway.md, R142, R143, R144, R145). The entry that is next for X78, which has
taken none in this FAB cycle, leaves the store. With a lead of 64 fines or more it counts as CONFIRMED and its time is
the named compare of the channel's unit, armed where the unit runs in free mode, or the single timed action of its
open harness; with less it counts as LATE, source 208 is asserted, and neither unit nor harness is touched. An
unconfirmed entry whose expiry has passed leaves the store, counts as EXPIRED, and nothing else changes where it is no
commutation entry. -/
def Obligations.SpillwayCommands : Prop :=
  (∀ (at_ : Instant) (i : Fin 256) (s : State), (let a := advanceTo at_ s
      let e := a.spw.ent[i]
      a.engClock = true → nextX78 a = some i → commHarness a e = none → a.spw.x78At.any (fun x => sameCycle x a.now) = false →
      (leadOf a e < 64 → Goes (.spillwayCommit at_) s fun t =>
        t.spw.ent[i].valid = false ∧ t.spw.late = satInc a.spw.late ∧ t.spw.confirmed = a.spw.confirmed ∧ irqInput t 208 = true ∧
        t.units = a.units ∧ t.har = a.har) ∧
      (∀ u : UnitId, 64 ≤ leadOf a e → e.chan.bind (unitOf a) = some u → Goes (.spillwayCommit at_) s fun t =>
        t.spw.ent[i].valid = false ∧ t.spw.confirmed = satInc a.spw.confirmed ∧ t.spw.late = a.spw.late ∧
        t.units[u].cmp (e.tkind == 1) = e.time ∧
        t.units[u].arm (e.tkind == 1) = (a.units[u].arm (e.tkind == 1) || (a.units[u].en && a.units[u].mode == 0#2)) ∧
        t.units[u].cmp (!(e.tkind == 1)) = a.units[u].cmp (!(e.tkind == 1)) ∧
        (∀ j, j ≠ u → t.units[j] = a.units[j]) ∧ (∀ j, j ≠ i → t.spw.ent[j] = a.spw.ent[j]) ∧ Within [.units, .spw, .arm] a t) ∧
      (∀ h : HarnessId, 64 ≤ leadOf a e → e.chan = none → e.harness = some h → a.har[h].kind ≠ 0 → a.har[h].hstate ≠ .fault →
        Goes (.spillwayCommit at_) s fun t =>
          t.spw.ent[i].valid = false ∧ t.spw.confirmed = satInc a.spw.confirmed ∧
          t.har[h] = { a.har[h] with actPend := true, actTime := e.time, actWord := e.hact, actEff := a.nowEv + 48 } ∧
          (∀ j, j ≠ h → t.har[j] = a.har[j]) ∧ Within [.har, .spw] a t))) ∧
  (∀ (at_ : Instant) (i : Fin 256) (s : State), (let a := advanceTo at_ s
      let e := a.spw.ent[i]
      a.engClock = true → e.valid = true → e.conf = false → passed a.nowEv e.expiry = true → commHarness a e = none →
      Goes (.spillwayExpiry at_ i) s fun t =>
        t.spw.ent[i].valid = false ∧ t.spw.expired = satInc a.spw.expired ∧ t.spw.confirmed = a.spw.confirmed ∧
        (∀ j, j ≠ i → t.spw.ent[j] = a.spw.ent[j]) ∧ Within [.spw] a t))

/-! ### Harnesses and the power stage -/

/-- HARNESS_COMMIT, HARNESS_SAFE, HARNESS_RESUME, HARNESS_PHASE and HARNESS_LEVELS on harness and member channels
(08_power_harnesses.md, R190, R191, R196, R204, 04_channels.md, R84). COMMIT transfers every pending shadow of each
member unit with UPD 0b101 and LOCK 0 but one written in the same FAB cycle, and touches no other unit. SAFE from IDLE
or RUN closes the windows, floats the phases, switches every driver of the harness off and drives each member
channel's safe level, stopped and disarmed; from SAFE, FAULT or a closed harness it changes nothing. RESUME leaves
SAFE for IDLE and has no effect elsewhere. PHASE sets each phase of a live bridge, 0b111 leaving one as it was; in
SAFE, in FAULT or for another kind it sets ACT_ERR alone. LEVELS in range waits for the member's next start; out of
range it sets CFG_ERR alone, for another kind ACT_ERR alone. -/
def Obligations.HarnessActions : Prop :=
  (∀ (h : HarnessId) (s : State), Goes (.harnessCommit h) s fun t =>
      (∀ u ∈ s.har[h].channels.filterMap (unitOf s), s.units[u].upd = 5 → s.units[u].lock = false →
        (let tA := s.units[u].shvA && !sameCycle s.units[u].shEA s.now
          let tB := s.units[u].shvB && !sameCycle s.units[u].shEB s.now
          let tP := s.units[u].shvP && !sameCycle s.units[u].shEP s.now
          t.units[u].shvA = (s.units[u].shvA && !tA) ∧ t.units[u].shvB = (s.units[u].shvB && !tB) ∧
          t.units[u].shvP = (s.units[u].shvP && !tP) ∧
          t.units[u].cmpA = (if tA then s.units[u].shA else s.units[u].cmpA) ∧
          t.units[u].cmpB = (if tB then s.units[u].shB else s.units[u].cmpB) ∧
          t.units[u].prd = (if tP = true ∧ s.units[u].prdSh ≠ 0 then s.units[u].prdSh else s.units[u].prd) ∧
          t.units[u].level = s.units[u].level)) ∧
      (∀ u, (u ∉ s.har[h].channels.filterMap (unitOf s) ∨ s.units[u].upd ≠ 5 ∨ s.units[u].lock = true) → t.units[u] = s.units[u]) ∧
      Within [.units] s t) ∧
  (∀ (h : HarnessId) (s : State),
      ((s.har[h].live = false ∨ s.har[h].kind = 0) → exec (.harnessSafe h) s = .next s) ∧
      (s.har[h].live = true → s.har[h].kind ≠ 0 → Goes (.harnessSafe h) s fun t =>
        t.har[h].hstate = .safe ∧ t.har[h].win = 0 ∧ t.har[h].phase = 0 ∧ t.har[h].peak = 0 ∧ t.har[h].defd = 0 ∧
        t.har[h].actPend = s.har[h].actPend ∧
        (∀ l ∈ s.har[h].channels, ∀ u, unitOf s l = some u → t.units[u].safeHeld = true ∧ t.units[u].en = false ∧
          t.units[u].armA = false ∧ t.units[u].armB = false) ∧
        ((∀ l ∈ s.har[h].channels, ∀ x m, powerMember s l = some (x, m) → x = h) →
         (∀ l ∈ s.har[h].channels, ∀ u, unitOf s l = some u → s.units[u].held = true → s.units[u].lchId = l) →
          (∀ d ∈ gateTargets s s.har[h], t.link.isOn d.1 = false) ∧ ∀ j, j ≠ h → t.har[j] = s.har[j]))) ∧
  (∀ (h : HarnessId) (s : State), (let k := s.har[h]
      (k.hstate ≠ .safe → exec (.harnessResume h) s = .next s) ∧
      (k.hstate = .safe → (k.actPend = false ∨ passed s.nowEv k.actTime = false ∨ fld k.actWord 28 4 ≠ (1 : BitVec 4)) →
        exec (.harnessResume h) s = .next { s with har := vmod s.har h fun k => { k with hstate := .idle, safedBy := 0 } }))) ∧
  (∀ (h : HarnessId) (ph : BitVec 9) (s : State), (let k := s.har[h]
      (k.kind = 2 → k.live = true → fld ph 0 3 ≠ (6 : BitVec 3) → fld ph 3 3 ≠ (6 : BitVec 3) → fld ph 6 3 ≠ (6 : BitVec 3) →
        Goes (.harnessPhase h ph) s fun t =>
          (∀ p, p < 3 → t.har[h].phaseOf p = if fld ph (3 * p) 3 = (7 : BitVec 3) then k.phaseOf p else fld ph (3 * p) 3) ∧
          t.har[h].hstate = (if t.har[h].win = 0 ∧ t.har[h].phase = 0 then .idle else .run) ∧ t.har[h].win = k.win ∧
          t.har[h].kind = k.kind ∧ (∀ j, j ≠ h → t.har[j] = s.har[j]) ∧ Within [.har, .link, .units] s t) ∧
      ((k.kind ≠ 2 ∨ k.live = false) → exec (.harnessPhase h ph) s =
        .next { s with har := vmod s.har h fun k => { k with flt := setBit k.flt 25 true } }))) ∧
  (∀ (h : HarnessId) (lv : BitVec 28) (m : Fin 4) (s : State), (let k := s.har[h]
      let inRange := (fld lv 0 8).toNat ≤ 250 ∧ (fld lv 8 8).toNat ≤ 250 ∧ (fld lv 16 8).toNat ≤ 250
      fld lv 26 2 = (0 : BitVec 2) → (fld lv 24 2 : BitVec 2).toNat = m.val →
      (k.kind = 1 ∨ k.kind = 2 → inRange → Goes (.harnessLevels h lv) s fun t =>
        (∀ i : Fin 4, t.har[h].mem[i] = if i = m ∨ (k.kind = 2 ∧ m = 3) then { k.mem[i] with lvl := some (fld lv 0 24) } else k.mem[i]) ∧
        t.har[h].flt = k.flt ∧ t.har[h].hstate = k.hstate ∧ (∀ j, j ≠ h → t.har[j] = s.har[j]) ∧ Within [.har] s t) ∧
      (k.kind = 1 ∨ k.kind = 2 → ¬ inRange → exec (.harnessLevels h lv) s =
        .next { s with har := vmod s.har h fun k => { k with flt := setBit k.flt 26 true } }) ∧
      (k.kind ≠ 1 → k.kind ≠ 2 → exec (.harnessLevels h lv) s =
        .next { s with har := vmod s.har h fun k => { k with flt := setBit k.flt 25 true } })))

/-- TIMED_ACTION_APPLY, PEAK_END, PEAK_TIMEOUT, HOLD_SWITCH_OFF and ON, REGULATION_HANDOVER, DEFER_CANCEL and
BANK_DEFER_REPORT (08_power_harnesses.md, R191, R192, R196, R197, R200, R201, R202, R206, R207). A due timed action
acts as the immediate action of its word does once the pending bit is clear, LATE set where its time had passed as it
became effective; a PHASE of the bridge program besides begins its next step, which is stated elsewhere; in SAFE a
COMMIT stays pending and a SAFE sets ACT_ERR. The peak ends where TBLANK has passed and the sense has reached IPEAK:
it clears the member's peak bit and, with none left, starts the one deferred member, LEVELS that waits applying; at
TPEAK_MAX a sense below IOPEN counts and flags OPEN, one from there to below IPEAK flags PEAK_SHORT. A regulated
member of a bank is switched off where the sense has reached IHOLD_HI and TMIN_ON has passed, and on where it has
fallen to IHOLD_LO and TMIN_OFF has; a phase in BRAKE is switched off at ILIM, and its low side comes back after
TMIN_OFF; in every other case nothing changes. 1 µs after the end of an overlap the high side regulates again. A
deferred start at its limit is cancelled and counted; a deferral report is counted. -/
def Obligations.TimedActionsAndWindows : Prop :=
  (∀ (at_ : Instant) (h : HarnessId) (s : State), (let a := advanceTo at_ s
      let k := a.har[h]
      let flag : W32 := if passed k.actEff k.actTime = true then setBit k.flt 24 true else k.flt
      (timedDue a h = false → exec (.timedActionApply at_ h) s = .next s) ∧
      (timedDue a h = true → k.hstate = .safe → fld k.actWord 28 4 = (1 : BitVec 4) → exec (.timedActionApply at_ h) s =
        .next { a with har := vmod a.har h fun k => { k with flt := flag } }) ∧
      (timedDue a h = true → k.hstate = .safe → fld k.actWord 28 4 = (2 : BitVec 4) → exec (.timedActionApply at_ h) s =
        .next { a with har := vmod a.har h fun k => { k with flt := setBit flag 25 true, actPend := false } }) ∧
      (timedDue a h = true → (let b := { a with har := vmod a.har h fun k => { k with flt := flag, actPend := false } }
        (k.hstate ≠ .safe → k.actWord = 0x10000000 → exec (.timedActionApply at_ h) s = exec (.harnessCommit h) b) ∧
        (k.hstate ≠ .safe → k.actWord = 0x20000000 → exec (.timedActionApply at_ h) s = exec (.harnessSafe h) b) ∧
        (k.actWord = 0x30000000 → exec (.timedActionApply at_ h) s = exec (.harnessResume h) b) ∧
        (∀ ph : BitVec 9, k.actWord = 4#4 ++ 0#19 ++ ph → k.mot.prog ≠ .bridge →
          exec (.timedActionApply at_ h) s = exec (.harnessPhase h ph) b) ∧
        (∀ lv : BitVec 28, k.actWord = 5#4 ++ lv → exec (.timedActionApply at_ h) s = exec (.harnessLevels h lv) b))))) ∧
  (∀ (at_ : Instant) (h : HarnessId) (m : Fin 4) (sense : Byte) (s : State), (let a := advanceTo at_ s
      let k := a.har[h]
      let due := inPeak a h m = true ∧ k.blank ≤ inWindow a h m ∧ (fld k.mem[m].w0 8 8).toNat ≤ sense.toNat
      let tmax := inPeak a h m = true ∧ 6400 * (fld k.mem[m].w1 16 12).toNat ≤ inWindow a h m
      (¬ due → exec (.peakEnd at_ h m sense) s = .next s) ∧
      (due → k.defd = 0 → Goes (.peakEnd at_ h m sense) s fun t =>
        t.har[h] = { k with peak := setBit k.peak m.val false } ∧ (∀ j, j ≠ h → t.har[j] = a.har[j]) ∧ Within [.har, .link, .units] a t) ∧
      (∀ i : Fin 4, due → setBit k.peak m.val false = 0 → (∀ j : Fin 4, bit k.defd j.val = decide (j = i)) →
        Goes (.peakEnd at_ h m sense) s fun t =>
          t.har[h].defd = 0 ∧ t.har[h].win = k.win ∧ bit t.har[h].peak i.val = (fld k.mem[i].w0 0 2 == 1#2) ∧
          t.har[h].mem[i].off = false ∧ t.har[h].mem[i].start = a.nowEv ∧
          (∀ lv, k.mem[i].lvl = some lv → t.har[h].mem[i].w0 = setFld k.mem[i].w0 8 24 lv ∧ t.har[h].mem[i].lvl = none)) ∧
      (¬ tmax → exec (.peakTimeout at_ h m sense) s = .next s) ∧
      (tmax → k.defd = 0 → Goes (.peakTimeout at_ h m sense) s fun t =>
        t.har[h].peak = setBit k.peak m.val false ∧
        (if sense.toNat < (fld k.mem[m].w1 8 8).toNat then
          t.har[h].flt = setBit k.flt (14 + m.val) true ∧ t.har[h].openCnt = satInc k.openCnt
        else if sense.toNat < (fld k.mem[m].w0 8 8).toNat then
          t.har[h].flt = setBit k.flt (18 + m.val) true ∧ t.har[h].openCnt = k.openCnt
        else t.har[h].flt = k.flt ∧ t.bas = a.bas)))) ∧
  (∀ (at_ : Instant) (h : HarnessId) (m : Fin 4) (sense : Byte) (s : State), (let a := advanceTo at_ s
      let k := a.har[h]
      let x := k.mem[m]
      let offDue := x.off = false ∧ (if k.kind = 1 then (fld x.w0 16 8).toNat ≤ sense.toNat ∧
          3200 * (fld x.w2 0 8).toNat ≤ sinceSwitch a h m else (fld x.w0 8 8).toNat ≤ sense.toNat)
      let onDue := x.off = true ∧ 3200 * (fld x.w2 8 8).toNat ≤ sinceSwitch a h m ∧
          (k.kind = 1 → sense.toNat ≤ (fld x.w0 24 8).toNat)
      ((regulating a h m = false ∨ ¬ offDue) → exec (.holdSwitchOff at_ h m sense) s = .next s) ∧
      ((regulating a h m = false ∨ ¬ onDue) → exec (.holdSwitchOn at_ h m sense) s = .next s) ∧
      ∀ off : Bool, regulating a h m = true → (if off then offDue else onDue) →
        Goes (if off then .holdSwitchOff at_ h m sense else .holdSwitchOn at_ h m sense) s fun t =>
          t.har[h] = { k with mem := vmod k.mem m fun x => { x with off := off, sw := a.nowEv } } ∧
          (k.kind = 2 → k.cut = false → k.hsd.toNat + m.val < 6 → (if off then t.link.isOn (6 + k.hsd.toNat + m.val) = false
            else a.link.isOn (k.hsd.toNat + m.val) = false → t.link.isOn (6 + k.hsd.toNat + m.val) = true)) ∧
          (∀ j, j ≠ h → t.har[j] = a.har[j]) ∧ Within [.har, .link, .units] a t)) ∧
  (∀ (at_ : Instant) (h : HarnessId) (s : State), (let a := advanceTo at_ s
      let k := a.har[h]
      let due := k.kind = 1 ∧ k.regLs = true ∧ k.startedCount < 2 ∧ k.ovEnd.any (fun e => 6400 ≤ (a.nowEv - e).toNat) = true
      (due → Goes (.regulationHandover at_ h) s fun t =>
        t.har[h] = { k with regLs := false, ovEnd := none } ∧ (∀ j, j ≠ h → t.har[j] = a.har[j]) ∧ Within [.har, .link, .units] a t) ∧
      (¬ due → exec (.regulationHandover at_ h) s = .next s))) ∧
  (∀ (at_ : Instant) (h : HarnessId) (m : Fin 4) (s : State), (let a := advanceTo at_ s
      let k := a.har[h]
      (deferDue a h m = false → exec (.deferCancel at_ h m) s = .next s) ∧
      (deferDue a h m = true → Goes (.deferCancel at_ h m) s fun t =>
        t.har[h].win = setBit k.win m.val false ∧ t.har[h].defd = setBit k.defd m.val false ∧ t.har[h].peak = k.peak ∧
        t.har[h].cancelCnt = satInc k.cancelCnt ∧ t.link = a.link ∧ ∀ j, j ≠ h → t.har[j] = a.har[j]))) ∧
  (∀ (h : HarnessId) (m : Fin 4) (start : EvTime) (n : BitVec 24) (s : State),
      (s.har[h].kind = 1 → Goes (.bankDeferReport h m start n) s fun t =>
        t.har = vmod s.har h fun k => { k with deferCnt := satInc k.deferCnt }) ∧
      (s.har[h].kind ≠ 1 → exec (.bankDeferReport h m start n) s = .next s))

/-- DEADTIME_END, POWER_FAULT_CUT, LINK_SILENCE, CP_UNDERVOLTAGE, CHARGE_PUMP_READY and CHARGE_PUMP_TIMEOUT on the
drivers and the pump (08_power_harnesses.md, R194, R203, R205, R206, R207, R210). A driver of a live bridge that has
waited DEADT turns on where its opposite is off, no other turns on, and the two drivers of a phase are never both on
if they were not. A fault of R207 whose condition holds cuts every driver of its live harness and keeps its flag for
the fault frame: OC, OC_SUM and HS_SHORT with TBLANK past since the latest switch-on of the drivers concerned, OC_HARD
from 210 mV (both of these readings log entry 43), SHOOT on a bridge; in every other case nothing changes. Silence on
the link with a driver on turns all drivers off and cuts every power harness; with none on it changes nothing. An
undervoltage of the running charge pump puts every power harness in FAULT with its flag, windows closed and timed
action dropped. When the pump is ready within 1 ms the open that waits completes with OK, by a Farrier that runs;
after 1 ms the open is refused whole and the pump stops. -/
def Obligations.PowerStageFaults : Prop :=
  (∀ (at_ : Instant) (h : HarnessId) (p : Fin 3) (s : State), (let a := advanceTo at_ s
      let k := a.har[h]
      let hi := k.hsd.toNat + p.val
      let waited (d : Nat) : Bool := bit a.link.deadOn d && match idx? 18 d with
        | some i => decide (8 * (fld k.w14 16 12).toNat ≤ (a.nowEv - a.link.dueAt[i]).toNat)
        | none => false
      ((k.kind ≠ 2 ∨ k.live = false ∨ k.cut = true) → exec (.deadtimeEnd at_ h p) s = .next s) ∧
      (k.kind = 2 → k.live = true → k.cut = false → hi < 6 → Goes (.deadtimeEnd at_ h p) s fun t =>
        (waited hi = true → a.link.isOn (6 + hi) = false → t.link.isOn hi = true ∧ t.link.isOn (6 + hi) = false) ∧
        (waited (6 + hi) = true → waited hi = false → a.link.isOn hi = false → t.link.isOn (6 + hi) = true) ∧
        (waited hi = false → t.link.isOn hi = a.link.isOn hi) ∧ (waited (6 + hi) = false → t.link.isOn (6 + hi) = a.link.isOn (6 + hi)) ∧
        ((a.link.isOn hi && a.link.isOn (6 + hi)) = false → (t.link.isOn hi && t.link.isOn (6 + hi)) = false) ∧
        (∀ d, d < 18 → d ≠ hi → d ≠ 6 + hi → t.link.isOn d = a.link.isOn d) ∧ Within [.link] a t))) ∧
  (∀ (at_ : Instant) (h : HarnessId) (code member : Byte) (sense : BitVec 10) (mv : W16) (s : State), (let a := advanceTo at_ s
      let k := a.har[h]
      let m := member.toNat
      let own := m < 4 ∧ (k.memberCh m).isSome = true
      let seen : Prop := match code.toNat with
        | 1 => own ∧ (∀ i : Fin 4, i.val = m → (fld k.mem[i].w1 0 8).toNat ≤ sense.toNat) ∧ blanked a h (k.driversOf m) = true
        | 2 => k.kind = 1 ∧ member = 0xFF ∧ (fld k.w18 0 10).toNat ≤ sense.toNat ∧
            blanked a h (k.hss ++ ((List.range 4).filter fun m => (k.memberCh m).isSome).map fun m => 6 + k.ls m) = true
        | 3 => own ∧ 2100 ≤ 8 * sense.toNat
        | 4 => ∃ d, k.hss[m]? = some d ∧ a.link.isOn d = true ∧ 200 * ((fld k.w1C 16 4).toNat + 1) < mv.toNat ∧ blanked a h [d] = true
        | 5 => k.kind = 2 ∧ m < 3
        | _ => False
      (k.power = true → k.live = true → k.cut = false → seen → Goes (.powerFaultCut at_ h code member sense mv) s fun t =>
        t.har[h] = { k with cut := true, flag := some (code, member, sense) } ∧ (∀ j, j ≠ h → t.har[j] = a.har[j]) ∧
        (∀ d ∈ k.hss, t.link.isOn d = false) ∧ (∀ d ∈ gateTargets a k, t.link.isOn d.1 = false) ∧
        (∀ d, a.link.isOn d = false → t.link.isOn d = false) ∧ Within [.link, .har] a t) ∧
      ((k.power = false ∨ k.live = false ∨ k.cut = true ∨ ¬ seen) → exec (.powerFaultCut at_ h code member sense mv) s = .next s))) ∧
  (∀ s : State, (s.link.hg = 0 → s.link.lg = 0 → exec .linkSilence s = .next s) ∧
      ((s.link.hg ≠ 0 ∨ s.link.lg ≠ 0) → Goes .linkSilence s fun t =>
        t.link.hg = 0 ∧ t.link.lg = 0 ∧ t.link.deadOn = 0 ∧ t.link.silent = true ∧
        (∀ h : HarnessId, t.har[h] = if s.har[h].power then { s.har[h] with cut := true, flag := some (7, 0xFF, 0) } else s.har[h]) ∧ Within [.link, .har] s t)) ∧
  (∀ (at_ : Instant) (s : State), (let a := advanceTo at_ s
      (s.link.cpRun = false → exec (.cpUndervoltage at_) s = .next s) ∧
      (s.link.cpRun = true → Goes (.cpUndervoltage at_) s fun t => ∀ h : HarnessId, s.har[h].power = true →
        t.har[h].hstate = .fault ∧ bit t.har[h].flt 12 = true ∧ t.har[h].win = 0 ∧ t.har[h].phase = 0 ∧ t.har[h].actPend = false))) ∧
  (∀ (at_ : Instant) (s : State), (let a := advanceTo at_ s
      let early := a.link.cpRun = true ∧ a.link.cpReady = false ∧ pumpHeld a = false ∧ (a.nowEv - a.link.cpAt).toNat ≤ 6400000
      (¬ early → exec (.chargePumpReady at_) s = .next s) ∧
      (early → (a.link.cpOpen = none ∨ a.farrierUp = false) →
        exec (.chargePumpReady at_) s = .next { a with link := { a.link with cpReady := true } }) ∧
      (∀ r, early → a.farrierUp = true → a.link.cpOpen = some r →
        ∃ u, exec (.chargePumpReady at_) s = .next (writeReply (bvFin 8 rfl r.mb) 0x30 r.tag 0 [] u) ∧
          u.link.cpReady = true ∧ u.link.cpRun = true ∧ u.link.cpOpen = none ∧ u.far.tabHar[(bvFin 16 rfl r.h : HarnessId)].kind = fld r.kind 0 3))) ∧
  (∀ (at_ : Instant) (mv : W32) (s : State), (let a := advanceTo at_ s
      let late := a.farrierUp = true ∧ a.link.cpRun = true ∧ a.link.cpReady = false ∧ 6400000 ≤ (a.nowEv - a.link.cpAt).toNat
      (¬ late → exec (.chargePumpTimeout at_ mv) s = .next s) ∧
      (∀ r, late → a.link.cpOpen = some r →
        ∃ u, exec (.chargePumpTimeout at_ mv) s = .next (writeReply (bvFin 8 rfl r.mb) 0x30 r.tag 0x14 [] u) ∧
          u.link.cpRun = false ∧ u.link.cpOpen = none ∧ u.har = a.har ∧ Latched 215 u) ∧
      (late → a.link.cpOpen = none → Goes (.chargePumpTimeout at_ mv) s fun t =>
        t.link = { a.link with cpRun := false } ∧ t.har = a.har ∧ Latched 215 t)))

/-! ### Motors, axes and gait trackers -/

/-- CATCH_WINDOW_END, ALIGN_END, NO_SYNC_TIMEOUT, COMMUTATION_BLANKING_END, BRAKE_PEEK, BRAKE_TIMEOUT,
AXIS_STEP_COUNTED, and THREAD_TIMER_MATCH and TIMED_ACTION_APPLY for a bridge program (09_motion.md, R216, R218, R219,
R220, R222, R223, R225, R226, R227, R229). Once CATCH has passed, the crossings of the window decide: forward above
CATCH_RPM the motor is caught at its speed, in reverse above STOP_RPM it brakes, and otherwise it aligns, with the
phases that brake or align asks. After ALIGN_T the motor ramps at RAMP_DUTY from the first commutation step, the next
one due a crossing interval of RAMP_START_RPM later. 500 ms after the ramp, or where braking before a start does not
end in BRAKE_TO, the start has failed, with the phases floating; a stop that brakes to STOP_RPM or times out is
STOPPED. Every 500 ms of braking the phases float for a peek, whose end ends the braking at STOP_RPM or below. The end
of blanking writes one tooth-relative PHASE entry for the next commutation, or arms the thread's timer for the
predicted time where the write is refused; the applied entry begins the next step, a timer without one counts the
first miss and commutates, and stalls at the second. A counted step moves the position by one in the axis's direction
and goes on, reverses, or is done; a soft stop slows at DEC, and where the target allows it the axis speeds up at ACC
to VMAX. Before its time each of these changes nothing. -/
def Obligations.BridgeProgram : Prop :=
  (∀ (at_ : Instant) (h : HarnessId) (s : State), (let a := advanceTo at_ s
      let m := a.har[h].mot
      let v := m.observed
      let live := a.har[h].live = true ∧ a.har[h].kind = 2
      let phases (t : State) (x y z : BitVec 3) : Prop :=
        live → t.har[h].phaseOf 0 = x ∧ t.har[h].phaseOf 1 = y ∧ t.har[h].phaseOf 2 = z
      let since (e : EvTime) : Nat := (a.nowEv - e).toNat
      let due := motIn a h .bridge 2 = true ∧ (if m.peek then m.peekLen else 3200000000) ≤ since m.at_
      (motIn a h .bridge 1 = true → m.caught = none → 6400000 * m.p 1 ≤ since m.at_ → Goes (.catchWindowEnd at_ h) s fun t =>
        (m.turning = some true → m.p 2 < v.toNat → t = { a with har := vmod a.har h fun k =>
          { k with mot := { m with speed := v, caught := some v } } }) ∧
        (m.turning = some false → m.p 3 < v.toNat → t.har[h].mot.st = 2 ∧ t.har[h].mot.brakeDir = false ∧ t.har[h].mot.speed = v ∧
          phases t 5 5 5) ∧
        ((m.turning = none ∨ (m.turning = some true ∧ v.toNat ≤ m.p 2) ∨ (m.turning = some false ∧ v.toNat ≤ m.p 3)) →
          t.har[h].mot.st = 3 ∧ t.har[h].mot.duty = BitVec.ofNat 32 (100 * m.p 6) ∧ t.har[h].mot.startMb = m.startMb ∧ phases t 3 1 1)) ∧
      ((motIn a h .bridge 1 = false ∨ m.caught ≠ none ∨ since m.at_ < 6400000 * m.p 1) → exec (.catchWindowEnd at_ h) s = .next s) ∧
      (motIn a h .bridge 3 = true → 6400000 * m.p 5 ≤ since m.at_ → Goes (.alignEnd at_ h) s fun t =>
        t.har[h].mot.st = 4 ∧ t.har[h].mot.duty = BitVec.ofNat 32 (100 * m.p 7) ∧ t.har[h].mot.syncRun = 0 ∧ t.har[h].mot.cstep = 0 ∧
        t.har[h].mot.rampAt = a.nowEv ∧ phases t 0 (if Config.commHigh 0 then 4 else 3) 1 ∧
        (∀ p, motionProg a h = some p → 0 < m.p 10 → m.p 10 ≤ 10000 →
          t.thr[firstTid a p].timer = some (a.nowEv + BitVec.ofNat 48 (m.interval (m.p 8)))) ∧
        (∀ j, j ≠ h → t.har[j].mot = a.har[j].mot)) ∧
      ((motIn a h .bridge 3 = false ∨ since m.at_ < 6400000 * m.p 5) → exec (.alignEnd at_ h) s = .next s) ∧
      (motIn a h .bridge 4 = true → m.rampDone (a.nowEv - 3200000000) = true → Goes (.noSyncTimeout at_ h) s fun t =>
        t.har[h].mot.st = 6 ∧ t.har[h].mot.speed = m.speed ∧ t.har[h].mot.startMb = none ∧ phases t 0 0 0 ∧
        (∀ mb tag, m.startMb = some (mb, tag) → bit t.host.replyRdy mb.toNat = true ∧ bit t.host.reqBusy mb.toNat = false)) ∧
      ((motIn a h .bridge 4 = false ∨ m.rampDone (a.nowEv - 3200000000) = false) → exec (.noSyncTimeout at_ h) s = .next s) ∧
      (¬ due → exec (.brakePeek at_ h) s = .next s) ∧
      (due → m.peek = false → Goes (.brakePeek at_ h) s fun t =>
        t.har[h].mot = { m with peek := true, at_ := a.nowEv, xs := [] } ∧ phases t 0 0 0) ∧
      (due → m.peek = true → Goes (.brakePeek at_ h) s fun t => t.har[h].mot.speed = v ∧ t.har[h].mot.peek = false ∧
        (m.p 3 < v.toNat → t.har[h].mot.st = 2 ∧ phases t 5 5 5) ∧
        (v.toNat ≤ m.p 3 → m.brakeDir = true → t.har[h].mot.st = 0 ∧ phases t 0 0 0) ∧
        (v.toNat ≤ m.p 3 → m.brakeDir = false → t.har[h].mot.st = 3 ∧ t.har[h].mot.duty = BitVec.ofNat 32 (100 * m.p 6))) ∧
      (motIn a h .bridge 2 = true → 6400000 * m.p 4 ≤ since m.brakeAt → Goes (.brakeTimeout at_ h) s fun t =>
        t.har[h].mot.st = (if m.brakeDir then 0 else 6) ∧ phases t 0 0 0 ∧
        (m.brakeDir = false → t.har[h].mot.startMb = none ∧ t.har[h].mot.speed = m.speed)) ∧
      ((motIn a h .bridge 2 = false ∨ since m.brakeAt < 6400000 * m.p 4) → exec (.brakeTimeout at_ h) s = .next s))) ∧
  (∀ (at_ : Instant) (h : HarnessId) (p : ProgId) (e : SpwEnt) (s : State), (let a := advanceTo at_ s
      let m := a.har[h].mot
      let x : SpwEnt := { e with tgt := BitVec.ofNat 8 h.val }
      blankOver a h = true → motionProg a h = some p → commEntry a.har[h] = some e →
      (spwRefusal a p x 0 = none → Goes (.commutationBlankingEnd at_ h) s fun t =>
        t.har = vmod a.har h (fun k => { k with mot := { m with comm := 1 } }) ∧ t.thr = a.thr ∧ ∃ i : Fin 256, a.spw.ent[i].valid = false ∧
          t.spw.ent[i] = { x with valid := true, conf := false, owner := BitVec.ofNat 8 (firstTid a p).val, gen := a.spw.ent[i].gen + 1 } ∧
          x.tkind = 2 ∧ x.ckind = 2 ∧ x.carg = 2 ∧ x.trel = true ∧ ∀ j, j ≠ i → t.spw.ent[j] = a.spw.ent[j]) ∧
      (spwRefusal a p x 0 ≠ none → Goes (.commutationBlankingEnd at_ h) s fun t => t.spw.refused = satInc a.spw.refused ∧
        t.har = vmod a.har h (fun k => { k with mot := { m with comm := 3 } }) ∧
        t.thr[firstTid a p].timer = some (m.predicted + BitVec.ofNat 48 m.delay)))) ∧
  (∀ (at_ : Instant) (h : HarnessId) (s : State), blankOver (advanceTo at_ s) h = false →
      exec (.commutationBlankingEnd at_ h) s = .next s) ∧
  (∀ (at_ : Instant) (h : HarnessId) (tid : Tid) (v : EvTime) (s : State), (let a := advanceTo at_ s
      let m := a.har[h].mot
      let next : BitVec 3 := if m.cstep = 5 then 0 else m.cstep + 1
      let live := a.har[h].live = true ∧ a.har[h].kind = 2
      a.engClock = true → a.thr[tid].timer = some v → passed a.nowEv v = true → motionOf a tid = some h → m.prog = .bridge →
      (∀ p, m.st = 4 → motionProg a h = some p → firstTid a p = tid → Goes (.threadTimerMatch at_ tid) s fun t =>
        t.har[h].mot.st = 4 ∧ t.har[h].mot.cstep = next ∧ (live → t.har[h].phase = commPhases next.toNat) ∧
        t.thr[tid].timer = some (a.nowEv + BitVec.ofNat 48 (m.interval (m.rampRpm a.nowEv)))) ∧
      (m.st = 5 → m.comm = 3 → Goes (.threadTimerMatch at_ tid) s fun t => t.thr[tid].timer = none ∧
        (m.misses = 0 → t.har[h].mot.st = 5 ∧ t.har[h].mot.misses = 1 ∧ t.har[h].mot.cstep = next ∧ t.har[h].mot.comm = 0 ∧
          (live → t.har[h].phase = commPhases next.toNat)) ∧
        (m.misses ≠ 0 → t.har[h].mot.st = 6 ∧ (live → t.har[h].phase = 0))))) ∧
  (∀ (at_ : Instant) (h : HarnessId) (ph : BitVec 9) (s : State), (let a := advanceTo at_ s
      let k := a.har[h]
      timedDue a h = true → k.mot.prog = .bridge → k.mot.st = 5 → k.kind = 2 → k.live = true → k.actWord = 4#4 ++ 0#19 ++ ph →
      (∀ p, p < 3 → fld ph (3 * p) 3 ≠ (6 : BitVec 3)) → Goes (.timedActionApply at_ h) s fun t =>
        (∀ p, p < 3 → t.har[h].phaseOf p = if fld ph (3 * p) 3 = (7 : BitVec 3) then k.phaseOf p else fld ph (3 * p) 3) ∧
        t.har[h].mot.cstep = (if k.mot.cstep = 5 then 0 else k.mot.cstep + 1) ∧ t.har[h].mot.misses = 0 ∧ t.har[h].mot.comm = 0)) ∧
  (∀ (at_ : Instant) (h : HarnessId) (s : State), (let a := advanceTo at_ s
      let m := a.har[h].mot
      let pos := if m.dirRev then m.pos - 1 else m.pos + 1
      let n := { m with pos := pos }
      let due := m.prog = .axis ∧ m.armed = true ∧ passed a.nowEv m.fall = true
      (¬ due → exec (.axisStepCounted at_ h) s = .next s) ∧
      (due → Goes (.axisStepCounted at_ h) s fun t =>
        t.har[h].mot.pos = pos ∧ t.har[h].mot.target = m.target ∧ (∀ j, j ≠ h → t.har[j].mot = a.har[j].mot) ∧
        ((m.stopping = 2 ∨ (m.vsq = 0 ∧ (m.stopping = 1 ∨ pos = m.target))) →
          t.har[h].mot.st = 0 ∧ t.har[h].mot.armed = false ∧ t.har[h].mot.stopping = 0 ∧ t.har[h].mot.speed = 0) ∧
        (m.stopping ≠ 2 → (m.vsq ≠ 0 ∨ (m.stopping ≠ 1 ∧ pos ≠ m.target)) →
          t.har[h].mot.armed = true ∧ t.har[h].mot.fall = t.har[h].mot.rise + BitVec.ofNat 48 (6400 * m.p 4) ∧
          t.har[h].mot.stopping = m.stopping ∧
          ∀ p, motionProg a h = some p → t.thr[firstTid a p].timer = some t.har[h].mot.fall) ∧
        (m.stopping ≠ 2 → m.vsq ≠ 0 → t.har[h].mot.dirRev = m.dirRev) ∧
        (m.stopping = 1 → m.vsq ≠ 0 → m.p 3 = 0 → t.har[h].mot.vsq = m.vsq - 2 * m.p 2) ∧
        (m.stopping = 0 → m.vsq ≠ 0 → m.p 3 = 0 → m.st = 1 → n.reaches = true →
          min (m.p 0 * m.p 0) (m.vsq + 2 * m.p 1) ≤ n.stopSq (n.ahead.toNat - 1) →
          t.har[h].mot.vsq = min (m.p 0 * m.p 0) (m.vsq + 2 * m.p 1) ∧ t.har[h].mot.st = 1) ∧
        (m.stopping = 0 → m.vsq = 0 → pos ≠ m.target → (m.st = 2 ∨ n.ahead < 0) →
          t.har[h].mot.dirRev = (!m.dirRev) ∧ t.har[h].mot.st = 1) ∧
        (m.stopping = 0 → m.vsq = 0 → pos ≠ m.target → m.st ≠ 2 → 0 ≤ n.ahead →
          t.har[h].mot.dirRev = m.dirRev ∧ t.har[h].mot.st = m.st))))

/-- GAIT_EDGE, GAIT_DEADLINE and GAIT_STALL: teeth, noise, loss of sync, HOLD and the stored position (10_gait.md,
R232, R234, R235, R237, R238, R243, R244, R246, R248, R249). The oldest capture handed to the tracker is classified
and leaves its queue; with none, or in OFF, nothing else changes. For an even wheel without a secondary wheel or
reverse detection: a SYNC tooth whose gap is within TOL of the period moves IDX on by one in the cycle, its gap being
the new period and the newest of the window; a gap under NOISE, not strict, is counted and changes nothing else; an
early one is a loss, with reason 2, LOSS_CNT counted and a new search that begins at this edge; an early edge of SEEK
is kept in the search. At the deadline, with no capture waiting, the tracker goes to HOLD, reason 10, and its linked
channels are safe and stopped. A stall leaves HALF or HOLD with reason 8; one from HOLD entered in SYNC stores tag and
IDX, and quick start then goes to PROV. -/
def Obligations.GaitTracking : Prop :=
  (∀ (n : Fin 2) (s : State), s.gt[n].inbox = [] → exec (.gaitEdge n) s = .next s) ∧
  (∀ (n : Fin 2) (y : XEv) (rest : List XEv) (s : State), (let k := s.gt[n]
      let x := y.stamp
      let g := (x - k.last).toNat
      let e := 1000 * k.per.toNat
      k.inbox = y :: rest →
      (k.gs = .off → exec (.gaitEdge n) s = .next { s with gt := vmod s.gt n fun k => { k with inbox := rest } }) ∧
      (k.gs = .sync → k.uneven = false → k.sec = 0 → k.revSrc = 0 → k.first = false → k.exSeen = false → k.gotPer = true →
        k.extraNext = false →
        (k.noise * k.per.toNat ≤ 1000 * g → us5 ≤ g → (1000 - k.tol) * e ≤ 1000000 * g → 1000000 * g ≤ (1000 + k.tol) * e →
          Goes (.gaitEdge n) s fun t =>
            t.gt[n].gs = .sync ∧ t.gt[n].idx = BitVec.ofNat 16 ((k.idx.toNat + 1) % max 1 k.nt) ∧ t.gt[n].inbox = rest ∧
            t.gt[n].per = BitVec.ofNat 48 g ∧ t.gt[n].last = x ∧ t.gt[n].win = (BitVec.ofNat 48 g :: k.win).take 128 ∧
            t.gt[n].lossCnt = k.lossCnt ∧ (∀ j, j ≠ n → t.gt[j] = s.gt[j])) ∧
        ((1000 * g < k.noise * k.per.toNat ∨ g < us5) → k.strict = false → (∀ d, k.deadline = some d → 1000000 * g ≤ d) →
          exec (.gaitEdge n) s = .next { s with gt := vmod s.gt n fun k => { k with inbox := rest, noiseCnt := satInc k.noiseCnt } }) ∧
        (k.noise * k.per.toNat ≤ 1000 * g → us5 ≤ g → 1000000 * g < (1000 - k.tol) * e → Goes (.gaitEdge n) s fun t =>
          t.gt[n].gs = .seek ∧ t.gt[n].rsn = 2 ∧ t.gt[n].lossCnt = satInc k.lossCnt ∧ t.gt[n].last = x ∧ t.gt[n].hist = [(x, y.pw)] ∧
          bit t.gt[n].flags 1 = true)) ∧
      (k.gs = .seek → k.uneven = false → k.revSrc = 0 → k.hist.length < 3 → Goes (.gaitEdge n) s fun t =>
        t.gt[n].gs = .seek ∧ t.gt[n].hist = (x, y.pw) :: k.hist ∧ t.gt[n].last = x ∧ t.gt[n].lossCnt = k.lossCnt))) ∧
  (∀ (at_ : Instant) (n : Fin 2) (s : State), (let a := advanceTo at_ s
      let k := a.gt[n]
      (deadlineDue a n = false → exec (.gaitDeadline at_ n) s = .next s) ∧
      (deadlineDue a n = true → Goes (.gaitDeadline at_ n) s fun t =>
        t.gt[n].gs = .hold ∧ t.gt[n].holdFrom = k.gs ∧ t.gt[n].rsn = 10 ∧ t.gt[n].lossCnt = k.lossCnt ∧ t.gt[n].idx = k.idx ∧
        (∀ (l : Lch) (u : UnitId), bit k.linkCh l.val = true → unitOf a l = some u →
          t.units[u].safeHeld = true ∧ t.units[u].en = false ∧ t.units[u].armA = false ∧ t.units[u].armB = false)) ∧
      (stallDue a n = false → exec (.gaitStall at_ n) s = .next s) ∧
      (stallDue a n = true → Goes (.gaitStall at_ n) s fun t => t.gt[n].rsn = 8 ∧ t.gt[n].lossCnt = k.lossCnt ∧
        (∀ j, j ≠ n → t.gt[j] = a.gt[j]) ∧
        ((k.gs = .half ∨ k.holdFrom ≠ .sync) → t.gt[n].gs = .seek ∧ t.gt[n].idx = 0xFFFF ∧ t.rsv = a.rsv) ∧
        (k.gs = .hold → k.holdFrom = .sync →
          t.rsv.backup[26 + n.val]'(by omega) = 1#1 ++ (0#7 : BitVec 7) ++ k.tag ++ k.idx ∧
          (if k.qsEn then t.gt[n].gs = .prov ∧ t.gt[n].idx = k.idx else t.gt[n].gs = .seek)))))

/-! ### The host link, probes and interrupts -/

/-- A frame of at most 3 bytes returns the status word and its CRC and has no effect; only what the link has sent and
sampled is noted (R291). While the link serves frames, its pins not cut by a boundary scan, every frame command of at
most 3 bytes answers the leading bytes of status word and SCRC and changes no state beside the three fields in which
the model keeps what the frame sent and sampled: its output bytes, the status snapshot and the eligibility at the
snapshot (log entry 2). -/
def Obligations.StatusPeekHasNoEffect : Prop :=
  ∀ (l : List Byte) (bad : Bool) (c : Instr) (s : State), s.pinsCut = false → s.serving = true → l.length ≤ 3 →
    c ∈ [.statusPeek l, .statusFrame l bad, .readFrame l bad, .writeFrame l bad, .claimFrame l bad, .completeFrame l bad, .doorbellFrame l bad] →
    let w := statusWord s
    let st : List Byte := [fld w 8 8, fld w 0 8]
    exec c s = .next { s with host := { s.host with
      sdo := (st ++ [crc8 st]).take l.length, snap := w, snapElig := s.irq.gateH && (winnerH s).isSome } }

/-- Status, read, write, claim, complete and doorbell frames, and the application of a held write (13_host_link.md,
R288, R290, R292, R293, R294, R297, R298, 15_interrupts.md, R343, R347, 18_debug.md, R403). A checked frame restarts
the host watchdog and answers the status word with its CRC first. A read returns a reply mailbox's bytes with their
CRC; one outside every region sets ADDR_ERR alone. A write to a request mailbox is held and its apply writes those
bytes and no other, or sets MB_ERR alone while the mailbox is PENDING; a write to a reply mailbox sets ADDR_ERR. A
claim takes the lowest pending ID of target H, clearing its latch; a complete ends it, or sets CERR_H for an ID that
is not active. A doorbell makes a FREE mailbox PENDING and raises its source, and sets DB_ERR on another. A frame
whose CRC fails or that CSN cut is counted and discarded; while the link does not serve, SDO reads ones, and while a
boundary scan cuts the pins, the level the boundary register gives it. -/
def Obligations.HostFrames : Prop :=
  ∀ s : State,
    let w := statusWord s
    let st : List Byte := [fld w 8 8, fld w 0 8]
    let head := st ++ [crc8 st]
    let fr (c : List Byte) : List Byte := c ++ [crc8 c]
    let ab (a : Nat) : List Byte := [BitVec.ofNat 8 (a / 65536), BitVec.ofNat 8 (a / 256), BitVec.ofNat 8 a]
    (s.pinsCut = false → s.serving = true → s.host.badNext = false →
      (Goes (.statusFrame (fr [0xA0, 0, 0, 0]) false) s fun t =>
        t.host.sdo = head ++ [0, 0] ∧ t.host.hwdAt = s.tb.dt ∧ t.host.mb = s.host.mb ∧ t.host.stage = s.host.stage ∧ Within [.host] s t) ∧
      (∀ (r : MailboxId) off n (pad : List Byte), s.host.stage = [] → 1 ≤ n → off + n ≤ 256 → pad.length = n + 1 →
        Goes (.readFrame (fr ([0xA1] ++ ab (0x2000 + 256 * r.val + off) ++ [BitVec.ofNat 8 (n - 1)]) ++ pad) false) s fun t =>
          t.host.sdo = head ++ [0, 0, 0] ++ fr (memBytes s.host.mb (0x2000 + 256 * r.val + off) n) ∧ t.host.hwdAt = s.tb.dt ∧
          t.host.mb = s.host.mb ∧ t.host.replyRdy = s.host.replyRdy ∧ Within [.host] s t) ∧
      (∀ a n (pad : List Byte), a < 2 ^ 24 → 1 ≤ n → n ≤ 256 → pad.length = n + 1 → hostRegion a n = none →
        Goes (.readFrame (fr ([0xA1] ++ ab a ++ [BitVec.ofNat 8 (n - 1)]) ++ pad) false) s fun t =>
          t.host.addrErr = true ∧ t.host.crcErr = s.host.crcErr ∧ t.host.mb = s.host.mb ∧ t.host.stage = s.host.stage ∧ Within [.host] s t) ∧
      (∀ (r : MailboxId) off (data : List Byte), s.host.stage = [] → data ≠ [] → off + data.length ≤ 256 →
        (Goes (.writeFrame (fr ([0xA2] ++ ab (0x1000 + 256 * r.val + off) ++ data)) false) s fun t =>
          t.host.stage = [(BitVec.ofNat 24 (0x1000 + 256 * r.val + off), data)] ∧ t.host.mb = s.host.mb ∧ t.host.sdo.take 3 = head ∧
          Within [.host] s t) ∧
        (Goes (.writeFrame (fr ([0xA2] ++ ab (0x2000 + 256 * r.val + off) ++ data)) false) s fun t =>
          t.host.addrErr = true ∧ t.host.stage = [] ∧ t.host.mb = s.host.mb ∧ Within [.host] s t)) ∧
      (∀ p q : Byte, s.host.stage = [] → Goes (.claimFrame (fr [0xA4, 0, 0, 0] ++ [p, q]) false) s fun t =>
        (∀ i : Fin 256, s.irq.activeH = 0 → s.irq.gateH = true → pendH s i.val = true → (∀ j, j < i → pendH s j.val = false) →
          t.host.sdo = head ++ [0, 0] ++ fr [BitVec.ofNat 8 i.val] ∧ t.irq.activeH = BitVec.ofNat 8 i.val ∧
          t.irq.actH = setBit s.irq.actH i.val true ∧ t.irq.latH = setBit s.irq.latH i.val false) ∧
        (s.irq.activeH ≠ 0 → t.host.sdo = head ++ [0, 0] ++ fr [0] ∧ t.irq.claimOrder = true ∧ t.irq.actH = s.irq.actH ∧
          t.irq.latH = s.irq.latH) ∧ Within [.host, .irq] s t) ∧
      (∀ id : Byte, s.host.stage = [] → Goes (.completeFrame (fr [0xA5, 0, 0, 0, id]) false) s fun t =>
        (bit s.irq.actH id.toNat = true → t.irq = { s.irq with actH := setBit s.irq.actH id.toNat false, activeH := 0 }) ∧
        (bit s.irq.actH id.toNat = false → t.irq = { s.irq with cerrH := true } ∧ t.rsv = s.rsv) ∧ Within [.host, .irq, .rsv] s t) ∧
      (∀ r : MailboxId, s.host.stage = [] → Goes (.doorbellFrame (fr [0xA6, 0, 0, 0, BitVec.ofNat 8 r.val]) false) s fun t =>
        (bit s.host.reqBusy r.val = false → bit s.host.replyRdy r.val = false →
          t.host.reqBusy = setBit s.host.reqBusy r.val true ∧ t.host.order = s.host.order ++ [BitVec.ofNat 3 r.val] ∧ t.host.dbErr = s.host.dbErr ∧
          Latched (173 + r.val) t) ∧
        ((bit s.host.reqBusy r.val || bit s.host.replyRdy r.val) = true →
          t.host.dbErr = true ∧ t.host.reqBusy = s.host.reqBusy ∧ t.host.order = s.host.order ∧ t.irq = s.irq) ∧ Within [.host, .irq] s t) ∧
      (∀ (l : List Byte) (bad : Bool) (c : Instr), 3 < l.length → (bad = true ∨ (knownCmd (byteAt l 0) = true ∧ frameBroken l = true)) →
        c ∈ [.statusFrame l bad, .readFrame l bad, .writeFrame l bad, .claimFrame l bad, .completeFrame l bad, .doorbellFrame l bad] →
        Goes c s fun t => t.host.crcErr = true ∧ t.host.crcCnt = satInc s.host.crcCnt ∧ t.host.hwdAt = s.host.hwdAt ∧
          t.host.mb = s.host.mb ∧ t.host.stage = s.host.stage ∧ t.host.reqBusy = s.host.reqBusy ∧ Within [.host, .hlt] s t)) ∧
    (∀ (r : MailboxId) off (data : List Byte), s.serving = true → data ≠ [] → off + data.length ≤ 256 → Memory.wf s.host.mb = true →
      s.host.stage = [(BitVec.ofNat 24 (0x1000 + 256 * r.val + off), data)] → (let a := 0x1000 + 256 * r.val + off
      Goes .writeApply s fun t => t.host.stage = [] ∧
        (bit s.host.reqBusy r.val = false → memBytes t.host.mb a data.length = data ∧
          (∀ x, x < a ∨ a + data.length ≤ x → memGet t.host.mb x = memGet s.host.mb x) ∧ t.host.mbErr = s.host.mbErr) ∧
        (bit s.host.reqBusy r.val = true → t.host.mb = s.host.mb ∧ t.host.mbErr = true) ∧ Within [.host] s t)) ∧
    (∀ (l : List Byte) (bad : Bool) (c : Instr),
      c ∈ [.statusFrame l bad, .readFrame l bad, .writeFrame l bad, .claimFrame l bad, .completeFrame l bad, .doorbellFrame l bad] →
      (s.pinsCut = false → s.serving = false →
        exec c s = .next { s with host := { s.host with sdo := List.replicate l.length 0xFF, snap := 0xFFFF } }) ∧
      (s.pinsCut = true →
        exec c s = .next { s with host := { s.host with sdo := List.replicate l.length (cutSdo s) } }))

/-- REPLY_RELEASE, HOST_WATCHDOG_EXPIRY, HWD_TO_WRITE, HOST_LOST_CLEAR, CLAIM_F_READ and COMPLETE_F_WRITE
(13_host_link.md, R297, R301, 15_interrupts.md, R341, R342, R343, R344, R345). A release clears REPLY_RDY of its
mailboxes and nothing else, unless it releases the reply of an accepted RESET, which then asserts. The host watchdog
at its time sets HOST_LOST and source 209, and with HWD_ACT every live power harness is SAFE; with HWD_ACT 0 no
harness changes, and a Farrier that does not run owes its report and SAFE until it does (log entry 48). Writes of
HWD_TO and HOST_LOST restart the count. A claim of F takes the eligible source of highest priority, the lowest ID
among equals, active and its latch cleared; without one it returns 255 where one was eligible at the read, 0
otherwise. A complete ends an active source, clearing the wake latches behind it, and sets CERR_F alone for another. A
halted Farrier claims and completes nothing. -/
def Obligations.HostRegistersAndClaims : Prop :=
  ∀ s : State,
    (∀ mask : Byte, (s.far.rstPend = false ∨ s.far.halted = true ∨ bit (s.host.replyRdy &&& mask) s.far.rstMb.toNat = false) →
      exec (.replyRelease mask) s = .next { s with host := { s.host with replyRdy := s.host.replyRdy &&& ~~~mask } }) ∧
    (∀ mask : Byte, s.far.rstPend = true → s.far.halted = false → bit (s.host.replyRdy &&& mask) s.far.rstMb.toNat = true →
      s.pwr.phase ≠ .deep → s.rsv.deepFlag = false →
      Goes (.replyRelease mask) s (HeldBy .sw s)) ∧
    (∀ at_ : Instant, (let a := advanceTo at_ s
      (hwdDue a = false → exec (.hostWatchdogExpiry at_) s = .next s) ∧
      (hwdDue a = true → Goes (.hostWatchdogExpiry at_) s fun t => irqInput t 209 = true ∧
        (s.host.hwdAct = false → t.har = s.har ∧ t.units = s.units) ∧
        (s.farrierUp = false → t.host.hwdPost = some false ∧ t.har = s.har ∧ t.units = s.units) ∧
        (s.farrierUp = true → s.host.hwdAct = true → ∀ h : HarnessId, s.har[h].power = true → s.har[h].live = true →
          t.har[h].hstate = .safe ∧ t.har[h].win = 0 ∧ t.har[h].phase = 0)))) ∧
    (∀ v : W32, exec (.hwdToWrite v) s =
      .next { s with host := { s.host with hwdTo := fld v 0 8, hwdAct := bit v 8, hwdAt := s.tb.dt } }) ∧
    (exec .hostLostClear s = .next { s with host := { s.host with hostLost := false, hwdAt := s.tb.dt } }) ∧
    (s.far.halted = true → ∀ (b : Bool) (id : Byte), exec (.claimFRead b) s = .next s ∧ exec (.completeFWrite id) s = .next s) ∧
    (s.far.halted = false → ∀ b : Bool,
      (s.irq.gateF = false → exec (.claimFRead b) s = .next { s with irq := { s.irq with claimF := 0 } }) ∧
      (∀ i : Fin 256, s.irq.gateF = true → eligF s i = true →
        (∀ j, eligF s j = true → s.irq.pri[j].toNat < s.irq.pri[i].toNat ∨ (s.irq.pri[j] = s.irq.pri[i] ∧ i ≤ j)) →
        exec (.claimFRead b) s = .next { s with irq := { s.irq with
          claimF := BitVec.ofNat 8 i.val, actF := setBit s.irq.actF i.val true, latF := setBit s.irq.latF i.val false } }) ∧
      (s.irq.gateF = true → (∀ i, eligF s i = false) →
        exec (.claimFRead b) s = .next { s with irq := { s.irq with claimF := if b then 255 else 0 } }) ∧
      (∀ id : Byte, bit s.irq.actF id.toNat = false →
        exec (.completeFWrite id) s = .next { s with irq := { s.irq with cerrF := true } }) ∧
      (∀ id : Byte, bit s.irq.actF id.toNat = true → Goes (.completeFWrite id) s fun t =>
        t.irq = { s.irq with actF := setBit s.irq.actF id.toNat false } ∧
        (id.toNat < 224 ∨ 227 < id.toNat → t.rsv = s.rsv) ∧
        (224 ≤ id.toNat → id.toNat ≤ 227 → irqInput t id.toNat = false) ∧ Within [.irq, .rsv] s t))

/-- MUSTER, once in each ms of DT, serves the watchdog and counts; where table and hardware agree nothing else
changes, and a channel that differs is reported and adopted (14_farrier_commands.md, R315, R316, R317, 17_health.md,
R382). While the Farrier runs and carries out no request, with no tracker to rearm and nothing that waited for it to
run, and once DT has entered a ms that no muster has served: where its table agrees with the hardware for every
channel, harness, thread and basin, a muster serves the Farrier watchdog, adds 1 to the muster count and changes
nothing else. Where one open channel that its unit holds differs alone, source 210 is raised and the table takes the
channel as the hardware has it. A Farrier that does not run or carries out a request, or that has mustered in this ms,
musters not at all. -/
def Obligations.MusterRepairsTheTable : Prop :=
  ∀ (at_ : Instant) (s : State), let a := advanceTo at_ s
    let same (l : Lch) := a.lmap[l].mig ≠ none ∨ a.far.tabCh[l] = hwCh a l
    let rest := (∀ h : HarnessId, a.far.tabHar[h] = hwHar a h) ∧ (∀ t : Tid, a.far.tabThr[t] = hwThr a t) ∧
      (∀ b : BasinId, a.far.tabBas[b] = hwBas a b) ∧ a.host.hwdPost = none ∧ (a.tb.gapDue ≠ [] ∨ a.rcd.due = []) ∧
      ∀ n : Fin 2, a.gt[n].rearm = false
    ((s.farrierUp = false ∨ s.inRequest = true ∨ a.msNow ≤ s.far.musterMs) → exec (.muster at_) s = .next s) ∧
    (s.farrierUp = true → s.inRequest = false → s.far.musterMs < a.msNow → rest →
      ((∀ l, same l) → (let b : State := { a with far := { a.far with musterMs := a.msNow } }
        exec (.muster at_) s = .next { wdtService b with host := { a.host with musterSeq := a.host.musterSeq + 1 } })) ∧
      (∀ l : Lch, (∀ j, j ≠ l → same j) → a.lmap[l].mig = none → a.far.tabCh[l] ≠ hwCh a l → (hwCh a l).held = true →
        Goes (.muster at_) s fun t =>
          t.far.tabCh[l] = hwCh a l ∧ Latched 210 t ∧ t.host.musterSeq = a.host.musterSeq + 1 ∧ t.units = a.units ∧ t.lmap = a.lmap ∧
          t.har = a.har ∧ t.thr = a.thr))

/-- PROBE_START, CHARGE_DONE, DISCHARGE_TRIP, DISCHARGE_TIMEOUT, PROBE_SLOT_COMPLETE, MEAS_INTERVAL_BOUNDARY and
DECOMMISSION_ERASE (11_probes.md, R259, R262, R263, R265, R266, R268, R271, 12_sealed_record.md, R279). START begins
the slot list on an idle converter and nothing else; a busy one ignores it, and so does one in SLEEP, DEEP or a
ladder; a failed one gives REF for its probes. A charge ends CHG after it began, and from then the discharge is timed.
A trip adds its time to the sum of its side; the last trip of a good slot stores both sums, their ratio to 2^24, FULL
and the moment. A timeout of the reference side marks the probes REF, of the probe side the slot OPEN. The Farrier
takes a result once, a first fault being recorded. A boundary moves the base by whole intervals and starts the
converters of the schedule. Decommissioning with an empty queue erases the key and answers. -/
def Obligations.ProbeCommands : Prop :=
  (∀ (c : Fin 2) (s : State), ((s.conv[c].busy = true ∨ s.probesOn = false) → exec (.probeStart c) s = .next s) ∧
      (s.conv[c].busy = false → s.probesOn = true → s.conv[c].failed = false → exec (.probeStart c) s = .next { s with conv := vmod s.conv c fun k =>
        { k with busy := true, tc := s.nowEv, slot := 0, pair := 0, onPrb := false, dis := false, sumRef := 0, sumPrb := 0, refBad := false,
                 prbOpen := false, prbShort := false } }) ∧
      (s.conv[c].busy = false → s.probesOn = true → s.conv[c].failed = true → Goes (.probeStart c) s fun t =>
        ∀ i, i < s.conv[c].slotsUsed → bit t.prb[slotProbe s c i].flags 3 = true ∧ t.prb[slotProbe s c i].done = true ∧
          t.prb[slotProbe s c i].res = 3 ∧ t.prb[slotProbe s c i].ratio = s.prb[slotProbe s c i].ratio)) ∧
  (∀ (at_ : Instant) (c : Fin 2) (s : State), (let a := advanceTo at_ s
      let k := a.conv[c]
      let d := (a.nowEv - k.t0).toNat
      let p := slotProbe a c k.slot.toNat
      let short := (d : Int) - k.ofs.toInt < (k.tshort.toNat : Int)
      let chg := 6400 * k.chg.toNat
      ((k.busy = false ∨ k.dis = true ∨ (a.nowEv - k.tc).toNat < chg) → exec (.chargeDone at_ c) s = .next s) ∧
      (k.busy = true → k.dis = false → chg ≤ (a.nowEv - k.tc).toNat → exec (.chargeDone at_ c) s =
        .next { a with conv := vmod a.conv c fun k => { k with dis := true, t0 := k.tc + BitVec.ofNat 48 chg } }) ∧
      (k.busy = true → k.dis = true → d < k.topen.toNat → k.onPrb = false → ¬ short → exec (.dischargeTrip at_ c) s =
        .next { a with conv := vmod a.conv c fun k => { k with dis := false, onPrb := true, tc := a.nowEv, sumRef := satAdd k.sumRef d } }) ∧
      (k.busy = true → k.dis = true → d < k.topen.toNat → k.onPrb = true → ¬ short → (k.pair + 1).toNat < k.pairs →
        exec (.dischargeTrip at_ c) s = .next { a with conv := vmod a.conv c fun k =>
          { k with dis := false, onPrb := false, tc := a.nowEv, sumPrb := satAdd k.sumPrb d, pair := k.pair + 1 } }) ∧
      (k.busy = true → k.dis = true → d < k.topen.toNat → k.onPrb = true → ¬ short → k.pairs ≤ (k.pair + 1).toNat →
        k.refBad = false → k.prbOpen = false → k.prbShort = false → a.prb[p].inj = 0 → Goes (.dischargeTrip at_ c) s fun t =>
          (let r := t.prb[p]
          let o : Int := (k.pairs : Int) * k.ofs.toInt
          r.tRef = k.sumRef ∧ r.tPrb = satAdd k.sumPrb d ∧ r.full = true ∧ r.done = true ∧ r.res = 0 ∧ r.dt = a.tb.dt ∧
          (0 < (k.sumRef.toNat : Int) - o → 0 ≤ ((satAdd k.sumPrb d).toNat : Int) - o →
            r.ratio = satNat 32 (roundDiv ((((satAdd k.sumPrb d).toNat : Int) - o).toNat * 2 ^ 24) ((k.sumRef.toNat : Int) - o).toNat)))) ∧
      (k.busy = true → k.dis = true → k.topen.toNat ≤ d → k.onPrb = false → Goes (.dischargeTimeout at_ c) s fun t =>
        t.conv[c].refBad = true ∧ t.conv[c].onPrb = true ∧ t.conv[c].dis = false ∧
        ∀ i, i < k.slotsUsed → bit t.prb[slotProbe a c i].flags 3 = true) ∧
      (k.busy = true → k.dis = true → k.topen.toNat ≤ d → k.onPrb = true → (k.pair + 1).toNat < k.pairs →
        Goes (.dischargeTimeout at_ c) s fun t =>
          t.conv[c].prbOpen = true ∧ t.conv[c].onPrb = false ∧ t.conv[c].pair = k.pair + 1 ∧
          t.conv[c].sumPrb = satAdd k.sumPrb k.topen.toNat ∧ t.prb = a.prb))) ∧
  (∀ (p : Fin 16) (s : State), (s.prb[p].done = false → exec (.probeSlotComplete p) s = .next s) ∧
      (s.farrierUp = true → s.prb[p].done = true → s.ps.lostN = 0 → Goes (.probeSlotComplete p) s fun t =>
        t.prb[p].done = false ∧ t.prb[p].full = false ∧
        (s.prb[p].res ≠ 0 → t.prb[p].faulty = s.prb[p].res.zeroExtend 3 ∧ t.prb[p].valid = false ∧
          (s.prb[p].faulty = 0 → CanRecord s →
            Recorded (mkEntry 6 (BitVec.ofNat 8 p.val) s.prb[p].dt (s.prb[p].res.zeroExtend 32) 0 0) s t) ∧
          (s.prb[p].faulty ≠ 0 → t.rcd = s.rcd)))) ∧
  (∀ (at_ : Instant) (k : Sched) (s : State), (let a := advanceTo at_ s
      let gone := (a.tb.dt - a.ps.base).toNat
      a.farrierUp = true → a.ps.sched = some k → 0 < measPeriod a → measPeriod a ≤ gone → Goes (.measIntervalBoundary at_) s fun t =>
        t.ps.base = a.ps.base + BitVec.ofNat 64 (gone / measPeriod a * measPeriod a) ∧ t.ps.intv = a.ps.intv ∧ t.ps.sched = a.ps.sched ∧
        (k.c0.nslot ≠ 0 → a.conv[(0 : Fin 2)].failed = false → t.conv[(0 : Fin 2)].busy = true) ∧
        (k.c1.nslot ≠ 0 → a.conv[(1 : Fin 2)].failed = false → t.conv[(1 : Fin 2)].busy = true))) ∧
  (∀ s : State, (s.rcd.decom = none → exec .decommissionErase s = .next s) ∧
      (∀ x, s.rcd.decom = some x → s.farrierUp = true → s.rcd.q = [] → s.rcd.epochPend = none → exec .decommissionErase s =
        .next (writeReply (bvFin 8 rfl x.1) 0x84 x.2 0 [] { s with nv := { s.nv with key := none }, rcd := { s.rcd with decom := none, shut := false } })) ∧
      (s.rcd.q ≠ [] → exec .decommissionErase s = .next s))

/-! ### Requests carried out by the Farrier -/

/-- When a request is not taken, is refused by injection or by the state, and what a malformed one leaves
(14_farrier_commands.md, R306, R308, R309, R314). Every request row leaves the state unchanged while the Farrier takes
no request; it is refused BAD_FIELD as malformed where an injected refusal stands for its mailbox, and BAD_STATE, with
no effect but the reply, where the state does not allow the command. A malformed request counts at its mailbox, ends
the injected refusal, latches source 217 where it is enabled, and frees the mailbox with its reply. -/
def Obligations.FarrierRefusesRequests : Prop :=
  (∀ c cmd q s, request c = some (cmd, q) →
    (s.takes = false → exec c s = .next s) ∧
    (s.takes = true → bit s.hlt.mbInj q.mb.val = true → exec c s = .next (refuseMalformed cmd q 3 true s)) ∧
    (s.takes = true → bit s.hlt.mbInj q.mb.val = false → stateRefuses s cmd = true →
      exec c s = .next (writeReply q.mb cmd q.tag 4 [] s))) ∧
  (∀ cmd (q : Req) st inj s, let u := refuseMalformed cmd q st inj s
    u.hlt.mbBad[q.mb] = satInc s.hlt.mbBad[q.mb] ∧ bit u.hlt.mbInj q.mb.val = false ∧ Latched 217 u ∧
    bit u.host.reqBusy q.mb.val = false ∧ bit u.host.replyRdy q.mb.val = true ∧
    Within [.bas, .bmem, .far, .hlt, .irq, .ost, .host] s u)

/-- NOP, IDENTITY, STATE, RESET, CAUSE_CLEAR, PROG_MSG and SLEEP: their replies and what they change
(12_sealed_record.md, R282, 14_farrier_commands.md, R307, R321, R322, R323, 15_interrupts.md, R350). Accepted, NOP
only replies OK; IDENTITY replies the device code, the serial, the firmware and patch versions; STATE replies the
flags, reset causes, REPLACE causes and counts; RESET with A5C3 replies OK and leaves its reset pending, with another
word LOCKED; CAUSE_CLEAR clears the cause bits named; PROG_MSG returns and removes up to MAX of the oldest messages; a
malformed MAX is refused. SLEEP waits while a probe sequencer runs; an obstacle refuses it BAD_STATE with its class
and number; otherwise the wake latches clear, the ARM bits and the park interval, with the doublings in force, are
set, and the sleep command is pending. All else but the reply stays. -/
def Obligations.FarrierSystemRequests : Prop :=
  ∀ (q : Req) (s : State), let a := markTaken q.mb s
    (Accepted (.nop q) s → Answers (.nop q) s 0 [] (· = a)) ∧
    (Accepted (.identity q) s →
      Answers (.identity q) s 0
        (le4 0x26408C3F ++ le8 s.nv.serial ++ [3, 2] ++ le2 s.far.patchLevel ++
         [0xC1, flagByte [s.far.patchRej], 0, 0]) (· = a)) ∧
    (Accepted (.state q) s →
      Answers (.state q) s 0
        ([flagByte [s.hlt.cause != 0, s.pwr.limp, s.writes, s.far.injOpen], s.pwr.cause, 0, 0] ++ le4 s.hlt.cause ++
         [count8 s.freeUnits, count8 s.retiredUnits, count8 s.retiredEngines, count8 s.openPrograms]) (· = a)) ∧
    (Accepted (.reset q 0xA5C3) s →
      Answers (.reset q 0xA5C3) s 0 [] (· = { a with far := { a.far with rstPend := true, rstMb := BitVec.ofNat 3 q.mb.val, rstAt := s.tb.dt } })) ∧
    (∀ w, w ≠ 0xA5C3 → Accepted (.reset q w) s → Turned (.reset q w) s 0x0A) ∧
    (∀ b, Accepted (.causeClear q b) s →
      Answers (.causeClear q b) s 0 [] (· = { a with pwr := { a.pwr with cause := s.pwr.cause &&& ~~~b } })) ∧
    (∀ mx, 1 ≤ mx.toNat → mx.toNat ≤ 20 → Accepted (.progMsg q mx) s →
      Answers (.progMsg q mx) s 0
        ([count8 (s.far.msgs.take mx.toNat).length, 0, 0, 0] ++ (s.far.msgs.take mx.toNat).flatMap msgBytes)
        (· = { a with far := { a.far with msgs := s.far.msgs.drop mx.toNat } })) ∧
    (∀ mx, mx.toNat = 0 ∨ 20 < mx.toNat → Accepted (.progMsg q mx) s → Malformed (.progMsg q mx) s 3) ∧
    (∀ st flags mask park, (st = 1 ∨ st = 2) → flags.toNat ≤ 3 → mask.toNat ≤ 1023 →
      (if bit flags 0 then 60 ≤ park.toNat ∧ park.toNat ≤ 86400 else park = 0 ∧ mask ≠ 0) →
      Accepted (.sleep q st flags mask park) s →
      (s.probing = true → exec (.sleep q st flags mask park) s = .next s) ∧
      (∀ c n, s.probing = false → sleepObstacle (bit flags 1) s = some (c, n) →
        Answers (.sleep q st flags mask park) s 4 [c, n] (· = a)) ∧
      (s.probing = false → sleepObstacle (bit flags 1) s = none →
        Answers (.sleep q st flags mask park) s 0 [] fun u =>
          u.far.sleepPend = some (st.truncate 2) ∧ u.rsv.wk = 0 ∧ u.rsv.arm = armBits mask (bit flags 0) ∧
          u.ps.parkInt.toNat = min (park.toNat * 2 ^ s.rcd.rateStep.toNat) 86400 ∧ (bit flags 0 = true → u.irq.gateH = false) ∧ u.pwr = s.pwr))

/-- TIME_GET, SPREAD, ANCHOR, DRIFT and NEW_EPOCH: their replies, record entries and settings (14_farrier_commands.md,
R324, 02_time.md, R23, R37, R43, R45, 12_sealed_record.md, R273, R284). Accepted, TIME_GET replies DT, the fine bits,
the source flags, the epoch and the drift figures, and latches what a read of DT_LO latches; SPREAD 0 to 2 waits for
modulation step 0, another value is refused. ANCHOR queues an ANCHOR entry at DT with 1 ms added to its uncertainty
and replies its SEQ and DT, NOT_PROVISIONED while writing is disabled. DRIFT sets the allowance of its source and
queues a NOTE. NEW_EPOCH with E90C, below epoch FFFF, closes the old epoch with a NOTE, writes the next epoch to NV
and waits for the TIDE edge, with an epoch start that already waits for it serving; another word is LOCKED, at FFFF it
is EPOCH_LIMIT, and where NV does not verify NV_ERROR. -/
def Obligations.FarrierTimeRequests : Prop :=
  ∀ (q : Req) (s : State), let a := markTaken q.mb s
    (Accepted (.timeGet q) s →
      Answers (.timeGet q) s 0
        (le8 s.tb.dt ++ [(fld s.tb.frac 30 2).zeroExtend 8, flagByte [s.rsv.onTrc, s.tb.refBrc, s.tb.disc, s.tb.coarse]] ++
         le2 s.tb.epochRun ++ le4 s.rsv.backup[28] ++ le4 s.rsv.backup[29] ++
         le4 s.tb.allowX ++ le4 s.tb.allowT)
        (· = { a with tb := { a.tb with dtHi := fld s.tb.dt 32 32, fineL := fld s.tb.frac 30 2 } })) ∧
    (∀ v, v.toNat ≤ 2 → Accepted (.spread q v) s →
      Answers (.spread q v) s 0 [] (· = { a with tb := { a.tb with sscPend := some (v.truncate 2), sscAt := s.tb.dt } })) ∧
    (∀ v, 2 < v.toNat → Accepted (.spread q v) s → Malformed (.spread q v) s 3) ∧
    (∀ secs ms src unc, ms.toNat ≤ 999 → src.toNat ≤ 3 → Accepted (.anchor q secs ms src 0 unc) s →
      (CanRecord s →
        Answers (.anchor q secs ms src 0 unc) s 0 (le4 s.rcd.seq ++ le8 s.tb.dt) fun u =>
          Recorded (mkEntry 4 src s.tb.dt secs (satInc unc) ms) s u ∧ Within [.rcd, .host] s u) ∧
      (s.writes = false → Turned (.anchor q secs ms src 0 unc) s 0x0E)) ∧
    (∀ secs ms src res unc, 999 < ms.toNat ∨ 3 < src.toNat ∨ res ≠ 0 → Accepted (.anchor q secs ms src res unc) s →
      Malformed (.anchor q secs ms src res unc) s 3) ∧
    (∀ src ppm, (src = 0 ∧ 1 ≤ ppm.toNat ∧ ppm.toNat ≤ 500 ∨ src = 1 ∧ 100 ≤ ppm.toNat ∧ ppm.toNat ≤ 10000) →
      Accepted (.drift q src 0 ppm) s →
      (CanRecord s →
        Answers (.drift q src 0 ppm) s 0 (le4 s.rcd.seq) fun u =>
          Recorded (mkEntry 0x0B 1 s.tb.dt ppm 0 (src.zeroExtend 16)) s u ∧ Within [.rcd, .tb, .host] s u ∧
          u.tb = (if src = 0 then { s.tb with allowX := ppm } else { s.tb with allowT := ppm })) ∧
      (s.writes = false →
        Answers (.drift q src 0 ppm) s 0 [0xFF, 0xFF, 0xFF, 0xFF]
          (· = { a with tb := if src = 0 then { s.tb with allowX := ppm } else { s.tb with allowT := ppm } }))) ∧
    (Accepted (.newEpoch q 0xE90C) s → s.nv.epoch ≠ 0xFFFF → s.nv.epochBad = none → s.nvFails 2 = true →
      Turned (.newEpoch q 0xE90C) s 0x0B) ∧
    (Accepted (.newEpoch q 0xE90C) s → s.nv.epoch ≠ 0xFFFF → s.nv.epochBad = none → s.nvFails 2 = false →
      (CanRecord s →
        Waits (.newEpoch q 0xE90C) s fun u =>
          Recorded (mkEntry 0x0B 2 s.tb.dt s.rcd.seq 0 0) s u ∧ u.nv.epoch = s.nv.epoch + 1 ∧ u.rcd.epochPend = some (3, []) ∧
          u.rcd.epochMb = some (BitVec.ofNat 3 q.mb.val, q.tag, 0x14) ∧ u.tb = s.tb ∧ u.rsv = s.rsv) ∧
      (s.writes = false → s.rcd.epochPend = none →
        Waits (.newEpoch q 0xE90C) s fun u =>
          u.rcd.q = s.rcd.q ∧ u.nv.epoch = s.nv.epoch + 1 ∧ u.rcd.epochPend = some (3, []) ∧ u.tb = s.tb ∧ u.rsv = s.rsv) ∧
      (s.rcd.epochPend ≠ none → Waits (.newEpoch q 0xE90C) s fun u =>
        u.rcd = { s.rcd with epochMb := some (BitVec.ofNat 3 q.mb.val, q.tag, 0x14) } ∧ u.nv = s.nv ∧ u.tb = s.tb ∧ u.rsv = s.rsv)) ∧
    (Accepted (.newEpoch q 0xE90C) s → s.nv.epoch = 0xFFFF → Turned (.newEpoch q 0xE90C) s 0x0D) ∧
    (∀ w, w ≠ 0xE90C → Accepted (.newEpoch q w) s → Turned (.newEpoch q w) s 0x0A)

/-- CH_OPEN, CH_CLOSE, CH_CFG, CH_WRITE, CH_CTL, CH_READ and TIO_SET: replies and effects on the channel's unit
(14_farrier_commands.md, R325, 04_channels.md, R69, R71, R72, R75, R77, R93, R100, R102, 05_ostler.md, R105). CH_OPEN
gives a closed channel the lowest-numbered FREE unit with its words and trims, no other unit or channel changing but
by an input that reads a pin of the channel; it is refused with no effect where the unit refuses the CTRL word,
without a FREE unit, or when the channel is open. CH_CLOSE frees the unit, its registers cleared, and closes the
channel; a member of a harness, a program's or a tracker's channel stays. CH_CFG writes both words, or none where CTRL
is refused. CH_WRITE writes a compare, absolute or from now; PRD and CNT are refused while EN is 1; for a migrating
channel it is held and its reply with it. CH_CTL disarms, enables and disables. CH_READ returns the captures and
status, consuming clears the flags and counters, and a retired channel reads zeros. TIO_SET sets one pin's control
word; only inputs that read that pin follow. -/
def Obligations.FarrierChannelRequests : Prop :=
  (∀ q (l : Lch) (u : UnitId) ctrl act prd cnt s, (let c : Instr := .chOpen q (BitVec.ofNat 8 l.val) 0 ctrl act prd cnt
      let k : ChanUnit := { s.units[u] with prd := prd, cnt := cnt }
      Accepted c s → channelWordsBad ctrl act = false → basinStatus s act = none →
      (s.lmap[l].open_ = true → Turned c s 9) ∧
      (s.lmap[l].open_ = false → freeUnit s = none → Turned c s 5) ∧
      (s.lmap[l].open_ = false → freeUnit s = some u → s.units[u].en = false → s.units[u].lock = false → bit s.units[u].flags 9 = false →
        (k.ctrlRefused ctrl = true → Turned c s 0x14) ∧
        (k.ctrlRefused ctrl = false → Answers c s 0 [] fun t =>
          t.lmap[l].open_ = true ∧ t.lmap[l].pch = BitVec.ofNat 7 u.val ∧ t.units[u].ust = .held ∧
          t.units[u].lch = BitVec.ofNat 6 l.val ∧ t.units[u].ctrl = ctrl ∧ t.units[u].prd = prd ∧ t.units[u].act = act ∧
          t.units[u].trimRise = tagTrim s l 0 ∧ t.units[u].trimFall = tagTrim s l 1 ∧
          (∀ v, v ≠ u → ¬ ReadsPinOf s v l → t.units[v] = s.units[v]) ∧ (∀ j, j ≠ l → t.lmap[j] = s.lmap[j]))))) ∧
  (∀ q (l : Lch) s, (let c : Instr := .chClose q (BitVec.ofNat 8 l.val)
      Accepted c s →
      (s.lmap[l].open_ = false → Turned c s 8) ∧
      (s.lmap[l].open_ = true → s.lmap[l].mig = none →
        ((harnessMember s l || channelHeld s l || trackerNames s l) = true → Turned c s 9) ∧
        (∀ u, (harnessMember s l || channelHeld s l || trackerNames s l) = false → unitOf s l = some u → Answers c s 0 [] fun t =>
          t.lmap[l] = LMap.reset ∧ t.units[u] = { ChanUnit.reset with ust := .free } ∧
          (∀ v, v ≠ u → ¬ ReadsPinOf s v l → t.units[v] = s.units[v]) ∧ (∀ j, j ≠ l → t.lmap[j] = s.lmap[j]) ∧
          Within (replyParts ++ [.units, .lmap, .spw, .xing]) s t ∧
          ((∀ v, ¬ ReadsPinOf s v l) → Within [.units, .lmap, .spw, .xing, .far, .host] s t))))) ∧
  (∀ q (l : Lch) (u : UnitId) s, s.lmap[l].open_ = true → s.lmap[l].mig = none → unitOf s l = some u →
    (∀ ctrl act, (let c : Instr := .chCfg q (BitVec.ofNat 8 l.val) 0 ctrl act
      Accepted c s → channelWordsBad ctrl act = false → basinStatus s act = none →
      (s.units[u].ctrlRefused ctrl = false → Answers c s 0 [] fun t =>
        t.units[u].ctrl = ctrl ∧ t.units[u].act = act ∧ ∀ v, v ≠ u → t.units[v] = s.units[v]) ∧
      (s.units[u].ctrlRefused ctrl = true → Answers c s 0x14 [] fun t =>
        t.units = vmod s.units u fun k => { k with flags := setBit k.flags 9 true }))) ∧
    (∀ (b rel : Bool) v, (let c : Instr := .chWrite q (BitVec.ofNat 8 l.val) (if b then 1 else 0) (if rel then 1 else 0) 0 v
      let w := if rel then v + s.nowEv else v
      Accepted c s → Answers c s 0 (le6 w) fun t =>
        (if b then t.units[u].cmpB else t.units[u].cmpA) = w ∧
        (if b then t.units[u].armB else t.units[u].armA) =
          ((if b then s.units[u].armB else s.units[u].armA) || (s.units[u].en && s.units[u].mode == 0#2)) ∧
        t.units[u].level = s.units[u].level ∧ ∀ j, j ≠ u → t.units[j] = s.units[j])) ∧
    (∀ reg v, (reg = 5 ∨ reg = 6) → s.units[u].en = true → Accepted (.chWrite q (BitVec.ofNat 8 l.val) reg 0 0 v) s →
      Answers (.chWrite q (BitVec.ofNat 8 l.val) reg 0 0 v) s 0x14 [] fun t =>
        t.units = vmod s.units u fun k => { k with flags := setBit k.flags 9 true }) ∧
    (∀ op, 1 ≤ op.toNat → op.toNat ≤ 3 → Accepted (.chCtl q (BitVec.ofNat 8 l.val) op) s →
      Answers (.chCtl q (BitVec.ofNat 8 l.val) op) s 0 [] fun t =>
        t.units = vmod s.units u fun k => { k with
          armA := k.armA && !bit op 0, disA := if k.armA && bit op 0 then some s.now else k.disA
          armB := k.armB && !bit op 1, disB := if k.armB && bit op 1 then some s.now else k.disB }) ∧
    (∀ en : Bool, s.units[u].ctrlRefused (setBit s.units[u].ctrl 0 en &&& ctrlMask) = false →
      Accepted (.chCtl q (BitVec.ofNat 8 l.val) (if en then 9 else 10)) s →
      Answers (.chCtl q (BitVec.ofNat 8 l.val) (if en then 9 else 10)) s 0 [] fun t =>
        t.units[u].en = en ∧ ∀ v, v ≠ u → t.units[v] = s.units[v]) ∧
    (Accepted (.chRead q (BitVec.ofNat 8 l.val) 0) s →
      Answers (.chRead q (BitVec.ofNat 8 l.val) 0) s 0 (channelReply s u) (· = markTaken q.mb s)) ∧
    (Accepted (.chRead q (BitVec.ofNat 8 l.val) 1) s →
      Answers (.chRead q (BitVec.ofNat 8 l.val) 1) s 0 (channelReply s u) fun t =>
        t.units[u].flags = 0 ∧ t.units[u].cap.rej = 0 ∧ t.units[u].cap.ovrcnt = 0 ∧ t.units[u].cap.fullR = false ∧
        t.units[u].cap.fullF = false ∧ t.units[u].cap.capR = s.units[u].cap.capR ∧ ∀ v, v ≠ u → t.units[v] = s.units[v])) ∧
  (∀ q (l : Lch) (u : UnitId) v s start, s.lmap[l].open_ = true → s.lmap[l].mig = some start → unitOf s l = some u →
    Accepted (.chWrite q (BitVec.ofNat 8 l.val) 0 0 0 v) s →
    Waits (.chWrite q (BitVec.ofNat 8 l.val) 0 0 0 v) s fun t =>
      t.lmap[l].heldW = s.lmap[l].heldW ++ [{ off := 0, v := v }] ∧ t.units = s.units ∧
      t.far.migReply = some (BitVec.ofNat 6 l.val, BitVec.ofNat 3 q.mb.val, 0x23, q.tag, le6 v)) ∧
  (∀ q (l : Lch) flags s, flags.toNat ≤ 1 → s.lmap[l].open_ = true → s.lmap[l].mig = none → unitOf s l = none →
    Accepted (.chRead q (BitVec.ofNat 8 l.val) flags) s →
    Answers (.chRead q (BitVec.ofNat 8 l.val) flags) s 0 (List.replicate 32 0) (· = markTaken q.mb s)) ∧
  (∀ q (k : Fin 40) outSel flags s, outSel.toNat ≤ 127 → flags.toNat ≤ 31 →
    Accepted (.tioSet q (BitVec.ofNat 8 k.val) outSel flags) s →
    Answers (.tioSet q (BitVec.ofNat 8 k.val) outSel flags) s 0 [] fun t =>
      fld t.tio[k] 0 7 = fld outSel 0 7 ∧ fld t.tio[k] 7 1 = fld flags 0 1 ∧ fld t.tio[k] 8 2 = fld flags 1 2 ∧
      fld t.tio[k] 10 1 = fld flags 3 1 ∧ fld t.tio[k] 11 1 = fld flags 4 1 ∧ fld t.tio[k] 12 20 = 0 ∧
      (∀ j, j ≠ k → t.tio[j] = s.tio[j]) ∧ (∀ v : UnitId, s.units[v].insel.toNat ≠ k.val → t.units[v] = s.units[v]) ∧
      Within (replyParts ++ [.tio, .units, .xing]) s t ∧
      ((∀ v : UnitId, s.units[v].insel.toNat ≠ k.val) → Within [.tio, .host] s t))

/-- FARRIER_TAKE_REQUEST: which request is taken, the checks in order, the row it becomes, and the reply window
(14_farrier_commands.md, R305, R306, R307, R309, R314, 13_host_link.md, R297, R299). Without a PENDING request that is
not yet taken, or while the Farrier takes none, nothing changes. The oldest such request is refused BAD_FIELD under
injection, BAD_CMD for an unknown code, BAD_STATE where the state does not allow it, BAD_LEN outside its length range,
BAD_FIELD for a header byte 2 or 4 to 7 that is not 0; otherwise the row of its code runs with the TAG and the payload
bytes of its window. A reply holds the code, TAG, status, length, MUSTER_SEQ and payload, zeros after it, changes no
byte outside its window, and makes the mailbox REPLIED. -/
def Obligations.FarrierTakesOldestRequest : Prop :=
  (∀ s : State, s.takes = false → exec .farrierTakeRequest s = .next s) ∧
  (∀ s : State, (∀ x ∈ s.host.order, (bit s.host.reqBusy x.toNat && !bit s.host.taken x.toNat) = false) →
    exec .farrierTakeRequest s = .next s) ∧
  (∀ (m : MailboxId) (pre rest : List (BitVec 3)) (s : State), s.takes = true → s.host.order = pre ++ BitVec.ofNat 3 m.val :: rest →
    (∀ x ∈ pre, (bit s.host.reqBusy x.toNat && !bit s.host.taken x.toNat) = false) →
    bit s.host.reqBusy m.val = true → bit s.host.taken m.val = false →
    (let base := 0x1000 + 0x100 * m.val
      let cmd : Byte := memGet s.host.mb base
      let q : Req := { mb := m, tag := memGet s.host.mb (base + 1) }
      let len := (memGet s.host.mb (base + 3)).toNat
      let header := memGet s.host.mb (base + 2) = 0 ∧ memLe s.host.mb (base + 4) 4 = 0
      let b (o : Nat) : Byte := memGet s.host.mb (base + 8 + o)
      let n (o k w : Nat) : BitVec w := BitVec.ofNat w (memLe s.host.mb (base + 8 + o) k)
      (bit s.hlt.mbInj m.val = true → exec .farrierTakeRequest s = .next (refuseMalformed cmd q 3 true s)) ∧
      (bit s.hlt.mbInj m.val = false → payloadRange cmd.toNat = none →
        exec .farrierTakeRequest s = .next (refuseMalformed cmd q 1 false s)) ∧
      (∀ lo hi, bit s.hlt.mbInj m.val = false → payloadRange cmd.toNat = some (lo, hi) →
        (stateRefuses s cmd = true → exec .farrierTakeRequest s = .next (writeReply m cmd q.tag 4 [] s)) ∧
        (stateRefuses s cmd = false → (len < lo ∨ hi < len) → exec .farrierTakeRequest s = .next (refuseMalformed cmd q 2 false s)) ∧
        (stateRefuses s cmd = false → lo ≤ len → len ≤ hi → ¬ header →
          exec .farrierTakeRequest s = .next (refuseMalformed cmd q 3 false s)) ∧
        (stateRefuses s cmd = false → lo ≤ len → len ≤ hi → header →
          (cmd = 0x00 → exec .farrierTakeRequest s = exec (.nop q) s) ∧
          (cmd = 0x04 → exec .farrierTakeRequest s = exec (.reset q (n 0 2 16)) s) ∧
          (cmd = 0x06 → exec .farrierTakeRequest s = exec (.progMsg q (b 0)) s) ∧
          (cmd = 0x23 → exec .farrierTakeRequest s = exec (.chWrite q (b 0) (b 1) (b 2) (b 3) (n 4 6 48)) s) ∧
          (cmd = 0x33 → exec .farrierTakeRequest s = exec (.hAct q (b 0) (n 1 3 24) (n 4 4 32)) s) ∧
          (cmd = 0x40 → exec .farrierTakeRequest s = exec (.progUpload q (n 0 4 32) (memBytes s.host.mb (base + 12) (len - 4))) s) ∧
          (cmd = 0x81 → exec .farrierTakeRequest s = exec (.recAck q (n 0 2 16) (n 2 2 16) (n 4 4 32)) s) ∧
          (cmd = 0xB2 → exec .farrierTakeRequest s = exec (.calProc q (b 0)) s))))) ∧
  (∀ (m : MailboxId) (cmd tag st : Byte) (pay : List Byte) (s : State), Memory.wf s.host.mb = true → pay.length ≤ 248 →
    (let u := writeReply m cmd tag st pay s
      let base := 0x2000 + 0x100 * m.val
      memBytes u.host.mb base 8 = [cmd, tag, st, BitVec.ofNat 8 pay.length] ++ leBytes 4 s.host.musterSeq.toNat ∧
      memBytes u.host.mb (base + 8) pay.length = pay ∧
      (∀ x, base + 8 + pay.length ≤ x → x < base + 256 → memGet u.host.mb x = 0) ∧
      (∀ x, (x < base ∨ base + 256 ≤ x) → memGet u.host.mb x = memGet s.host.mb x) ∧
      bit u.host.reqBusy m.val = false ∧ bit u.host.replyRdy m.val = true ∧ Within [.host] s u))

/-- H_OPEN, H_CLOSE, H_CFG, H_ACT, H_STATUS, H_CLEAR and H_RIDE: their refusals, replies and effects on the harness
(03_crossings.md, R57, 14_farrier_commands.md, R307, R308, R311, R326, 08_power_harnesses.md, R188, R190, R191, R194,
R213). H_OPEN is refused for its fields, for an open harness, closed channels, a driver or channel of another harness,
or an axis channel on no pin; a power class waits for the charge pump, otherwise the harness opens with the bindings
given. H_CLOSE switches its drivers off and clears it. H_CFG writes a section whole, over the link for a harness with
drivers, whose reply waits for the last of its frames, or none of it with CFG_ERR where a field is out of range. H_ACT
acts as the immediate action, HW_REFUSED where that sets ACT_ERR or CFG_ERR, the Farrier's table following otherwise.
H_STATUS replies words 0x60 to 0x6C and clears their counters. H_CLEAR clears the flags of its mask, FAULT becoming
SAFE with the last. H_RIDE sets RIDE_L2. While a MOT_START is pending those that change a harness are BUSY; on a
closed one NOT_OPEN. -/
def Obligations.FarrierHarnessRequests : Prop :=
  (∀ q (h : HarnessId) (kind hsd : Byte) (mch : W32) (grp : W64) (mls : W16) (s : State),
    (let c : Instr := .hOpen q (BitVec.ofNat 8 h.val) kind hsd 0 mch grp mls
      let r : HOpenReq := ⟨BitVec.ofNat 3 q.mb.val, q.tag, BitVec.ofNat 4 h.val, kind, hsd, mch, grp, mls⟩
      let k := Harness.reset.bound r
      Accepted c s →
      (hOpenFields r = false → Malformed c s 3) ∧
      (hOpenFields r = true → s.har[h].kind ≠ 0 → Turned c s 9) ∧
      (hOpenFields r = true → s.har[h].kind = 0 → (∃ l ∈ k.channels, s.lmap[l].open_ = false) → Turned c s 8) ∧
      (hOpenFields r = true → s.har[h].kind = 0 → (∀ l ∈ k.channels, s.lmap[l].open_ = true) →
        (harnessTaken s k = true → Turned c s 9) ∧
        (harnessTaken s k = false → kind = 3 → (∃ l ∈ k.channels, onTio s l = false) → Turned c s 4) ∧
        (harnessTaken s k = false → (kind ≠ 3 ∨ ∀ l ∈ k.channels, onTio s l = true) →
          (k.power = true → s.link.cpReady = false → Waits c s fun t =>
            t.link.cpOpen = some r ∧ t.link.cpRun = true ∧ t.har = s.har ∧ Within [.link, .host] s t) ∧
          ((k.power = false ∨ s.link.cpReady = true) → Answers c s 0 [] fun t =>
            t.har[h].kind = fld kind 0 3 ∧ t.har[h].hsd = fld hsd 0 4 ∧ t.har[h].mch = mch ∧ t.har[h].grp = grp ∧ t.har[h].mls = mls ∧
            t.har[h].live = true ∧ t.lmap = s.lmap ∧ (kind ≠ 1 → t.har[h] = s.har[h].bound r ∧ ∀ j, j ≠ h → t.har[j] = s.har[j])))))) ∧
  (∀ q (h : HarnessId) (s : State), (let n : Byte := BitVec.ofNat 8 h.val
      let k := s.har[h]
      let sent (q : Req) (o : Nat) (w0 w1 w2 : W32) (t : State) : Prop := t.har = s.har ∧ Within [.link, .host] s t ∧
        t.link = { s.link with
          queue := s.link.queue ++ [(BitVec.ofNat 32 (0x21000000 + 0x100 * h.val + o), w0),
            (BitVec.ofNat 32 (0x21000000 + 0x100 * h.val + o + 4), w1), (BitVec.ofNat 32 (0x21000000 + 0x100 * h.val + o + 8), w2)]
          cfgReply := some ⟨BitVec.ofNat 3 q.mb.val, q.tag, s.link.queue.length + 3, false⟩ }
      (∀ c ∈ ([.hClose q n, .hCfg q n 0 0 0 0 0, .hAct q n 0 0x20000000, .hStatus q n, .hClear q n 0 0, .hRide q n 0] : List Instr),
        Accepted c s → k.kind = 0 → Turned c s 8) ∧
      (∀ c ∈ ([.hClose q n, .hCfg q n 0 0 0 0 0, .hAct q n 0 0x20000000, .hClear q n 0 0, .hRide q n 0] : List Instr),
        Accepted c s → k.kind ≠ 0 → k.mot.startMb ≠ none → Turned c s 6) ∧
      (Accepted (.hClose q n) s → k.kind ≠ 0 → k.mot.startMb = none →
        (harnessHeld s h = true → Turned (.hClose q n) s 9) ∧
        (harnessHeld s h = false → Answers (.hClose q n) s 0 [] fun t =>
          t.har[h] = Harness.reset ∧ (∀ j, j ≠ h → t.har[j] = s.har[j]) ∧ (∀ d ∈ gateTargets s k, t.link.isOn d.1 = false) ∧
          ((∀ j, j ≠ h → s.har[j].power = false) → t.link.cpRun = false ∧ t.link.cpReady = false))) ∧
      (∀ w0 w1 w2 : W32, (let c : Instr := .hCfg q n 0 0 w0 w1 w2
        Accepted c s → k.kind ≠ 0 → k.mot.startMb = none → (k.hstate = .idle ∨ k.hstate = .safe) →
        (w0 &&& ~~~(0x0FFF00FF : W32)) = 0 → (w1 &&& ~~~(0x01FF03FF : W32)) = 0 → (w2 &&& ~~~(0x000F7777 : W32)) = 0 →
        (k.kind ≠ 1 → harOutOfRange 0x14 w0 = false → harOutOfRange 0x18 w1 = false → harOutOfRange 0x1C w2 = false →
          (k.power = false → Answers c s 0 [] fun t => t.har = vmod s.har h fun k => { k with w14 := w0, w18 := w1, w1C := w2 }) ∧
          (k.power = true → Waits c s (sent q 0x14 w0 w1 w2))) ∧
        ((harOutOfRange 0x14 w0 = true ∨ harOutOfRange 0x18 w1 = true ∨ harOutOfRange 0x1C w2 = true) →
          Answers c s 0x14 [] fun t => t.har = vmod s.har h fun k => { k with flt := setBit k.flt 26 true }))) ∧
      (∀ (m : Fin 4) (w0 w1 w2 : W32), (let c : Instr := .hCfg q n (BitVec.ofNat 8 (m.val + 1)) 0 w0 w1 w2
        let o := 0x20 + 0x10 * m.val
        Accepted c s → k.kind ≠ 0 → k.mot.startMb = none → (k.hstate = .idle ∨ k.hstate = .safe) →
        (k.power = false ∨ isgOf s h m.val = 0) →
        (w0 &&& ~~~(0xFFFFFF03 : W32)) = 0 → (w1 &&& ~~~(0x0FFFFFFF : W32)) = 0 → (w2 &&& ~~~(0x0000FFFF : W32)) = 0 →
        harOutOfRange o w0 = false → harOutOfRange (o + 4) w1 = false → harOutOfRange (o + 8) w2 = false →
        (k.power = false → Answers c s 0 [] fun t =>
          t.har = vmod s.har h fun k => { k with mem := vmod k.mem m fun x => { x with w0 := w0, w1 := w1, w2 := w2 } }) ∧
        (k.power = true → Waits c s (sent q o w0 w1 w2)))) ∧
      (∀ (word : W32) (act : Instr), (let a := markTaken q.mb s
        Accepted (.hAct q n 0 word) s → k.kind ≠ 0 → k.mot.startMb = none → (k.flt &&& (0x06000000 : W32)) = 0 →
        (word = 0x10000000 ∧ act = .harnessCommit h ∨ word = 0x20000000 ∧ act = .harnessSafe h ∨
         word = 0x30000000 ∧ act = .harnessResume h ∧ (k.power && s.tripped) = false ∨
         (∃ ph : BitVec 9, word = 4#4 ++ 0#19 ++ ph ∧ act = .harnessPhase h ph) ∨
         (∃ lv : BitVec 28, word = 5#4 ++ lv ∧ act = .harnessLevels h lv ∧ (∀ m, isgOf s h m = 0) ∧
           (fld lv 0 8).toNat ≤ 250 ∧ (fld lv 8 8).toNat ≤ 250 ∧ (fld lv 16 8).toNat ≤ 250)) →
        ∃ u, exec act a = .next u ∧
          ((u.har[h].flt &&& (0x06000000 : W32)) = 0 → Answers (.hAct q n 0 word) s 0 [] (· = adoptMembers h u)) ∧
          ((u.har[h].flt &&& (0x06000000 : W32)) ≠ 0 → Answers (.hAct q n 0 word) s 0x14 [] (· = u)))) ∧
      (k.kind ≠ 0 → k.mot.startMb = none → k.power = true → s.tripped = true → Accepted (.hAct q n 0 0x30000000) s →
        Turned (.hAct q n 0 0x30000000) s 4) ∧
      (k.kind ≠ 0 → Accepted (.hStatus q n) s →
        Answers (.hStatus q n) s 0
          (le4 k.flt ++ le4 (wz (k.defd ++ k.win ++ k.peak ++ (0#3 : BitVec 3) ++ b2v 1 k.regLs ++ (0#3 : BitVec 3) ++ k.phase)) ++
            le4 (k.cancelCnt ++ k.deferCnt : W32) ++ [k.openCnt, 0, 0, 0])
          fun t => t.har = vmod s.har h (fun k => { k with deferCnt := 0, cancelCnt := 0, openCnt := 0 }) ∧ Within [.har, .host] s t) ∧
      (∀ mask : W32, (mask &&& ~~~(0x073FFFFF : W32)) = 0 → k.kind ≠ 0 → k.mot.startMb = none → Accepted (.hClear q n 0 mask) s →
        Answers (.hClear q n 0 mask) s 0 [] fun t =>
          t.har[h].flt = k.flt &&& ~~~mask ∧
          t.har[h].hstate = (if k.hstate = .fault ∧ (fld (k.flt &&& ~~~mask) 0 14 : BitVec 14) = 0 then .safe else k.hstate) ∧
          t.har[h].win = k.win ∧ t.har[h].phase = k.phase ∧ (∀ j, j ≠ h → t.har[j] = s.har[j]) ∧ Within [.har, .far, .host] s t) ∧
      (∀ mask : W32, (mask &&& ~~~(0x073FFFFF : W32)) ≠ 0 → Accepted (.hClear q n 0 mask) s → Malformed (.hClear q n 0 mask) s 3) ∧
      (∀ v : Byte, v.toNat ≤ 1 → k.kind ≠ 0 → k.mot.startMb = none → Accepted (.hRide q n v) s →
        Answers (.hRide q n v) s 0 [] fun t =>
          t.har = vmod s.har h (fun k => { k with rideL2 := bit v 0 }) ∧ Within [.har, .host] s t)))

/-- PROG_UPLOAD, PROG_OPEN, PROG_CLOSE, PROG_DOORBELL, THREAD_INFO, HEADROOM, SD_WRITE and SD_READ
(14_farrier_commands.md, R311, R327, 07_microcode.md, R160, R177, R181, R182, 05_ostler.md, R108). PROG_UPLOAD stores
its bytes in the staging area and no others. PROG_OPEN of a checked flash image replies the program number, its
threads with their TIDs and its pinned pages, opens the program with its masks, pages and trap entry, and changes no
other program; an image that fails a check is IMAGE_ERROR, no free number or shared data is NO_RESOURCE, a closed
binding NOT_OPEN, a held one IN_USE. PROG_CLOSE frees the program and its threads. A doorbell queues event kind 4 with
its word at the thread, counts a loss at a full queue, and is BAD_STATE for a stopped thread. THREAD_INFO replies a
thread's figures and clears its counters. HEADROOM sets the reserve. SD_WRITE and SD_READ write and read the bytes of
a program's shared data. A number out of range is BAD_FIELD, a closed program NOT_OPEN. -/
def Obligations.FarrierProgramRequests : Prop :=
  (∀ q (off : W32) (data : List Byte) (s : State), Memory.wf s.far.staging = true → Accepted (.progUpload q off data) s →
    ((data = [] ∨ 244 < data.length) → Malformed (.progUpload q off data) s 2) ∧
    (data ≠ [] → data.length ≤ 244 → 81920 < off.toNat + data.length → Malformed (.progUpload q off data) s 3) ∧
    (data ≠ [] → data.length ≤ 244 → off.toNat + data.length ≤ 81920 → Answers (.progUpload q off data) s 0 [] fun t =>
      (∀ i, i < data.length → memGet t.far.staging (off.toNat + i) = data.getD i 0) ∧
      (∀ x, (x < off.toNat ∨ off.toNat + data.length ≤ x) → memGet t.far.staging x = memGet s.far.staging x) ∧
      Within [.far, .host] s t)) ∧
  (∀ q (off : W32) (ch : W64) (hm : W16) (bm : W64) (s : State), (let c : Instr := .progOpen q 0 0 off ch hm 0 bm
      let a := markTaken q.mb s
      let image := parseImage s.far.flash off.toNat (0x1000000 - off.toNat)
      (fld bm 62 2 : BitVec 2) = 0 → Accepted c s →
      ((off.toNat % 512 ≠ 0 ∨ 0x1000000 ≤ off.toNat ∨ image = none) → Turned c s 0x0C) ∧
      (∀ g, off.toNat % 512 = 0 → off.toNat < 0x1000000 → image = some g →
        ((∀ p : ProgId, s.prog[p].open_ = true) → Turned c s 5) ∧
        (∀ p, freeProg s = some p →
          (sdFits s g.sdSize = false → Turned c s 5) ∧
          (∀ st, sdFits s g.sdSize = true → bindStatus s ch hm bm = some st → (st = 8 ∨ st = 9) ∧ Turned c s st) ∧
          (∀ st, sdFits s g.sdSize = true → bindStatus s ch hm bm = none →
            openImage p g s.far.flash off.toNat false ch hm bm a = .inr st → (st = 5 ∨ st = 0x0C) ∧ Turned c s st) ∧
          (∀ u, sdFits s g.sdSize = true → bindStatus s ch hm bm = none →
            openImage p g s.far.flash off.toNat false ch hm bm a = .inl u →
            Answers c s 0 ([count8 p.val, count8 g.tab.length, count8 (g.pinc.filter (· == 1)).length, 0] ++
                (u.prog[p].tab.map fun e => e.tid.zeroExtend 8) ++ List.replicate (16 - g.tab.length) 0xFF) fun t =>
              t = u ∧ s.prog[p].open_ = false ∧ t.prog[p].open_ = true ∧ t.prog[p].chMask = ch ∧ t.prog[p].hMask = hm ∧ t.prog[p].bMask = bm ∧
              t.prog[p].trapEntry = g.trap ∧ t.prog[p].pages = BitVec.ofNat 16 g.pages ∧
              t.prog[p].tab.length = g.tab.length ∧ ∀ j, j ≠ p → t.prog[j] = s.prog[j]))))) ∧
  (∀ q (p : ProgId) (s : State), (let n : Byte := BitVec.ofNat 8 p.val
      let g := s.prog[p]
      (∀ c ∈ ([.progClose q n, .progDoorbell q n 0 0 0, .sdWrite q n 0 0 [0, 0, 0, 0], .sdRead q n 0 0 4] : List Instr),
        g.open_ = false → Accepted c s → Turned c s 8) ∧
      (∀ b : Byte, 15 < b.toNat → ∀ c ∈ ([.progClose q b, .progDoorbell q b 0 0 0, .sdRead q b 0 0 4] : List Instr),
        Accepted c s → Malformed c s 3) ∧
      (g.open_ = true → Accepted (.progClose q n) s →
        (g.shipped = true → s.har[g.harness].mot.startMb ≠ none → Turned (.progClose q n) s 6) ∧
        ((g.shipped = false ∨ s.har[g.harness].mot.startMb = none) → Answers (.progClose q n) s 0 [] fun t =>
          t.prog[p] = Prog.reset ∧ (∀ j, j ≠ p → t.prog[j] = s.prog[j]) ∧
          (∀ i : Tid, s.thr[i].st ≠ .free → s.thr[i].progId = p → t.thr[i].st = .free) ∧
          (∀ i : Tid, s.thr[i].progId ≠ p → t.thr[i] = s.thr[i]) ∧
          (g.shipped = true → t.har[g.harness].mot = Motion.reset))) ∧
      (∀ (idx : Byte) (word : W32) (e : ThrEnt), (let c : Instr := .progDoorbell q n idx 0 word
        let i : Tid := bvFin 64 rfl e.tid
        let k := s.thr[i]
        let ev : Ev := { kind := 4, src := 0, arg := 0, data := word, time := s.nowEv }
        g.open_ = true → Accepted c s → g.tab[idx.toNat]? = some e →
        ((k.st = .free ∨ k.st = .stopped) → Turned c s 4) ∧
        (k.st ≠ .free → k.st ≠ .stopped → k.progId = p →
          (k.evq.length < 8 → Answers c s 0 [] fun t =>
            (k.st ≠ .wait → t.thr[i] = { k with evq := k.evq ++ [ev] }) ∧
            (k.st = .wait → k.evq = [] → k.stepping = false → t.thr[i].st = .ready ∧ t.thr[i].evq = []) ∧
            ∀ j, j ≠ i → t.thr[j] = s.thr[j]) ∧
          (8 ≤ k.evq.length → Answers c s 0 [] fun t =>
            t.thr[i] = { k with evqLoss := satInc k.evqLoss, lossDone := true } ∧ ∀ j, j ≠ i → t.thr[j] = s.thr[j])))) ∧
      (∀ idx : Byte, g.open_ = true → Accepted (.progDoorbell q n idx 0 0) s → g.tab.length ≤ idx.toNat →
        Malformed (.progDoorbell q n idx 0 0) s 3) ∧
      (∀ (off : W16) (data : List Byte), (let c : Instr := .sdWrite q n 0 off data
        g.open_ = true → Memory.wf g.sd = true → Accepted c s → 4 ≤ data.length → data.length ≤ 244 → data.length % 4 = 0 →
        (off.toNat % 4 = 0 → off.toNat + data.length ≤ g.sdSize.toNat → Answers c s 0 [] fun t =>
          (∀ i, i < data.length → memGet t.prog[p].sd (off.toNat + i) = data.getD i 0) ∧
          (∀ x, (x < off.toNat ∨ off.toNat + data.length ≤ x) → memGet t.prog[p].sd x = memGet g.sd x) ∧
          (∀ j, j ≠ p → t.prog[j] = s.prog[j]) ∧ Within [.prog, .hlt, .host] s t) ∧
        ((off.toNat % 4 ≠ 0 ∨ g.sdSize.toNat < off.toNat + data.length) → Malformed c s 3))) ∧
      (∀ (off : W16) (len : Byte), (let c : Instr := .sdRead q n 0 off len
        let w0 := g.sdAt
        g.open_ = true → Accepted c s → off.toNat % 4 = 0 → len.toNat % 4 = 0 → 4 ≤ len.toNat → len.toNat ≤ 244 →
        off.toNat + len.toNat ≤ g.sdSize.toNat →
        (∀ w, w0 + off.toNat / 8 ≤ w → w ≤ w0 + (off.toNat + len.toNat - 1) / 8 → markAt s 1 (BitVec.ofNat 24 w).toNat = none) →
        Answers c s 0 (memBytes g.sd off.toNat len.toNat) (· = markTaken q.mb s))))) ∧
  (∀ q (i : Tid) (s : State), (let k := s.thr[i]
      Accepted (.threadInfo q (BitVec.ofNat 8 i.val)) s →
      Answers (.threadInfo q (BitVec.ofNat 8 i.val)) s 0
        ([k.st.code.zeroExtend 8, k.slot.zeroExtend 8, k.prog.zeroExtend 8, k.prio.zeroExtend 8, count8 k.evq.length, k.evqLoss, k.dlnCnt, 0] ++
          le2 k.lastCyc ++ le2 k.maxCyc)
        fun t => t.thr = vmod s.thr i (fun k => { k with evqLoss := 0, dlnCnt := 0, maxCyc := 0 }) ∧ Within [.thr, .host] s t)) ∧
  (∀ q (v : W16) (s : State), Accepted (.headroom q v) s →
    (v.toNat ≤ 500 → Answers (.headroom q v) s 0 [] fun t =>
      t.ost.headroom.toNat = v.toNat ∧ t.ost = { s.ost with headroom := t.ost.headroom } ∧ Within [.ost, .host] s t) ∧
    (500 < v.toNat → Malformed (.headroom q v) s 3))

/-- GT_OPEN, GT_TUNE, GT_CLOSE, GT_STATUS, MOT_OPEN, MOT_PARAM, MOT_START, MOT_STOP, AXIS_MOVE, AXIS_HOME and MOT_STATUS
(14_farrier_commands.md, R328, R329, 09_motion.md, R214, R215, R216, R223, R226, R227, R229, R230, 10_gait.md, R232,
R242). GT_OPEN writes the tracker's words, sets the wheel channel's capture and enables the tracker where EN is 1; a
refused enable is HW_REFUSED and leaves CFG_ERR alone; IN_USE while enabled, NOT_OPEN for a closed channel. GT_TUNE
changes its fields alone. GT_CLOSE disables the tracker, its linked channels safe. GT_STATUS replies its figures and
clears flags and counters. MOT_OPEN opens the shipped program of the harness's kind with its default parameters.
MOT_PARAM sets a parameter in range, BAD_STATE while running but for those that can change. MOT_START waits in the
catch window with the phases floating; BUSY while running. MOT_STOP floats or brakes the phases, or stops the axis,
and answers a pending start. AXIS_MOVE sets the target and starts toward it. AXIS_HOME sets the position at rest.
MOT_STATUS replies state, speed, position and duty. -/
def Obligations.FarrierGaitAndMotionRequests : Prop :=
  (∀ q (i : Fin 2) (w : Vector W32 11) (s : State), (let n : Byte := BitVec.ofNat 8 i.val
      let c : Instr := .gtOpen q n 0 w
      let a := markTaken q.mb s
      let k : Tracker := { s.gt[i] with cfg := w }
      (gtFields w = false → Accepted c s → Malformed c s 3) ∧
      (gtFields w = true → s.gt[i].en = true → Accepted c s → Turned c s 9) ∧
      (gtFields w = true → s.gt[i].en = false → (∃ l ∈ gtNames w, s.lmap[l].open_ = false) → Accepted c s → Turned c s 8) ∧
      (gtFields w = true → s.gt[i].en = false → (∀ l ∈ gtNames w, s.lmap[l].open_ = true) → s.lmap[k.wheelCh].mig = none → Accepted c s →
        (bit w[0] 0 = true → k.enableOk s = false →
          Answers c s 0x14 [] (· = { a with gt := vmod a.gt i fun k => ({ k with flags := k.flags ||| 0x10 } : Tracker) })) ∧
        (∀ u, unitOf s k.wheelCh = some u → (s.units[u].ctrl &&& ~~~ctrlMask) = 0 →
          s.units[u].ctrlRefused (wheelCtrl s.units[u].ctrl k.paired) = false → (bit w[0] 0 = true → k.enableOk s = true) →
          Answers c s 0 [] fun t =>
            t.gt[i].cfg = w ∧ (∀ j, j ≠ i → t.gt[j] = s.gt[j]) ∧ (bit w[0] 0 = false → t.gt[i] = k) ∧
            (bit w[0] 0 = true → (s.rsv.backup[26 + i.val]'(by omega)).getLsbD 31 = false → t.gt[i].gs = .seek ∧ t.gt[i].idx = 0xFFFF) ∧
            (fld t.units[u].ctrl 8 2 : BitVec 2) = (if k.paired then 2 else 1) ∧ (fld t.units[u].act 16 2 : BitVec 2) = 1 ∧
            (∀ v, v ≠ u → t.units[v] = s.units[v]))) ∧
      (∀ (fl mm : Byte) (nz tol : W16), (let c : Instr := .gtTune q n fl mm 0 nz tol
        Accepted c s → fl.toNat ≤ 7 → mm.toNat ≤ 3 → 100 ≤ nz.toNat → nz.toNat ≤ 750 → 100 ≤ tol.toNat → tol.toNat ≤ 500 →
        (s.gt[i].en = false → Turned c s 8) ∧
        (s.gt[i].en = true → noiseOk s.gt[i] nz.toNat tol.toNat = true → Answers c s 0 [] fun t =>
          t.gt[i] = { s.gt[i] with cfg := t.gt[i].cfg } ∧ t.gt[i].cfg[0] = setFld s.gt[i].cfg[0] 5 3 (fld fl 0 3) ∧
          t.gt[i].cfg[2] = setFld s.gt[i].cfg[2] 16 10 (fld nz 0 10) ∧
          t.gt[i].cfg[3] = setFld (setFld s.gt[i].cfg[3] 0 10 (fld tol 0 10)) 16 2 (fld mm 0 2) ∧
          (∀ j : Fin 11, j ≠ 0 → j ≠ 2 → j ≠ 3 → t.gt[i].cfg[j] = s.gt[i].cfg[j]) ∧
          (∀ j, j ≠ i → t.gt[j] = s.gt[j]) ∧ Within [.gt, .host] s t))) ∧
      (Accepted (.gtClose q n) s → (s.gt[i].en = false → Turned (.gtClose q n) s 8) ∧
        (s.gt[i].en = true → Answers (.gtClose q n) s 0 [] fun t =>
          t.gt[i].en = false ∧ t.gt[i].gs = .off ∧ (∀ j, j ≠ i → t.gt[j] = s.gt[j]) ∧
          (s.gt[i].gs ≠ .off → ∀ (l : Lch) (u : UnitId), bit s.gt[i].linkCh l.val = true → unitOf s l = some u →
            t.units[u].safeHeld = true ∧ t.units[u].en = false ∧ t.units[u].armA = false ∧ t.units[u].armB = false))) ∧
      (Accepted (.gtStatus q n) s → (let k := s.gt[i]
        Answers (.gtStatus q n) s 0
          ([k.gs.code.zeroExtend 8, k.flags.zeroExtend 8, k.rsn.zeroExtend 8, 0] ++ le2 k.idxReads ++ le6 k.last ++
            le4 (satNat 32 k.per.toNat) ++ le2 k.noiseCnt ++ le2 k.missedCnt ++ le2 k.lossCnt)
          fun t =>
            t.gt = vmod s.gt i (fun k => { k with flags := 0, noiseCnt := 0, missedCnt := 0, lossCnt := 0, lastHiL := fld k.last 32 16 }) ∧
            Within [.gt, .host] s t)))) ∧
  (∀ q (h : HarnessId) (s : State), (let n : Byte := BitVec.ofNat 8 h.val
      let a := markTaken q.mb s
      let k := s.har[h]
      let m := k.mot
      (∀ c ∈ ([.motOpen q n 0, .motParam q n 0 0 0, .motStart q n, .motStop q n 0, .axisMove q n 0 0, .axisHome q n 0 0,
        .motStatus q n] : List Instr), Accepted c s → k.kind = 0 → Turned c s 8) ∧
      (∀ bridge : Bool, (let c : Instr := .motOpen q n (if bridge then 0 else 1)
        Accepted c s → k.kind ≠ 0 →
        (k.kind ≠ (if bridge then 2 else 3) → Turned c s 4) ∧
        (k.kind = (if bridge then 2 else 3) →
          ((harnessHeld s h || k.channels.any (channelHeld s)) = true → Turned c s 9) ∧
          ((harnessHeld s h || k.channels.any (channelHeld s)) = false → (∀ l ∈ k.channels, s.lmap[l].mig = none) →
            (freeProg s = none → Turned c s 5) ∧
            (∀ g, freeProg s = some g → openShipped h bridge g a = none → Turned c s 5) ∧
            (∀ g u, freeProg s = some g → openShipped h bridge g a = some u → Answers c s 0 [count8 g.val] fun t =>
              t = u ∧ t.prog[g].open_ = true ∧ t.prog[g].shipped = true ∧ t.prog[g].har = BitVec.ofNat 4 h.val ∧
              t.har[h].mot =
                { Motion.reset with prog := if bridge then .bridge else .axis, par := if bridge then bridgeDefaults else axisDefaults } ∧
              ∀ j, j ≠ h → t.har[j] = s.har[j]))))) ∧
      (∀ (j : Fin 22) (lo hi : Nat) (v : W32), (let c : Instr := .motParam q n (BitVec.ofNat 8 j.val) 0 v
        let bridge := m.prog == .bridge
        let m' : Motion := { m with par := m.par.set j v }
        Accepted c s → k.kind ≠ 0 → m.prog ≠ .none → paramRange bridge j.val = some (lo, hi) →
        ((v.toNat < lo ∨ hi < v.toNat) → Malformed c s 3) ∧
        (lo ≤ v.toNat → v.toNat ≤ hi → m.idle = false → paramLive bridge j.val = false → Turned c s 4) ∧
        (lo ≤ v.toNat → v.toNat ≤ hi → (m.idle = true ∨ paramLive bridge j.val = true) → (bridge = true ∨ m'.stepOk = true) →
          Answers c s 0 [] fun t => t.har = vmod s.har h (fun k => { k with mot := m' }) ∧
            (bridge = false ∨ j ≠ 13 → Within [.har, .host] s t)))) ∧
      (Accepted (.motStart q n) s → k.kind ≠ 0 → m.prog = .bridge →
        (m.idle = false → Turned (.motStart q n) s 6) ∧
        (m.idle = true → (k.live = false ∨ m.catchOk = false) → Turned (.motStart q n) s 4) ∧
        (m.idle = true → k.live = true → m.catchOk = true → Waits (.motStart q n) s fun t =>
          t.har[h].mot.st = 1 ∧ t.har[h].mot.speed = 0 ∧ t.har[h].mot.startMb = some (BitVec.ofNat 3 q.mb.val, q.tag) ∧
          (∀ p, p < 3 → t.har[h].phaseOf p = 0) ∧ ∀ j, j ≠ h → t.har[j] = s.har[j])) ∧
      (∀ mode : Byte, mode.toNat ≤ 1 → Accepted (.motStop q n mode) s → k.kind ≠ 0 →
        (m.prog = .bridge → m.idle = true → Answers (.motStop q n mode) s 0 [] (· = a)) ∧
        (m.prog = .bridge → m.idle = false → Answers (.motStop q n mode) s 0 [] fun t =>
          t.har[h].mot.startMb = none ∧ (∀ r, m.startMb = some r → bit t.host.replyRdy r.1.toNat = true) ∧
          (if mode = 0 ∨ m.st = 1 then t.har[h].mot.st = 0 ∧ (k.live = true → ∀ p, p < 3 → t.har[h].phaseOf p = 0)
           else t.har[h].mot.st = 2 ∧ t.har[h].mot.brakeDir = true ∧ (k.live = true → ∀ p, p < 3 → t.har[h].phaseOf p = 5))) ∧
        (m.prog = .axis → m.st ≠ 0 → Answers (.motStop q n mode) s 0 [] fun t =>
          if m.armed then t.har = vmod s.har h fun k => { k with mot := { k.mot with stopping := if mode = 1 then 2 else 1 } }
          else t.har[h].mot.st = 0 ∧ t.har[h].mot.pos = m.pos ∧ t.har[h].mot.speed = 0)) ∧
      (∀ tg : W32, Accepted (.axisMove q n 0 tg) s → k.kind ≠ 0 → m.prog = .axis →
        (k.live = false → Turned (.axisMove q n 0 tg) s 4) ∧
        (k.live = true → Answers (.axisMove q n 0 tg) s 0 [] fun t => t.har[h].mot.target = tg ∧ t.har[h].mot.pos = m.pos ∧
          t.har[h].mot.stopping = 0 ∧ (∀ j, j ≠ h → t.har[j] = s.har[j]) ∧
          (m.st = 0 → m.pos ≠ tg → t.har[h].mot.st = 1 ∧ t.har[h].mot.armed = true ∧
            t.har[h].mot.dirRev = decide (tg.toInt < m.pos.toInt)) ∧
          (m.st = 0 → m.pos = tg → t.har[h].mot.st = 0 ∧ t.har[h].mot.armed = false))) ∧
      (∀ v : W32, Accepted (.axisHome q n 0 v) s → k.kind ≠ 0 → m.prog = .axis →
        ((m.st ≠ 0 ∨ m.armed = true) → Turned (.axisHome q n 0 v) s 4) ∧
        (m.st = 0 → m.armed = false → Answers (.axisHome q n 0 v) s 0 [] fun t =>
          t.har = vmod s.har h (fun k => { k with mot := { k.mot with pos := v, target := v } }) ∧ Within [.har, .host] s t)) ∧
      (Accepted (.motStatus q n) s → k.kind ≠ 0 → m.prog ≠ .none → m.duty.toNat % 100 = 0 →
        Answers (.motStatus q n) s 0 ([m.st, 0, 0, 0] ++ le4 m.speed ++ le4 m.pos ++ leBytes 2 (m.duty.toNat / 100)) (· = a))))

/-- PRB_SCHED, PRB_COEF, PRB_READ, PRB_STOP, REC_READ, REC_ACK, REC_EVENT, REC_PROVISION, REC_DECOMMISSION and
REC_STATUS (14_farrier_commands.md, R310, R330, R331, 11_probes.md, R258, R266, 12_sealed_record.md, R273, R276, R278,
R279, R281). A schedule in range with its converters ready is loaded with a NOTE in the record, BAD_STATE where one is
not ready. Coefficients and the offset of a probe are set; PRB_READ replies its result; PRB_STOP ends the schedule.
REC_READ replies up to COUNT entries from the oldest or from the one named, none for one not held. REC_ACK releases
the entries up to the one named, accepts one released before, and refuses one not written. REC_EVENT queues its entry
and replies the SEQ, NOT_PROVISIONED while writing is disabled. REC_PROVISION stores the key, which its mailbox then
no longer shows, starts the next epoch with a KEY entry and waits; KEY_PRESENT with a key, NV_ERROR where NV does not
verify. REC_DECOMMISSION writes a NOTE, stops writing and waits; LOCKED with another word. REC_STATUS replies the
state of the record. -/
def Obligations.FarrierProbeAndRecordRequests : Prop :=
  (∀ q (mi : W32) (c0 c1 : ConvBlk) (topen tshort : W16) (s : State), (let c : Instr := .prbSched q mi c0 c1 topen tshort
      let fits := 1 ≤ mi.toNat ∧ mi.toNat ≤ 3600 ∧ blkOk c0 = true ∧ blkOk c1 = true ∧ 1000 ≤ topen.toNat ∧ 100 ≤ tshort.toNat ∧
        tshort.toNat ≤ 50000 ∧ ¬ (c0.nslot ≠ 0 ∧ c1.nslot ≠ 0 ∧ c0.refSel = c1.refSel) ∧
        c0.nslot.toNat * 2 ^ c0.avg.toNat * 2 * (c0.chg.toNat + topen.toNat) ≤ mi.toNat * 500000 ∧
        c1.nslot.toNat * 2 ^ c1.avg.toNat * 2 * (c1.chg.toNat + topen.toNat) ≤ mi.toNat * 500000
      Accepted c s →
      (¬ fits → Malformed c s 3) ∧
      (fits → (blkUnready c0 0 s || blkUnready c1 1 s) = true → Turned c s 4) ∧
      (fits → (blkUnready c0 0 s || blkUnready c1 1 s) = false → (CanRecord s ∨ s.writes = false) → Answers c s 0 [] fun t =>
        t.ps.sched = some { measInt := mi, c0 := .ofBlk c0, c1 := .ofBlk c1, topen := topen.zeroExtend 32, tshort := tshort.zeroExtend 32 } ∧
        t.ps.base = s.tb.dt ∧ t.ps.intv.toNat = min 3600 (mi.toNat * 2 ^ s.rcd.rateStep.toNat) ∧
        (CanRecord s → Recorded (mkEntry 0x0B 4 s.tb.dt 0 0 0) s t) ∧ (s.writes = false → t.rcd = s.rcd) ∧
        Within [.conv, .ps, .rcd, .host] s t))) ∧
  (∀ q (i : Fin 16) (s : State), (let n : Byte := BitVec.ofNat 8 i.val
      let a := markTaken q.mb s
      let r := s.prb[i]
      (∀ (ca cb cc : W64) (off : W32), Accepted (.prbCoef q n 0 ca cb cc off) s → Answers (.prbCoef q n 0 ca cb cc off) s 0 [] fun t =>
        t.prb = vmod s.prb i (fun r => { r with ca := ca, cb := cb, cc := cc, off := off }) ∧ Within [.prb, .host] s t) ∧
      (Accepted (.prbRead q n) s → Answers (.prbRead q n) s 0
        (le4 r.mC ++ le8 r.dt ++ le4 r.ratio ++
          [flagByte [bit r.flags 1, bit r.flags 2, bit r.flags 3, r.range, bit r.flags 0], flagByte [r.valid]]) (· = a)) ∧
      (∀ b : Byte, 15 < b.toNat → Accepted (.prbRead q b) s → Malformed (.prbRead q b) s 3) ∧
      (Accepted (.prbStop q) s → Answers (.prbStop q) s 0 []
        (· = { a with ps := { s.ps with sched := none, pendSched := none, intv := 0 } })))) ∧
  (∀ q (count : Byte) (epoch : W16) (seq : W32) (s : State), (let a := markTaken q.mb s
      let is (e : Entry) := e.epoch = epoch ∧ e.seq = seq
      let answer (fl : Byte) (l : List Entry) := Answers (.recRead q fl count epoch seq) s 0
        ([count8 l.length, flagByte (l.map (·.damaged)), 0, 0] ++ leBytes 2 s.rcd.q.length ++ [0, 0] ++ l.flatMap Entry.bytes) (· = a)
      1 ≤ count.toNat → count.toNat ≤ 7 →
      (s.rcd.enabled = true → s.nv.key ≠ none → Accepted (.recRead q 0 count epoch seq) s → answer 0 (s.rcd.q.take count.toNat)) ∧
      (∀ pre e post, s.rcd.enabled = true → s.nv.key ≠ none → s.rcd.q = pre ++ e :: post → is e → (∀ x ∈ pre, ¬ is x) →
        Accepted (.recRead q 1 count epoch seq) s → answer 1 ((e :: post).take count.toNat)) ∧
      ((∀ x ∈ s.rcd.q, ¬ is x) → Accepted (.recRead q 1 count epoch seq) s → answer 1 []) ∧
      ((s.rcd.enabled = false ∨ s.nv.key = none) → Accepted (.recRead q 0 count epoch seq) s → answer 0 []))) ∧
  (∀ q (epoch : W16) (seq : W32) (s : State), (let a := markTaken q.mb s
      let is (e : Entry) := e.epoch = epoch ∧ e.seq = seq
      let c : Instr := .recAck q epoch 0 seq
      Accepted c s →
      (∀ pre e post, s.rcd.rateStep = 0 → s.rcd.q = pre ++ e :: post → is e → (∀ x ∈ pre, ¬ is x) →
        Answers c s 0 (leBytes 2 post.length) fun t =>
          t.rcd = { s.rcd with q := post, headEpoch := (post.head?.map (·.epoch)).getD s.rcd.epoch,
                               headSeq := (post.head?.map (·.seq)).getD s.rcd.seq } ∧ Within [.rcd, .host] s t) ∧
      (∀ e post, s.rcd.q = e :: post → (∀ x ∈ s.rcd.q, ¬ is x) →
        ((epoch < e.epoch ∨ (epoch = e.epoch ∧ seq < e.seq)) → Answers c s 0 (leBytes 2 s.rcd.q.length) (· = a)) ∧
        (¬ (epoch < e.epoch ∨ (epoch = e.epoch ∧ seq < e.seq)) → Malformed c s 3)))) ∧
  (∀ q (kind source : Byte) (flags : W16) (value : W32) (s : State), (let c : Instr := .recEvent q kind source flags value
      let fits := (kind = 8 ∨ (kind = 7 ∧ source.toNat ≤ 15 ∧ value.toNat ≤ 1 ∧ flags = 0))
      Accepted c s →
      (¬ fits → Malformed c s 3) ∧
      (fits → s.writes = false → Turned c s 0x0E) ∧
      (fits → CanRecord s → Answers c s 0 (le4 s.rcd.seq) fun t =>
        Recorded (mkEntry kind source s.tb.dt value 0 flags) s t ∧ Within [.rcd, .host] s t))) ∧
  (∀ q (key : List Byte) (s : State), (let c : Instr := .recProvision q key
      Accepted c s → key.length = 32 →
      (s.rcd.decom ≠ none → Turned c s 6) ∧
      (s.rcd.decom = none → s.nv.key ≠ none → Turned c s 0x0F) ∧
      (s.rcd.decom = none → s.nv.key = none → s.nv.keyBad = none → s.nv.epoch = 0xFFFF → Turned c s 0x0D) ∧
      (s.rcd.decom = none → s.nv.key = none → s.nv.keyBad = none → s.nv.epoch ≠ 0xFFFF → s.nv.epochBad = none →
        (s.nvFails 3 = true ∨ s.nvFails 2 = true) → Turned c s 0x0B) ∧
      (s.rcd.decom = none → s.nv.key = none → s.nv.keyBad = none → s.nv.epoch ≠ 0xFFFF → s.nv.epochBad = none → s.rcd.epochPend = none →
        s.nvFails 3 = false → s.nvFails 2 = false → Waits c s fun t =>
        (∀ i, i < 32 → memGet t.host.mb (0x1008 + 0x100 * q.mb.val + i) = 0) ∧
        t.nv.key = some key ∧ t.nv.epoch = s.nv.epoch + 1 ∧ t.writes = true ∧
        t.rcd.epochPend = some (4, [mkEntry 0x0C 0 0 (keyCheck key s.nv.serial) 0 0]) ∧
        t.rcd.epochMb = some (BitVec.ofNat 3 q.mb.val, q.tag, 0x83) ∧ t.rcd.q = s.rcd.q ∧ Within [.nv, .rcd, .host] s t))) ∧
  (∀ q (word : W16) (s : State), (let c : Instr := .recDecommission q word
      Accepted c s →
      (word ≠ 0xD1C0 → Turned c s 0x0A) ∧
      (word = 0xD1C0 → s.rcd.decom ≠ none → Turned c s 6) ∧
      (word = 0xD1C0 → s.rcd.decom = none → s.nv.key = none → Turned c s 0x0E) ∧
      (word = 0xD1C0 → s.rcd.decom = none → s.nv.key ≠ none → (CanRecord s ∨ s.writes = false) → Waits c s fun t =>
        t.writes = false ∧ t.rcd.decom = some (BitVec.ofNat 3 q.mb.val, q.tag) ∧ t.nv = s.nv ∧
        (CanRecord s → Recorded (mkEntry 0x0B 5 s.tb.dt 0 0 0) s t) ∧ (s.writes = false → t.rcd.q = s.rcd.q)))) ∧
  (∀ q (s : State), (let r := s.rcd
      Accepted (.recStatus q) s → Answers (.recStatus q) s 0
        ([flagByte [s.nv.key.isSome, s.writes, r.lossPend != 0], r.rateStep] ++ leBytes 2 r.q.length ++ le2 r.headEpoch ++ [0, 0] ++
          le4 r.headSeq ++ le2 r.lossCnt ++ [0, 0] ++ le4 s.ps.intv ++ le4 s.ps.parkInt) (· = markTaken q.mb s)))

/-- B_OPEN, B_CLOSE, B_SET, HEALTH_SUM, HEALTH_DET, INJ_OPEN1, INJ_OPEN2, INJ_FIRE and INJ_CLOSE
(14_farrier_commands.md, R332, R333, 05_ostler.md, R121, R127, 17_health.md, R377, R392, R400). B_OPEN takes FLOOR
pages from the pool and opens the basin with its settings; IN_USE while open, NO_RESOURCE without pages. B_CLOSE
clears a basin that nothing holds, IN_USE otherwise. B_SET sets threshold, age and ceiling and evaluates the threshold
and the age source anew. HEALTH_SUM replies causes, overflow flags, link state and counts; HEALTH_DET a detector's
figures. INJ_OPEN1 with its word replies a nonce, any value being possible (log entry 7); INJ_OPEN2 with its transform
within 100 ms opens injection with source 220, anything else is LOCKED and voids the nonce. INJ_FIRE is LOCKED while
injection is closed; open, it injects the condition and latches source 220. INJ_CLOSE closes. -/
def Obligations.FarrierBasinHealthAndInjection : Prop :=
  (∀ q (i : BasinId) (s : State), i.val ≤ 61 → (let n : Byte := BitVec.ofNat 8 i.val
      let k := s.bas[i]
      (∀ (floor ceil policy age : Byte) (thresh : W16), (let c : Instr := .bOpen q n floor ceil policy thresh age 0
        let fits := 1 ≤ floor.toNat ∧ floor.toNat ≤ ceil.toNat ∧ ceil.toNat ≤ 64 ∧ policy.toNat ≤ 2 ∧ thresh.toNat ≤ 4096
        Accepted c s →
        (¬ fits → Malformed c s 3) ∧
        (fits → k.open_ = true → Turned c s 9) ∧
        (fits → k.open_ = false → (256 < floorsHeld s + floor.toNat ∨ s.poolFree < floor.toNat + 4) → Turned c s 5) ∧
        (fits → k.open_ = false → floorsHeld s + floor.toNat ≤ 256 → floor.toNat + 4 ≤ s.poolFree → Answers c s 0 [] fun t =>
          t.bas[i] = { Basin.reset with floor := floor.truncate 7, ceil := ceil.truncate 7, policy := policy.truncate 2,
                                        thresh := thresh.truncate 13, age := age, open_ := true, ring := t.bas[i].ring } ∧
          t.bas[i].ring.length = floor.toNat ∧ t.poolFree + floor.toNat = s.poolFree ∧
          (∀ p ∈ t.bas[i].ring, bit s.ost.pageFree p.toNat = true ∧ bit t.ost.pageFree p.toNat = false) ∧
          (∀ j, j ≠ i → t.bas[j] = s.bas[j]) ∧ Within [.bas, .ost, .far, .host] s t))) ∧
      (Accepted (.bClose q n) s →
        (k.open_ = false → Turned (.bClose q n) s 8) ∧
        (k.open_ = true → (basinHeld s i || basinNamed s i) = true → Turned (.bClose q n) s 9) ∧
        (k.open_ = true → (basinHeld s i || basinNamed s i) = false → Answers (.bClose q n) s 0 [] fun t =>
          t.bas[i] = Basin.reset ∧
          ((∀ x : Tid, s.thr[x].stallOn ≠ .post) → (∀ p ∈ k.ring, bit t.ost.pageFree p.toNat = true) ∧
            (∀ j, j ≠ i → t.bas[j] = s.bas[j]) ∧ t.thr = s.thr))) ∧
      (∀ (thresh : W16) (age ceil : Byte), (let c : Instr := .bSet q n 0 thresh age ceil
        let k1 := { k with thresh := thresh.truncate 13, age := age, ceil := ceil.truncate 7 }
        let k2 := { k1 with aged := k1.aged && k1.old s.tb.dt }
        Accepted c s → thresh.toNat ≤ 4096 → ceil.toNat ≤ 64 →
        (k.open_ = false → Turned c s 8) ∧
        (k.open_ = true → ceil.toNat < k.floor.toNat → Malformed c s 3) ∧
        (k.open_ = true → k.floor.toNat ≤ ceil.toNat → (∀ x : Tid, s.thr[x].stallOn ≠ .post) → Answers c s 0 [] fun t =>
          t.bas[i] = { k2 with thrOn := k2.thrLevel, ring := t.bas[i].ring } ∧ (∀ j, j ≠ i → t.bas[j] = s.bas[j])))))) ∧
  (∀ q (s : State), Accepted (.healthSum q) s → ∃ ovr : BitVec 72,
      (∀ x : Fin 70, bit ovr x.val = s.xing[x].ovrFlag) ∧ bit ovr 70 = false ∧ bit ovr 71 = false ∧
      Answers (.healthSum q) s 0 (le4 s.hlt.cause ++ leBytes 9 ovr.toNat ++
        [flagByte [s.link.fault], s.link.retry, 0, count8 s.freeUnits, count8 s.retiredUnits, count8 s.retiredEngines, 0])
        (· = markTaken q.mb s)) ∧
  (∀ q (cls idx : Byte) (s : State), Accepted (.healthDet q cls idx) s →
      (detIndices cls.toNat ≤ idx.toNat → Malformed (.healthDet q cls idx) s 3) ∧
      (∀ d, idx.toNat < detIndices cls.toNat → cls ≠ 2 → cls ≠ 3 → cls ≠ 5 → cls ≠ 6 → cls ≠ 8 → cls ≠ 0x0F →
        s.hlt.det.find? (fun d => d.cls == cls && d.idx == idx) = some d →
        Answers (.healthDet q cls idx) s 0 (le4 d.events ++ le4 d.st ++ le8 d.lastDt ++ le4 d.last ++ [0, 0, 0, 0]) (· = markTaken q.mb s)) ∧
      (idx.toNat < detIndices cls.toNat → cls ≠ 2 → cls ≠ 3 → cls ≠ 5 → cls ≠ 6 → cls ≠ 8 → cls ≠ 0x0F →
        s.hlt.det.find? (fun d => d.cls == cls && d.idx == idx) = none →
        Answers (.healthDet q cls idx) s 0 (List.replicate 24 0) (· = markTaken q.mb s))) ∧
  (∀ q (s : State), (let a := markTaken q.mb s
      (∀ w, w ≠ 0x1A550C3D → Accepted (.injOpen1 q w) s → Turned (.injOpen1 q w) s 0x0A) ∧
      (Accepted (.injOpen1 q 0x1A550C3D) s → ∃ n, Answers (.injOpen1 q 0x1A550C3D) s 0 (le2 n) fun t =>
        t.far.nonce = some (n, s.tb.dt) ∧ t.far.injOpen = s.far.injOpen ∧ Within [.far, .host] s t) ∧
      (∀ n t0, s.far.nonce = some (n, t0) → (s.tb.dt - t0).toNat ≤ 160000000 → Accepted (.injOpen2 q (n ^^^ 0xC35A)) s →
        Answers (.injOpen2 q (n ^^^ 0xC35A)) s 0 [] fun t =>
          t.far.injOpen = true ∧ t.far.nonce = none ∧ Latched 220 t ∧ Within [.far, .irq, .host] s t) ∧
      (∀ w, (∀ n t0, s.far.nonce = some (n, t0) → w = n ^^^ 0xC35A → 160000000 < (s.tb.dt - t0).toNat) → Accepted (.injOpen2 q w) s →
        Answers (.injOpen2 q w) s 0x0A [] (· = { a with far := { a.far with nonce := none } })) ∧
      (∀ cls idx par, s.far.injOpen = false → Accepted (.injFire q cls idx 0 par) s → Turned (.injFire q cls idx 0 par) s 0x0A) ∧
      (∀ cls idx par, s.far.injOpen = true → Accepted (.injFire q cls idx 0 par) s → (cls ≠ 2 ∨ unitMigrates s idx.toNat = false) →
        (inject cls.toNat idx.toNat par a = none → Malformed (.injFire q cls idx 0 par) s 3) ∧
        (∀ u, inject cls.toNat idx.toNat par a = some u → u.pwr.phase ≠ .held →
          Answers (.injFire q cls idx 0 par) s 0 [] (· = pulse 220 u)) ∧
        (∀ u, inject cls.toNat idx.toNat par a = some u → u.pwr.phase = .held →
          exec (.injFire q cls idx 0 par) s = .next (pulse 220 u)) ∧
        (cls = 6 → idx = 0 → par = 0 → Answers (.injFire q cls idx 0 par) s 0 [] fun t => t.host.badNext = true ∧ Latched 220 t) ∧
        (∀ m : MailboxId, cls = 7 → idx = BitVec.ofNat 8 m.val → par = 0 → Answers (.injFire q cls idx 0 par) s 0 [] fun t =>
          t.hlt.mbInj = setBit s.hlt.mbInj m.val true ∧ Latched 220 t) ∧
        (cls = 9 → idx = 0 → par = 0 → Answers (.injFire q cls idx 0 par) s 0 [] fun t => t.hlt.wdtInj = true ∧ Latched 220 t)) ∧
      (∀ idx par, s.far.injOpen = true → unitMigrates s idx.toNat = true → Accepted (.injFire q 2 idx 0 par) s →
        Turned (.injFire q 2 idx 0 par) s 4) ∧
      (Accepted (.injClose q) s → Answers (.injClose q) s 0 [] (· = { a with far := { a.far with injOpen := false, nonce := none } }))))

/-- CAL_READ, CAL_WRITE, CAL_PROC and its end, TAG_READ, TAG_WRITE, PATCH_DATA, PATCH_RUN and BOOT_CONTINUE
(14_farrier_commands.md, R311, R314, R319, R320, R334, 17_health.md, R394, R396, R397, 04_channels.md, R100, R103).
CAL_READ replies bytes of the calibration area. CAL_WRITE with its word and settings in range stores its bytes and no
others, with a NOTE; LOCKED with another word, BUSY during a procedure. CAL_PROC waits for its measurement, BAD_STATE
where it cannot run; at its end results in range are stored and replied, others are BAD_STATE and store nothing.
TAG_READ replies a tag, zeros for the trims of one that cannot be read. TAG_WRITE stores trims or user bytes, the
trims of an open channel going into its unit; a write that does not verify is NV_ERROR. In the boot wait PATCH_DATA
stores its bytes; PATCH_RUN of a valid patch replies its level, places it and ends the wait, another is IMAGE_ERROR;
BOOT_CONTINUE replies and ends the wait. -/
def Obligations.FarrierCalibrationTagAndBootRequests : Prop :=
  (∀ q (off : W16) (len : Byte) (s : State), Accepted (.calRead q off len) s →
    (1 ≤ len.toNat → len.toNat ≤ 240 → off.toNat + len.toNat ≤ 0x1000 → s.nv.calBad = none →
      Answers (.calRead q off len) s 0 (memBytes s.nv.cal off.toNat len.toNat) (· = markTaken q.mb s)) ∧
    ((len = 0 ∨ 240 < len.toNat ∨ 0x1000 < off.toNat + len.toNat) → Malformed (.calRead q off len) s 3)) ∧
  (∀ q (off : W16) (word : W16) (data : List Byte) (s : State), (let c : Instr := .calWrite q off (BitVec.ofNat 8 data.length) 0 word 0 data
      Memory.wf s.nv.cal = true → 1 ≤ data.length → data.length ≤ 240 → off.toNat + data.length ≤ 0x1000 → Accepted c s →
      (word ≠ 0xCA1B → Turned c s 0x0A) ∧
      (word = 0xCA1B → s.far.calProc ≠ none → Turned c s 6) ∧
      (word = 0xCA1B → s.far.calProc = none → settingsOk (memPut s.nv.cal off.toNat data) off.toNat data.length = false → Malformed c s 3) ∧
      (word = 0xCA1B → s.far.calProc = none → settingsOk (memPut s.nv.cal off.toNat data) off.toNat data.length = true →
        s.nvFails 0 = true → Turned c s 0x0B) ∧
      (word = 0xCA1B → s.far.calProc = none → settingsOk (memPut s.nv.cal off.toNat data) off.toNat data.length = true →
        s.nvFails 0 = false → (CanRecord s ∨ s.writes = false) → Answers c s 0 [] fun t =>
          (∀ i, i < data.length → memGet t.nv.cal (off.toNat + i) = data.getD i 0) ∧
          (∀ x, (x < off.toNat ∨ off.toNat + data.length ≤ x) → memGet t.nv.cal x = memGet s.nv.cal x) ∧ t.cal = s.cal ∧
          (CanRecord s → Recorded (mkEntry 0x0B 3 s.tb.dt 0 0 0) s t) ∧ (s.writes = false → t.rcd = s.rcd)))) ∧
  (∀ q (proc : Byte) (s : State), Accepted (.calProc q proc) s →
    (proc ≠ 1 → proc ≠ 2 → Malformed (.calProc q proc) s 3) ∧
    ((proc = 1 ∨ proc = 2) → s.far.calProc ≠ none → Turned (.calProc q proc) s 6) ∧
    ((proc = 1 ∨ proc = 2) → s.far.calProc = none → calProcReady s proc = false → Turned (.calProc q proc) s 4) ∧
    ((proc = 1 ∨ proc = 2) → s.far.calProc = none → calProcReady s proc = true → Waits (.calProc q proc) s fun t =>
      t.far.calProc = some (proc, BitVec.ofNat 3 q.mb.val, q.tag) ∧ Within [.far, .host] s t)) ∧
  (∀ (m0 m1 m2 m3 : W32) (s : State),
    ((s.far.calProc = none ∨ s.farrierUp = false) → exec (.calProcDone m0 m1 m2 m3) s = .next s) ∧
    (∀ (proc : Byte) (m : MailboxId) (tag : Byte), (let (r0, r1, r2) := procResults s proc m0 m1 m2 m3
      let b := if proc = 1 then leBytes 2 r0.toNat ++ leBytes 2 r1.toNat else le4 m0 ++ le4 m1 ++ le4 m2
      let at_ := if proc = 1 then 0x10 else 4
      s.far.calProc = some (proc, BitVec.ofNat 3 m.val, tag) → s.farrierUp = true →
      (resultsOk proc r0 r1 r2 = false → exec (.calProcDone m0 m1 m2 m3) s =
        .next (writeReply m 0xB2 tag 4 [] { s with far := { s.far with calProc := none } })) ∧
      (resultsOk proc r0 r1 r2 = true → s.nvFails 0 = true → exec (.calProcDone m0 m1 m2 m3) s =
        .next (writeReply m 0xB2 tag 0x0B [] { s with far := { s.far with calProc := none } })) ∧
      (resultsOk proc r0 r1 r2 = true → s.nvFails 0 = false → Memory.wf s.nv.cal = true → (CanRecord s ∨ s.writes = false) → ∃ u,
        exec (.calProcDone m0 m1 m2 m3) s = .next (writeReply m 0xB2 tag 0 b u) ∧ u.far.calProc = none ∧
        memBytes u.nv.cal at_ b.length = b ∧ (∀ x, (x < at_ ∨ at_ + b.length ≤ x) → memGet u.nv.cal x = memGet s.nv.cal x) ∧
        (CanRecord s → Recorded (mkEntry 0x0B 3 s.tb.dt 0 0 0) s u))))) ∧
  (∀ (c : Fin 2) (t0 t1 : W32) (slope : Nat) (d : Int) (s : State), (let ron := memLe s.nv.cal (0x14 + 4 * c.val) 4
      let a := memLe s.nv.cal 0x1C 4 + ron
      let b := memLe s.nv.cal 0x20 4 + ron
      a ≠ b → (t0.toNat : Int) = a * slope + d → (t1.toNat : Int) = b * slope + d → offsetOf s c.val t0 t1 = BitVec.ofInt 32 d)) ∧
  (∀ q (l : Lch) (s : State), (let n : Byte := BitVec.ofNat 8 l.val
      let at_ := 64 * l.val
      let a := markTaken q.mb s
      (Accepted (.tagRead q n) s →
        (bit s.nv.tagBad l.val = false → Answers (.tagRead q n) s 0 (memBytes s.nv.tags at_ 64) (· = a)) ∧
        (bit s.nv.tagBad l.val = true → Answers (.tagRead q n) s 0 (List.replicate 8 0 ++ memBytes s.nv.tags (at_ + 8) 56) fun t =>
          t.nv = s.nv ∧ bit t.hlt.cause 3 = true)) ∧
      (∀ data, Accepted (.tagWrite q n 1 0 data) s → data.length = 48 → s.nvFails 1 = true → Turned (.tagWrite q n 1 0 data) s 0x0B) ∧
      (∀ data, Accepted (.tagWrite q n 1 0 data) s → data.length = 48 → s.nvFails 1 = false → Memory.wf s.nv.tags = true →
        Answers (.tagWrite q n 1 0 data) s 0 [] fun t =>
          memBytes t.nv.tags (at_ + 16) 48 = data ∧ (∀ x, (x < at_ + 16 ∨ at_ + 64 ≤ x) → memGet t.nv.tags x = memGet s.nv.tags x) ∧
          Within [.nv, .host] s t) ∧
      (∀ data, Accepted (.tagWrite q n 0 0 data) s → data.length = 8 → trimsOk data = false → Malformed (.tagWrite q n 0 0 data) s 3) ∧
      (∀ data, Accepted (.tagWrite q n 0 0 data) s → data.length = 8 → trimsOk data = true → s.nvFails 1 = false → Memory.wf s.nv.tags = true →
        s.lmap[l].mig = none → Answers (.tagWrite q n 0 0 data) s 0 [] fun t =>
          memBytes t.nv.tags at_ 8 = data ∧ (∀ x, (x < at_ ∨ at_ + 8 ≤ x) → memGet t.nv.tags x = memGet s.nv.tags x) ∧
          bit t.nv.tagBad l.val = false ∧ (s.lmap[l].open_ = false → t.units = s.units) ∧
          (∀ u, s.lmap[l].open_ = true → unitOf s l = some u →
            t.units[u].trimRise = BitVec.ofNat 10 (ofLe (data.take 2)) ∧ t.units[u].trimFall = BitVec.ofNat 10 (ofLe ((data.drop 2).take 2)) ∧
            t.units[u].ctrimRise = BitVec.ofNat 10 (ofLe ((data.drop 4).take 2)) ∧
            t.units[u].ctrimFall = BitVec.ofNat 10 (ofLe ((data.drop 6).take 2)) ∧ t.units[u].ctrl = s.units[u].ctrl ∧
            ∀ v, v ≠ u → t.units[v] = s.units[v]) ∧ Within [.nv, .units, .host] s t))) ∧
  (∀ q (off : W32) (data : List Byte) (s : State), Memory.wf s.far.patchBuf = true → Accepted (.patchData q off data) s → data ≠ [] →
    data.length ≤ 244 →
    (65568 < off.toNat + data.length → Malformed (.patchData q off data) s 3) ∧
    (off.toNat + data.length ≤ 65568 → Answers (.patchData q off data) s 0 [] fun t =>
      (∀ i, i < data.length → memGet t.far.patchBuf (off.toNat + i) = data.getD i 0) ∧
      (∀ x, (x < off.toNat ∨ off.toNat + data.length ≤ x) → memGet t.far.patchBuf x = memGet s.far.patchBuf x) ∧
      Within [.far, .host] s t)) ∧
  (∀ q (s : State), (let a := markTaken q.mb s
      (patchCheck s.far.patchBuf = none → Accepted (.patchRun q) s → Turned (.patchRun q) s 0x0C) ∧
      (∀ p, patchCheck s.far.patchBuf = some p → Accepted (.patchRun q) s →
        exec (.patchRun q) s = .next (finishBoot (writeReply q.mb 0xF1 q.tag 0 (le2 p.1)
          { a with far := { a.far with patchLevel := p.1, ram := memPut s.far.ram p.2.1 p.2.2 } }))) ∧
      (Accepted (.bootContinue q) s → (let r := writeReply q.mb 0xF2 q.tag 0 [] a
        exec (.bootContinue q) s = .next (finishBoot r) ∧
        (s.dbg.haltOnRst = false → (finishBoot r).pwr.phase = .run) ∧
        (s.dbg.haltOnRst = true → (finishBoot r).pwr.phase = .bootHalt ∧ (finishBoot r).far.halted = true)))))


/-! ### The instructions of the groom engines -/

/-- ADD, SUB, AND, OR, XOR, SHL, SHR, SAR, MIN, MAX, CMP, TADD, TSUB, MUL, DIVU, REMU, ADDI, ANDI, ORI, XORI, SHLI, SHRI,
SARI, CMPI and MOVI: result, flags and what stays (07_microcode.md, R153, R158, R174, R184, R185). An issued instruction
writes its result to rd, which keeps 0 when it is g0, and sets Z and N from the result; C and V follow ADD, SUB, CMP,
ADDI and CMPI alone, and F stays. The thread goes on at the next code address, past the end of its image with a BUS
trap of sub-cause 1; every other register, its local memory, every other thread and everything an engine does not touch
stay. Division by 0 traps DIV0; a nonzero bit in a zero field, or a shift by 64 or more in imm18, traps ILLEGAL. -/
def Obligations.EngineArithmetic : Prop :=
  (∀ (tid : Tid) (o : ROps) (s : State), Issues tid [o.ra, o.rb] s →
    (let a := reg s tid o.ra
     let b := reg s tid o.rb
     let k := flags s tid
     let n := b.toNat % 64
     (o.zero = 0 →
      AluDoes (.add tid o) tid o.rd (a + b) (k.add a b) 1 s ∧
      AluDoes (.sub tid o) tid o.rd (a - b) (k.sub a b) 1 s ∧
      AluDoes (.and tid o) tid o.rd (a &&& b) (k.zn (a &&& b)) 1 s ∧
      AluDoes (.or tid o) tid o.rd (a ||| b) (k.zn (a ||| b)) 1 s ∧
      AluDoes (.xor tid o) tid o.rd (a ^^^ b) (k.zn (a ^^^ b)) 1 s ∧
      (let r : W64 := BitVec.ofNat 64 (a.toNat * 2 ^ n); AluDoes (.shl tid o) tid o.rd r (k.zn r) 1 s) ∧
      (let r : W64 := BitVec.ofNat 64 (a.toNat / 2 ^ n); AluDoes (.shr tid o) tid o.rd r (k.zn r) 1 s) ∧
      (let r : W64 := BitVec.ofInt 64 (a.toInt / 2 ^ n); AluDoes (.sar tid o) tid o.rd r (k.zn r) 1 s) ∧
      (let r : W64 := BitVec.ofInt 64 (min a.toInt b.toInt); AluDoes (.min tid o) tid o.rd r (k.zn r) 1 s) ∧
      (let r : W64 := BitVec.ofInt 64 (max a.toInt b.toInt); AluDoes (.max tid o) tid o.rd r (k.zn r) 1 s) ∧
      PlainDoes (.cmp tid o) tid (k.sub a b) 1 s (fun _ => True) ∧
      (let r : W64 := BitVec.ofNat 64 ((a.toNat + b.toNat) % 2 ^ 48); AluDoes (.tadd tid o) tid o.rd r (k.zn r) 1 s) ∧
      (let r : W64 := BitVec.ofInt 64 (Int.bmod ((a.toNat : Int) - b.toNat) (2 ^ 48)); AluDoes (.tsub tid o) tid o.rd r (k.zn r) 1 s) ∧
      (let r : W64 := BitVec.ofNat 64 (a.toNat * b.toNat); AluDoes (.mul tid o) tid o.rd r (k.zn r) 4 s) ∧
      (b ≠ 0 → (let r : W64 := BitVec.ofNat 64 (a.toNat / b.toNat); AluDoes (.divu tid o) tid o.rd r (k.zn r) 34 s) ∧
        (let r : W64 := BitVec.ofNat 64 (a.toNat % b.toNat); AluDoes (.remu tid o) tid o.rd r (k.zn r) 34 s)) ∧
      (b = 0 → Traps (.divu tid o) tid 7 s ∧ Traps (.remu tid o) tid 7 s)) ∧
     (o.zero ≠ 0 → ∀ c ∈ ([.add tid o, .sub tid o, .and tid o, .or tid o, .xor tid o, .shl tid o, .shr tid o, .sar tid o, .min tid o,
        .max tid o, .cmp tid o, .tadd tid o, .tsub tid o, .mul tid o, .divu tid o, .remu tid o] : List Instr), Traps c tid 1 s))) ∧
  (∀ (tid : Tid) (o : IOps) (s : State), Issues tid [o.ra] s →
    (let a := reg s tid o.ra
     let k := flags s tid
     let m := o.imm.toNat
     let x : W64 := BitVec.ofInt 64 o.imm.toInt
     let z : W64 := BitVec.ofNat 64 m
     AluDoes (.addi tid o) tid o.rd (a + x) (k.add a x) 1 s ∧
     AluDoes (.andi tid o) tid o.rd (a &&& z) (k.zn (a &&& z)) 1 s ∧
     AluDoes (.ori tid o) tid o.rd (a ||| z) (k.zn (a ||| z)) 1 s ∧
     AluDoes (.xori tid o) tid o.rd (a ^^^ z) (k.zn (a ^^^ z)) 1 s ∧
     PlainDoes (.cmpi tid o) tid (k.sub a x) 1 s (fun _ => True) ∧
     (m < 64 →
      (let r : W64 := BitVec.ofNat 64 (a.toNat * 2 ^ m); AluDoes (.shli tid o) tid o.rd r (k.zn r) 1 s) ∧
      (let r : W64 := BitVec.ofNat 64 (a.toNat / 2 ^ m); AluDoes (.shri tid o) tid o.rd r (k.zn r) 1 s) ∧
      (let r : W64 := BitVec.ofInt 64 (a.toInt / 2 ^ m); AluDoes (.sari tid o) tid o.rd r (k.zn r) 1 s)) ∧
     (64 ≤ m → Traps (.shli tid o) tid 1 s ∧ Traps (.shri tid o) tid 1 s ∧ Traps (.sari tid o) tid 1 s))) ∧
  (∀ (tid : Tid) (o : IOps) (s : State), Issues tid [] s →
    (let x : W64 := BitVec.ofInt 64 o.imm.toInt
     AluDoes (.movi tid o) tid o.rd x ((flags s tid).zn x) 1 s))

/-- LDW, LDD, STW, STD, FADD and SWAP: the bytes read, the bytes stored and no other, and where an access traps
(07_microcode.md, R153, R155, R157, R174, R185). The address is ra plus the sign-extended immediate, for FADD and SWAP
ra. In the thread's local memory, and in the shared data of its program at 0x10000, an aligned load writes the bytes
there, least significant first, to rd, zero-extended; an aligned store writes the low bytes of rd there and no other
byte anywhere. FADD and SWAP, on shared data alone, write the old 64 bits to rd and store the sum with rb, or rb. No
flag changes. A misaligned access traps ALIGN, one with a byte outside the data space BUS, an atomic one on local
memory BUS; a nonzero zero field traps ILLEGAL. -/
def Obligations.EngineMemory : Prop :=
  (∀ (tid : Tid) (o : IOps) (n : Nat) (ld st : Instr) (s : State),
    ((n = 4 ∧ ld = .ldw tid o ∧ st = .stw tid o) ∨ (n = 8 ∧ ld = .ldd tid o ∧ st = .std tid o)) →
    (let w : W64 := reg s tid o.ra + BitVec.ofInt 64 o.imm.toInt
     let a := w.toNat
     let k := s.thr[tid]
     let p := k.progId
     let g := s.prog[p]
     let off := a - 0x10000
     let inLocal := a + n ≤ 0x400
     let inShared := 0x10000 ≤ a ∧ a + n ≤ 0x10000 + g.sdSize.toNat
     let sdWord := g.sdAt + off / 8
     let v := reg s tid o.rd
     (Issues tid [o.ra] s →
      (inLocal → a % n = 0 → markAt s 3 (ctxWord tid (0x80 + a / 8)) = none → watchpoint s tid w true false = none →
        AluDoes ld tid o.rd (BitVec.ofNat 64 (memLe k.ctx.tlm a n)) (flags s tid) 2 s) ∧
      (inShared → a % n = 0 → markAt s 1 sdWord = none → watchpoint s tid w true false = none →
        AluDoes ld tid o.rd (BitVec.ofNat 64 (memLe g.sd off n)) (flags s tid) 3 s) ∧
      ((inLocal ∨ inShared) → a % n ≠ 0 → Traps ld tid 2 s) ∧
      (¬ inLocal → ¬ inShared → Traps ld tid 3 s)) ∧
     (Issues tid [o.ra, o.rd] s →
      (inLocal → a % n = 0 → Memory.wf k.ctx.tlm = true → watchpoint s tid w false true = none → Goes st s fun t =>
        memLe t.thr[tid].ctx.tlm a n = v.toNat % 2 ^ (8 * n) ∧
        (∀ x, x < a ∨ a + n ≤ x → memGet t.thr[tid].ctx.tlm x = memGet k.ctx.tlm x) ∧
        GoesOn tid 1 s t ∧ RegsSame tid s t ∧ flags t tid = flags s tid ∧ t.prog = s.prog ∧ Apart tid s t ∧ (StaysInPage tid s → Quiet s t)) ∧
      (inShared → a % n = 0 → Memory.wf g.sd = true → watchpoint s tid w false true = none → Goes st s fun t =>
        memLe t.prog[p].sd off n = v.toNat % 2 ^ (8 * n) ∧
        (∀ x, x < off ∨ off + n ≤ x → memGet t.prog[p].sd x = memGet g.sd x) ∧
        t.prog[p] = { g with sd := t.prog[p].sd } ∧ (∀ q, q ≠ p → t.prog[q] = s.prog[q]) ∧ TlmSame tid s t ∧
        GoesOn tid 2 s t ∧ RegsSame tid s t ∧ flags t tid = flags s tid ∧ Apart tid s t ∧ (StaysInPage tid s → Quiet s t)) ∧
      ((inLocal ∨ inShared) → a % n ≠ 0 → Traps st tid 2 s) ∧
      (¬ inLocal → ¬ inShared → Traps st tid 3 s)))) ∧
  (∀ (tid : Tid) (o : ROps) (swap : Bool) (s : State), Issues tid [o.ra, o.rb] s →
    (let c : Instr := if swap then .swap tid o else .fadd tid o
     let w := reg s tid o.ra
     let a := w.toNat
     let k := s.thr[tid]
     let p := k.progId
     let g := s.prog[p]
     let off := a - 0x10000
     let inShared := 0x10000 ≤ a ∧ a + 8 ≤ 0x10000 + g.sdSize.toNat
     let old : W64 := BitVec.ofNat 64 (memLe g.sd off 8)
     let new : W64 := if swap then reg s tid o.rb else old + reg s tid o.rb
     (o.zero = 0 →
      (inShared → a % 8 = 0 → markAt s 1 (g.sdAt + off / 8) = none → Memory.wf g.sd = true →
        watchpoint s tid w true true = none → Goes c s fun t =>
          RegIs tid o.rd old s t ∧ memLe t.prog[p].sd off 8 = new.toNat ∧
          (∀ x, x < off ∨ off + 8 ≤ x → memGet t.prog[p].sd x = memGet g.sd x) ∧
          t.prog[p] = { g with sd := t.prog[p].sd } ∧ (∀ q, q ≠ p → t.prog[q] = s.prog[q]) ∧ TlmSame tid s t ∧
          GoesOn tid 5 s t ∧ flags t tid = flags s tid ∧ Apart tid s t ∧ (StaysInPage tid s → Quiet s t)) ∧
      (inShared → a % 8 ≠ 0 → Traps c tid 2 s) ∧
      (¬ inShared → Traps c tid 3 s)) ∧
     (o.zero ≠ 0 → Traps c tid 1 s)))

/-- BCOND, CALL, JR, WAIT and TRAP: targets, the address after the PC, the event taken, and the trap by software
(07_microcode.md, R153, R154, R158, R160, R174, R175, R185, R186). A branch whose condition over the flags holds, a call
and a jump go on at their target; a target outside the image traps BUS; one not taken goes on at the next address.
CALL and JR write the address after the PC to rd. WAIT clears TH, ends the activation and takes the oldest event of the
queue into the pair rd and rd + 1, or, with none queued, leaves the thread in WAIT. TRAP k traps SW with k in TCAUSE
15:8. A reserved condition, a bad pair or a field that is not 0 traps ILLEGAL. No flag changes. -/
def Obligations.EngineControl : Prop :=
  (∀ (tid : Tid) (o : BOps) (s : State), Issues tid [] s →
    (let k := s.thr[tid]
     let f := flags s tid
     let conds : List Bool := [true, f.z, !f.z, f.n != f.v, f.n == f.v, f.c, !f.c, f.n, !f.n, f.f, !f.f, !f.z && f.n == f.v, f.z || f.n != f.v]
     let dest : Int := k.ctx.pc.toNat + o.imm.toInt
     (conds[o.cond.toNat]? = none → Traps (.bcond tid o) tid 1 s) ∧
     (conds[o.cond.toNat]? = some false → PlainDoes (.bcond tid o) tid f 1 s (fun _ => True)) ∧
     (conds[o.cond.toNat]? = some true → 0 ≤ dest → dest < codeEnd s.prog[k.progId] → Goes (.bcond tid o) s fun t =>
       JumpsTo tid (BitVec.ofInt 19 dest) s t ∧ RegsSame tid s t) ∧
     (conds[o.cond.toNat]? = some true → (dest < 0 ∨ (codeEnd s.prog[k.progId] : Int) ≤ dest) → Traps (.bcond tid o) tid 3 s))) ∧
  (∀ (tid : Tid) (o : JOps) (s : State), Issues tid [] s →
    (let k := s.thr[tid]
     let dest : Int := k.ctx.pc.toNat + o.imm.toInt
     (0 ≤ dest → dest < codeEnd s.prog[k.progId] → Goes (.call tid o) s fun t =>
       JumpsTo tid (BitVec.ofInt 19 dest) s t ∧ RegIs tid o.rd (BitVec.ofNat 64 (k.ctx.pc.toNat + 1)) s t) ∧
     ((dest < 0 ∨ (codeEnd s.prog[k.progId] : Int) ≤ dest) → Traps (.call tid o) tid 3 s))) ∧
  (∀ (tid : Tid) (o : ROps) (s : State), Issues tid [o.ra] s →
    (let k := s.thr[tid]
     let dest := (reg s tid o.ra).toNat
     (o.zero ≠ 0 → Traps (.jr tid o) tid 1 s) ∧
     (o.zero = 0 → dest < codeEnd s.prog[k.progId] → Goes (.jr tid o) s fun t =>
       JumpsTo tid (BitVec.ofNat 19 dest) s t ∧ RegIs tid o.rd (BitVec.ofNat 64 (k.ctx.pc.toNat + 1)) s t) ∧
     (o.zero = 0 → codeEnd s.prog[k.progId] ≤ dest → Traps (.jr tid o) tid 3 s))) ∧
  (∀ (tid : Tid) (o : SOps) (s : State), Issues tid [] s →
    (let k := s.thr[tid]
     let pair := o.rd ≠ 0 ∧ o.rd.toNat % 2 = 0
     let ended (t : State) : Prop := t.thr[tid].ctx.th = false ∧ t.thr[tid].ctx.pc = k.ctx.pc + 1 ∧ t.thr[tid].ctx.tcause = k.ctx.tcause ∧
       t.thr[tid].ctx.tpc = k.ctx.tpc ∧ flags t tid = flags s tid ∧ TlmSame tid s t ∧ t.prog = s.prog ∧ Apart tid s t ∧
       (∀ n, counted tid 0 s = some n → t.thr[tid].lastCyc = BitVec.ofNat 16 (min n 65535)) ∧ (k.cyc = none → t.thr[tid].lastCyc = k.lastCyc)
     (¬ (Plain o [0] ∧ pair) → Traps (.wait tid o) tid 1 s) ∧
     (Plain o [0] → pair → k.ctx.pc.toNat + 1 < codeEnd s.prog[k.progId] →
      (∀ e r, k.evq = e :: r → Goes (.wait tid o) s fun t =>
        reg t tid o.rd = e.data ++ e.arg ++ e.src ++ e.kind ∧ reg t tid (o.rd + 1) = e.time.zeroExtend 64 ∧ t.thr[tid].evq = r ∧
        (∀ x, x ≠ o.rd → x ≠ o.rd + 1 → reg t tid x = reg s tid x) ∧ ended t ∧
        (StaysInPage tid s → t.thr[tid].cyc = some 2 ∧ Quiet s t)) ∧
      (k.evq = [] → Goes (.wait tid o) s fun t =>
        t.thr[tid].st = .wait ∧ t.thr[tid].waitRd = o.rd ∧ t.thr[tid].cyc = none ∧ t.thr[tid].evq = [] ∧ RegsSame tid s t ∧ ended t ∧
        Quiet s t)) ∧
     (¬ Plain o [0] → Traps (.trap tid o) tid 1 s) ∧
     (Plain o [0] → Traps (.trap tid o) tid ((o.k.zeroExtend 8 : Byte) ++ (8 : Byte)) s)))

/-- LSN, ULSN, TIMER, TIMERX, NOW, SIG, DBF, ATTN and MFS: subscriptions, the timer, the time, messages and the special
registers (07_microcode.md, R153, R161, R162, R163, R174, R185). LSN and ULSN set and clear the thread's subscription to
a tracker or to a basin of its program; another basin traps BASIN, a tracker above 1 TRACKER. TIMER arms the timer at
ra 47:0, TIMERX disarms it. NOW writes the event time. SIG queues KIND 6 with rb 31:0 at a thread of the same program
that is not FREE or STOPPED, straight into the registers of one that waits, counts it at a full queue, and sets F for
any other target. DBF appends TID, time and ra 31:0 to the message queue, F when it holds 64. ATTN pulses source 129 +
k. MFS writes TID, SLOT, PROG, TCAUSE, TPC or EVQ. A field an instruction does not define traps ILLEGAL. -/
def Obligations.EngineEventsAndMessages : Prop :=
  (∀ (tid : Tid) (o : SOps) (on : Bool) (s : State), Issues tid [] s →
    (let c : Instr := if on then .lsn tid o else .ulsn tid o
     let k := s.thr[tid]
     let f := flags s tid
     let i := o.k.toNat
     (¬ Plain o [0, 1, 2, 3] → Traps c tid 1 s) ∧
     (Plain o [0, 1] → i < 2 → PlainDoes c tid f 2 s fun t => t.thr[tid].subB = k.subB ∧
       ∀ j, j < 2 → bit t.thr[tid].subT j = if j = i then on else bit k.subT j) ∧
     (Plain o [0, 1] → 2 ≤ i → Traps c tid 9 s) ∧
     (Plain o [2, 3] → MyBasin s tid o.k → PlainDoes c tid f 2 s fun t => t.thr[tid].subT = k.subT ∧
       ∀ j, j < 64 → bit t.thr[tid].subB j = if j = i then on else bit k.subB j) ∧
     (Plain o [2, 3] → ¬ MyBasin s tid o.k → Traps c tid 5 s))) ∧
  (∀ (tid : Tid) (o : SOps) (s : State), Issues tid [o.ra] s →
    (let f := flags s tid
     let d := (reg s tid o.ra).truncate 32
     (¬ Plain o [0] → Traps (.timer tid o) tid 1 s ∧ Traps (.dbf tid o) tid 1 s) ∧
     (Plain o [0] → PlainDoes (.timer tid o) tid f 1 s fun t =>
       t.thr[tid].st ≠ .stopped → t.thr[tid].timer = some ((reg s tid o.ra).truncate 48)) ∧
     (Plain o [0] → s.far.msgs.length < 64 → Goes (.dbf tid o) s fun t =>
       t.far.msgs = s.far.msgs ++ [(s.nowEv, BitVec.ofNat 6 tid.val, d)] ∧ flags t tid = { f with f := false } ∧
       Moves tid 2 s t ∧ Within engParts s t ∧ (StaysInPage tid s → Still s t)) ∧
     (Plain o [0] → 64 ≤ s.far.msgs.length → PlainDoes (.dbf tid o) tid { f with f := true } 2 s fun t => t.far.msgs = s.far.msgs))) ∧
  (∀ (tid : Tid) (o : SOps) (s : State), Issues tid [] s →
    (let k := s.thr[tid]
     let f := flags s tid
     let specials : List W64 := [BitVec.ofNat 64 tid.val, k.slot.zeroExtend 64, k.prog.zeroExtend 64, k.ctx.tcause.zeroExtend 64,
       k.ctx.tpc.zeroExtend 64, BitVec.ofNat 64 k.evq.length]
     (¬ Plain o [0] → Traps (.now tid o) tid 1 s ∧ Traps (.attn tid o) tid 1 s ∧ Traps (.mfs tid o) tid 1 s) ∧
     (¬ Plain o [1] → Traps (.timerx tid o) tid 1 s) ∧
     (Plain o [1] → PlainDoes (.timerx tid o) tid f 1 s fun t => t.thr[tid].timer = none ∧ t.thr[tid].evq = k.evq) ∧
     (Plain o [0] → AluDoes (.now tid o) tid o.rd (s.nowEv.zeroExtend 64) f 2 s) ∧
     (Plain o [0] → o.k.toNat < 8 → Goes (.attn tid o) s fun t =>
       Latched (129 + o.k.toNat) t ∧ flags t tid = f ∧ Moves tid 1 s t ∧ Within engParts s t ∧
       (StaysInPage tid s → t.bas = s.bas ∧ t.bmem = s.bmem ∧ t.spw = s.spw ∧ t.far.msgs = s.far.msgs)) ∧
     (Plain o [0] → 8 ≤ o.k.toNat → Traps (.attn tid o) tid 1 s) ∧
     (∀ v, Plain o [0] → specials[o.k.toNat]? = some v → AluDoes (.mfs tid o) tid o.rd v f 1 s) ∧
     (Plain o [0] → 6 ≤ o.k.toNat → Traps (.mfs tid o) tid 1 s))) ∧
  (∀ (tid : Tid) (o : SOps) (s : State), Issues tid [o.ra, o.rb] s →
    (let f := flags s tid
     let d := (reg s tid o.ra).toNat % 64
     let q := s.thr[d]
     let ok := q.st ≠ .free ∧ q.st ≠ .stopped ∧ q.prog = s.thr[tid].prog
     let e : Ev := { kind := 6, src := BitVec.ofNat 8 tid.val, arg := 0, data := (reg s tid o.rb).truncate 32, time := s.nowEv }
     let sent (t : State) : Prop := flags t tid = { f with f := false } ∧ GoesOn tid 2 s t ∧ RegsSame tid s t ∧ TlmSame tid s t ∧ t.prog = s.prog ∧
       Within engParts s t ∧ ∀ j : Tid, j ≠ tid → j.val ≠ d → t.thr[j] = s.thr[j]
     (¬ Plain o [0] → Traps (.sig tid o) tid 1 s) ∧
     (Plain o [0] → ¬ ok → PlainDoes (.sig tid o) tid { f with f := true } 2 s fun t => t.thr[d].evq = q.evq) ∧
     (Plain o [0] → ok → q.st ≠ .wait → q.evq.length < 8 → Goes (.sig tid o) s fun t =>
       t.thr[d].evq = q.evq ++ [e] ∧ t.thr[d].evqLoss = q.evqLoss ∧ sent t ∧ (StaysInPage tid s → Quiet s t)) ∧
     (Plain o [0] → ok → q.st = .wait → q.evq = [] → q.waitRd ≠ 0 → q.waitRd ≠ 15 → Goes (.sig tid o) s fun t =>
       t.thr[d].ctx.getG q.waitRd = e.data ++ e.arg ++ e.src ++ e.kind ∧ t.thr[d].ctx.getG (q.waitRd + 1) = e.time.zeroExtend 64 ∧
       t.thr[d].evq = [] ∧ t.thr[d].st = (if q.stepping then .halt else .ready) ∧ sent t ∧ (StaysInPage tid s → Quiet s t)) ∧
     (Plain o [0] → ok → 8 ≤ q.evq.length → Goes (.sig tid o) s fun t =>
       t.thr[d].evq = q.evq ∧ t.thr[d].evqLoss = satInc q.evqLoss ∧ sent t)))

/-- CARM, CSHD, CDIS, CFRC, CLOCK, CCAP and HACT: the register write each makes on the channel or harness it names
(07_microcode.md, R164, R165, R166, R167, R174; 03_crossings.md, R55; 04_channels.md, R71, R75, R77, R82, R83, R89,
R93; 08_power_harnesses.md, R191). The channel is k, or rb 5:0 with X; not open or not bound it traps CHAN. A write
that a migration holds, or that comes behind one, waits in the crossing of the thread's engine; where 4 wait there the
thread stalls. Otherwise, where no write waits before it and none of another engine has reached the channel at the
same FAB edge, CARM and CSHD write a compare or shadow from ra, CDIS disarms, CFRC drives the output, CLOCK writes
LOCK, where clearing it with UPD 0b000 transfers the shadows that wait, but one written at that edge; flags and
registers stay, and no other unit changes but by an input that reads the output CFRC drives. A write of a higher
crossing to the same register at that edge stands against this one. CCAP writes the mirror value to rd, F telling
whether it was fresh, and a fresh one is then stale and clears FULL bits. HACT acts on an open harness of the program
as the action's own command does, another traps HARNESS; a word no action allows sets ACT_ERR. A field not defined
traps ILLEGAL. -/
def Obligations.EngineChannels : Prop :=
  (∀ (tid : Tid) (o : SOps) (value : Bool) (c : Instr) (subs : List (BitVec 6)) (op : Byte) (v : EvTime) (s : State),
    Issues tid ((if value then [o.ra] else []) ++ if o.x then [o.rb] else []) s →
    (let w : EvTime := (reg s tid o.ra).truncate 48
     (c = .carm tid o ∧ value = true ∧ subs = [0, 1] ∧ op = (if o.sub = 1 then 1 else 0) ∧ v = w) ∨
     (c = .cshd tid o ∧ value = true ∧ subs = [0, 1, 2] ∧ op = (if o.sub = 2 then 4 else if o.sub = 1 then 3 else 2) ∧ v = w) ∨
     (c = .cdis tid o ∧ value = false ∧ subs = [1, 2, 3] ∧ op = 5 ∧ v = o.sub.zeroExtend 48) ∨
     (c = .cfrc tid o ∧ value = false ∧ subs = [1, 2, 3] ∧ op = 6 ∧ v = o.sub.zeroExtend 48) ∨
     (c = .clock tid o ∧ value = false ∧ subs = [0, 1] ∧ op = 7 ∧ v = o.sub.zeroExtend 48)) →
    (let l : Lch := bvFin 64 rfl (named s tid o)
     (¬ PlainX o subs → Traps c tid 1 s) ∧
     (PlainX o subs → ¬ MyChannel s tid l → Traps c tid 4 s) ∧
     (let e := slotEng s.thr[tid].slot
      let x : ArmW := { har := false, tgt := BitVec.ofNat 8 l.val, op := op, v := v }
      PlainX o subs → MyChannel s tid l →
      (s.lmap[l].mig ≠ none → crossing s tid = [] → Goes c s fun t =>
        t.arm = { s.arm with q := vmod s.arm.q e fun _ => [x] } ∧
        Moves tid 2 s t ∧ flags t tid = flags s tid ∧ Within (engParts ++ [.arm]) s t ∧ (StaysInPage tid s → Quiet s t)) ∧
      (∀ y r, crossing s tid = y :: r → y.har = false → (∀ k : Lch, y.tgt = BitVec.ofNat 8 k.val → s.lmap[k].mig ≠ none) →
        (∃ k : Lch, y.tgt = BitVec.ofNat 8 k.val) →
        (r.length < 3 → Goes c s fun t => t.arm = { s.arm with q := vmod s.arm.q e fun _ => y :: r ++ [x] } ∧
          Moves tid 2 s t ∧ flags t tid = flags s tid ∧ Within (engParts ++ [.arm]) s t ∧ (StaysInPage tid s → Quiet s t)) ∧
        (3 ≤ r.length → s.thr[tid].ctx.pc.toNat + 1 < codeEnd s.prog[s.thr[tid].progId] → Goes c s fun t =>
          t.thr[tid].st = .stall ∧ t.thr[tid].stallOn = .arm ∧ t.thr[tid].stallArm = some x ∧ t.arm = s.arm ∧
          t.thr[tid].ctx.pc = s.thr[tid].ctx.pc + 1 ∧ flags t tid = flags s tid ∧ RegsSame tid s t ∧ TlmSame tid s t ∧
          t.prog = s.prog ∧ Apart tid s t ∧ Quiet s t)) ∧
      (crossing s tid = [] → s.lmap[l].mig = none → sameCycle s.arm.at_ s.now = true → op ≠ 5 →
        (∃ q ∈ s.arm.top, q.1 = x.tgt ∧ q.2.1 = op ∧ e.val < q.2.2.toNat) → Goes c s fun t =>
          t.units = s.units ∧ Moves tid 2 s t ∧ flags t tid = flags s tid ∧ Within (engParts ++ [.arm]) s t)))) ∧
  (∀ (tid : Tid) (o : SOps) (u : UnitId) (s : State), Issues tid ([o.ra] ++ if o.x then [o.rb] else []) s →
    (let l : Lch := bvFin 64 rfl (named s tid o)
     let k := s.units[u]
     let v : EvTime := (reg s tid o.ra).truncate 48
     MyChannel s tid l → s.lmap[l].mig = none → unitOf s l = some u → Clear tid l s →
     (∀ b : Bool, PlainX o [if b then 1 else 0] →
      (Goes (.carm tid o) s fun t =>
        t.units[u].cmp b = v ∧ t.units[u].cmp (!b) = k.cmp (!b) ∧
        t.units[u].arm b = (k.arm b || (k.en && k.mode == 0#2)) ∧ t.units[u].arm (!b) = k.arm (!b) ∧
        t.units[u].eff b = false ∧ t.units[u].eff (!b) = k.eff (!b) ∧
        t.units[u].effT b = s.nowEv + (if k.held = true ∧ gateLine s k.lchId = true then 48 else 32) ∧
        t.units[u].level = k.level ∧ t.units[u].ctrl = k.ctrl ∧ OneUnit tid u s t) ∧
      (Goes (.cshd tid o) s fun t =>
        (if b then t.units[u].shB else t.units[u].shA) = v ∧
        (if b then t.units[u].shvB else t.units[u].shvA) = (decide (k.upd ≠ 0) || k.lock) ∧
        t.units[u].cmp b = (if k.upd = 0 ∧ k.lock = false then v else k.cmp b) ∧
        (k.upd ≠ 0 ∨ k.lock = true → t.units[u].arm b = k.arm b ∧ t.units[u].prd = k.prd) ∧
        t.units[u].ctrl = k.ctrl ∧ t.units[u].level = k.level ∧ OneUnit tid u s t)) ∧
     (PlainX o [2] → Goes (.cshd tid o) s fun t =>
       t.units[u].prdSh = v.truncate 32 ∧ t.units[u].shvP = (decide (k.upd ≠ 0) || k.lock) ∧
       t.units[u].prd = (if k.upd = 0 ∧ k.lock = false ∧ (v.truncate 32 : W32) ≠ 0 then v.truncate 32 else k.prd) ∧
       t.units[u].prdRun = k.prdRun ∧ t.units[u].ctrl = k.ctrl ∧ t.units[u].level = k.level ∧ OneUnit tid u s t))) ∧
  (∀ (tid : Tid) (o : SOps) (u : UnitId) (s : State), Issues tid (if o.x then [o.rb] else []) s →
    (let l : Lch := bvFin 64 rfl (named s tid o)
     let k := s.units[u]
     let gate : Bool := k.held && gateLine s k.lchId
     let drive (t : State) : Prop := Moves tid 2 s t ∧ flags t tid = flags s tid ∧
       (∀ j, j ≠ u → t.units[j].level = s.units[j].level ∧ t.units[j].hiz = s.units[j].hiz) ∧
       Within (engParts ++ [.units, .arm, .har, .link, .xing]) s t ∧ (gate = false → t.har = s.har ∧ t.link = s.link ∧
         ((∀ j : UnitId, 40 ≤ s.units[j].insel.toNat ∧ s.units[j].insel ≠ 46) → OneUnit tid u s t))
     MyChannel s tid l → s.lmap[l].mig = none → unitOf s l = some u → Clear tid l s →
     (PlainX o [1, 2, 3] → Goes (.cdis tid o) s fun t => OneUnit tid u s t ∧
       t.units[u] = { k with armA := k.armA && !bit o.sub 0, armB := k.armB && !bit o.sub 1,
                             disA := if k.armA && bit o.sub 0 then some s.now else k.disA,
                             disB := if k.armB && bit o.sub 1 then some s.now else k.disB }) ∧
     (PlainX o [1, 2] → Goes (.cfrc tid o) s fun t =>
       t.units[u].level = (o.sub == 1#6) ∧ t.units[u].hiz = false ∧ t.units[u].armA = k.armA ∧ t.units[u].armB = k.armB ∧
       t.units[u].ctrl = k.ctrl ∧ drive t) ∧
     (PlainX o [3] → Goes (.cfrc tid o) s fun t =>
       t.units[u].level = (!gate && k.safe == 1#2) ∧ t.units[u].hiz = (!gate && k.safe == 2#2) ∧ t.units[u].safeHeld = true ∧
       t.units[u].armA = false ∧ t.units[u].armB = false ∧ t.units[u].en = false ∧ drive t) ∧
     (∀ b : Bool, PlainX o [if b then 1 else 0] → (let w := setBit k.ctrl 6 b &&& ctrlMask
       k.ctrlRefused w = false → Goes (.clock tid o) s fun t =>
         t.units[u].ctrl = w ∧ t.units[u].lock = b ∧ t.units[u].level = k.level ∧ OneUnit tid u s t ∧
         (b = true ∨ k.lock = false ∨ k.upd ≠ 0 → t.units[u] = { k with ctrl := w }) ∧
         (b = false → k.lock = true → k.upd = 0 → (let tA := k.shvA && !sameCycle k.shEA s.now
           let tB := k.shvB && !sameCycle k.shEB s.now
           t.units[u].shvA = (k.shvA && !tA) ∧ t.units[u].shvB = (k.shvB && !tB) ∧
           t.units[u].shvP = (k.shvP && sameCycle k.shEP s.now) ∧
           t.units[u].cmpA = (if tA then k.shA else k.cmpA) ∧ t.units[u].cmpB = (if tB then k.shB else k.cmpB))))))) ∧
  (∀ (tid : Tid) (o : SOps) (s : State), Issues tid (if o.x then [o.rb] else []) s →
    (let l : Lch := bvFin 64 rfl (named s tid o)
     let m := s.lmap[l].mir
     (¬ PlainX o [0, 1, 2, 3] → Traps (.ccap tid o) tid 1 s) ∧
     (PlainX o [0, 1, 2, 3] → ¬ MyChannel s tid l → Traps (.ccap tid o) tid 4 s) ∧
     (∀ i : Fin 4, o.sub.toNat = i.val → PlainX o [0, 1, 2, 3] → MyChannel s tid l →
      (bit m.fresh i.val = false → AluDoes (.ccap tid o) tid o.rd (m.val[i].zeroExtend 64) { flags s tid with f := true } 2 s) ∧
      (bit m.fresh i.val = true → Goes (.ccap tid o) s fun t =>
        RegIs tid o.rd (m.val[i].zeroExtend 64) s t ∧ flags t tid = { flags s tid with f := false } ∧ GoesOn tid 2 s t ∧
        TlmSame tid s t ∧ t.prog = s.prog ∧ OthersSame tid s t ∧ (i = 3 ∨ Clear tid l s → Within (engParts ++ [.units, .arm, .lmap]) s t) ∧
        t.lmap[l].mir = { m with fresh := setBit m.fresh i.val false } ∧ (∀ j, j ≠ l → t.lmap[j].mir = s.lmap[j].mir) ∧
        (∀ u, s.lmap[l].mig = none → unitOf s l = some u → Clear tid l s → (∀ j, j ≠ u → t.units[j] = s.units[j]) ∧ (let c := s.units[u].cap
          t.units[u] = { s.units[u] with cap := { c with
            fullR := c.fullR && i != 0 && i != 2 && !(i == 1 && s.units[u].capm == 2#2), fullF := c.fullF && i != 1 && i != 2 } })))))) ∧
  (∀ (tid : Tid) (o : SOps) (s : State), Issues tid ([o.ra] ++ if o.x then [o.rb] else []) s →
    (let n := (named s tid o).toNat
     let w : W32 := (reg s tid o.ra).truncate 32
     let mine (h : HarnessId) : Prop := s.har[h].kind ≠ 0 ∧ bit s.prog[s.thr[tid].progId].hMask h.val = true
     (¬ PlainX o [0] → Traps (.hact tid o) tid 1 s) ∧
     (PlainX o [0] → (∀ h : HarnessId, h.val = n → ¬ mine h) → Traps (.hact tid o) tid 6 s) ∧
     (∀ h : HarnessId, PlainX o [0] → h.val = n → mine h → crossing s tid = [] → Goes (.hact tid o) s fun t =>
       Moves tid 2 s t ∧ flags t tid = flags s tid ∧ Within (engParts ++ [.units, .arm, .har, .link, .xing]) s t ∧
       (actionValid s.har[h].kind w = false →
         t.har[h] = { s.har[h] with flt := setBit s.har[h].flt 25 true } ∧ (∀ j, j ≠ h → t.har[j] = s.har[j]) ∧ t.units = s.units ∧
         t.link = s.link) ∧
       (∀ c : Instr, (w = 0x10000000 ∧ c = .harnessCommit h) ∨ (w = 0x20000000 ∧ c = .harnessSafe h) ∨ (w = 0x30000000 ∧ c = .harnessResume h) ∨
           (w = 4#4 ++ 0#19 ++ (w.truncate 9 : BitVec 9) ∧ c = .harnessPhase h (w.truncate 9)) ∨
           (w = 5#4 ++ (w.truncate 28 : BitVec 28) ∧ c = .harnessLevels h (w.truncate 28)) →
         Goes c s fun r => t.units = r.units ∧ t.har = r.har ∧ t.link = r.link))))

/-- BPOST, BREAD, BACK, SPW, SPC, SPX, ACONV, TPER and TLAST: basins, the spillway and angles from a thread
(07_microcode.md, R168 to R174; 05_ostler.md, R122, R125, R127, R136; 06_spillway.md, R138, R139, R140, R146). BPOST
stores the record of ra and rb in a basin of the program, drops it with F, overwrites, or stalls, by policy; BREAD
copies the record at RD_CNT without consuming it, 0 with F from an empty basin; BACK moves RD_CNT on, F where refused.
SPW writes the entry of a 24-byte image and its handle, or the reason with F; SPC confirms a commit entry, alone in its
ENG cycle, and SPX withdraws an entry, F for a handle that names none. ACONV, TPER and TLAST write tooth and delay, period or stamp, or 0
with F. Wrong basin, tracker, pair, descriptor, image address or field traps by its cause, with no effect. -/
def Obligations.EngineBasinsSpillwayAngles : Prop :=
  (∀ (tid : Tid) (o : SOps) (s : State), Issues tid [o.ra, o.rb] s →
    (let n := o.k.toNat
     let k := s.bas[n]
     let x := reg s tid o.rb
     let r : Rec := { time := (reg s tid o.ra).truncate 48, kind := fld x 48 8, src := BitVec.ofNat 8 tid.val, flags := 0, aux := fld x 32 16,
                      data := fld x 0 32 }
     let good := 0x80 ≤ r.kind.toNat ∧ x.toNat < 2 ^ 56
     let slot := k.wrCnt.toNat % 64
     let page := ((if slot = 0 then k.ring.rotateLeft else k.ring).headD 0).toNat
     let at_ := 0x400 * page + 16 * slot
     let full := slot = 0 ∧ k.nextUnread = true ∧ k.ceil.toNat ≤ k.ring.length
     let fset (b : Bool) : Fl := { flags s tid with f := b }
     (¬ Plain o [0] → Traps (.bpost tid o) tid 1 s) ∧
     (Plain o [0] → ¬ (MyBasin s tid o.k ∧ good) → Traps (.bpost tid o) tid 5 s) ∧
     (Plain o [0] → MyBasin s tid o.k → good →
      ((slot ≠ 0 ∨ k.nextUnread = false) → k.ovf = false → (∀ t : Tid, bit s.thr[t].subB n = false) → Memory.wf s.bmem = true →
        Goes (.bpost tid o) s fun t =>
          t.bas[n].wrCnt = k.wrCnt + 1 ∧ t.bas[n].rdCnt = k.rdCnt ∧ t.bas[n].drop = k.drop ∧ flags t tid = fset false ∧ Moves tid 2 s t ∧
          (∀ j, j < 63 → (hj : j < 64) → j ≠ n → t.bas[j] = s.bas[j]) ∧ Within engParts s t ∧
          (StaysInPage tid s → memBytes t.bmem at_ 16 = leBytes 6 r.time.toNat ++ [r.kind, r.src, 0, k.wrCnt.truncate 8] ++
            leBytes 2 r.aux.toNat ++ leBytes 4 r.data.toNat ∧ ∀ y, y < at_ ∨ at_ + 16 ≤ y → memGet t.bmem y = memGet s.bmem y)) ∧
      (full → k.policy ≠ 1 → k.policy ≠ 2 → Goes (.bpost tid o) s fun t =>
        t.bas[n].drop = satInc k.drop ∧ t.bas[n].wrCnt = k.wrCnt ∧ t.bas[n].rdCnt = k.rdCnt ∧ flags t tid = fset true ∧ Moves tid 2 s t) ∧
      (full → k.policy = 1 → (∀ t : Tid, bit s.thr[t].subB n = false) → Goes (.bpost tid o) s fun t =>
        t.bas[n].wrCnt = k.wrCnt + 1 ∧ t.bas[n].rdCnt = k.rdCnt + BitVec.ofNat 32 (64 - k.rdCnt.toNat % 64) ∧
        t.bas[n].disc = satAdd k.disc (64 - k.rdCnt.toNat % 64) ∧ flags t tid = fset false ∧ Moves tid 2 s t) ∧
      (full → k.policy = 2 → s.thr[tid].ctx.pc.toNat + 1 < codeEnd s.prog[s.thr[tid].progId] → Goes (.bpost tid o) s fun t =>
        t.thr[tid].st = .stall ∧ t.thr[tid].stallOn = .post ∧ t.thr[tid].ctx.pc = s.thr[tid].ctx.pc + 1 ∧ flags t tid = flags s tid ∧
        RegsSame tid s t ∧ TlmSame tid s t ∧ t.prog = s.prog ∧ Apart tid s t ∧ Quiet s t ∧
        ∃ v, t.thr[tid].stallPost = some (o.k, v) ∧ recOf v = r)))) ∧
  (∀ (tid : Tid) (o : SOps) (s : State), Issues tid [] s →
    (let k := s.bas[o.k.toNat]
     let pair := o.rd ≠ 0 ∧ o.rd.toNat % 2 = 0
     let a := 0x400 * k.rdPage.toNat + 16 * (k.rdCnt.toNat % 64)
     let copies (lo hi : W64) (f : Bool) : Prop := Goes (.bread tid o) s fun t =>
       reg t tid o.rd = lo ∧ reg t tid (o.rd + 1) = hi ∧ (∀ x, x ≠ o.rd → x ≠ o.rd + 1 → reg t tid x = reg s tid x) ∧
       flags t tid = { flags s tid with f := f } ∧ AluRest tid 3 s t
     (¬ (Plain o [0] ∧ pair) → Traps (.bread tid o) tid 1 s) ∧
     (Plain o [0] → pair → ¬ MyBasin s tid o.k → Traps (.bread tid o) tid 5 s) ∧
     (Plain o [0] → pair → MyBasin s tid o.k → k.rdCnt = k.wrCnt → copies 0 0 true) ∧
     (Plain o [0] → pair → MyBasin s tid o.k → k.rdCnt ≠ k.wrCnt → markAt s 4 (a / 8) = none → markAt s 4 (a / 8 + 1) = none →
       copies (BitVec.ofNat 64 (memLe s.bmem a 8)) (BitVec.ofNat 64 (memLe s.bmem (a + 8) 8)) false))) ∧
  (∀ (tid : Tid) (o : SOps) (s : State), Issues tid [o.ra] s →
    (let n := o.k.toNat
     let k := s.bas[n]
     let d : W32 := (reg s tid o.ra).truncate 32
     (¬ Plain o [0] → Traps (.back tid o) tid 1 s) ∧
     (Plain o [0] → ¬ MyBasin s tid o.k → Traps (.back tid o) tid 5 s) ∧
     (Plain o [0] → MyBasin s tid o.k → k.occ < d.toNat → Goes (.back tid o) s fun t =>
       t.bas[n] = { k with rdErr := true } ∧ flags t tid = { flags s tid with f := true } ∧ Moves tid 2 s t ∧ Within engParts s t) ∧
     (Plain o [0] → MyBasin s tid o.k → d.toNat ≤ k.occ → (∀ t : Tid, bit s.thr[t].subB n = false ∧ s.thr[t].stallOn ≠ .post) →
       Goes (.back tid o) s fun t =>
         t.bas[n].rdCnt = k.rdCnt + d ∧ t.bas[n].rdErr = false ∧ t.bas[n].wrCnt = k.wrCnt ∧ t.bas[n].drop = k.drop ∧
         flags t tid = { flags s tid with f := false } ∧ Moves tid 2 s t ∧ Within engParts s t))) ∧
  (∀ (tid : Tid) (o : SOps) (s : State), Issues tid [o.ra] s →
    (let a := (reg s tid o.ra).toNat
     let p := s.thr[tid].progId
     let im := imageEnt (memBytes s.thr[tid].ctx.tlm a 24)
     let alone : Prop := sameEng s.spw.confAt s.now = false ∨ s.spw.confGrp = []
     (¬ Plain o [0] → Traps (.spw tid o) tid 1 s) ∧
     (Plain o [0] → 0x400 < a + 24 → Traps (.spw tid o) tid 3 s) ∧
     (Plain o [0] → a + 24 ≤ 0x400 → a % 8 ≠ 0 → Traps (.spw tid o) tid 2 s) ∧
     (Plain o [0] → a + 24 ≤ 0x400 → a % 8 = 0 → (∀ i, i < 3 → markAt s 3 (ctxWord tid (0x80 + a / 8 + i)) = none) →
      watchpoint s tid (reg s tid o.ra) true false = none →
      (∀ why, spwRefusal s p im.1 im.2 = some why → Goes (.spw tid o) s fun t =>
        RegIs tid o.rd (BitVec.ofNat 64 why) s t ∧ flags t tid = { flags s tid with f := true } ∧ GoesOn tid 6 s t ∧ TlmSame tid s t ∧
        t.prog = s.prog ∧ Apart tid s t ∧ (StaysInPage tid s → t.spw = { s.spw with refused := satInc s.spw.refused })) ∧
      (∀ i : Fin 256, spwRefusal s p im.1 im.2 = none → s.spw.ent[i].valid = false → (∀ j, j < i → s.spw.ent[j].valid = true) →
        Goes (.spw tid o) s fun t =>
          RegIs tid o.rd (BitVec.ofNat 64 (256 * (s.spw.ent[i].gen + 1).toNat + i.val)) s t ∧ flags t tid = { flags s tid with f := false } ∧
          GoesOn tid 6 s t ∧ TlmSame tid s t ∧ t.prog = s.prog ∧ Apart tid s t ∧
          (StaysInPage tid s → (∀ j, j ≠ i → t.spw.ent[j] = s.spw.ent[j]) ∧ t.spw.refused = s.spw.refused ∧
            (im.1.ckind ≠ 0 ∨ (im.1.armable s = true ∧ alone) → t.spw.ent[i] = { im.1 with
              valid := true, conf := im.1.ckind == 0, owner := BitVec.ofNat 8 tid.val, gen := s.spw.ent[i].gen + 1 } ∧
              t.spw.x78 = if im.1.ckind = 0 then s.spw.x78.filter (· != BitVec.ofNat 8 i.val) ++ [BitVec.ofNat 8 i.val]
                else s.spw.x78)))))) ∧
  (∀ (tid : Tid) (o : SOps) (s : State), Issues tid [o.ra] s →
    (let h : W16 := (reg s tid o.ra).truncate 16
     let fset (b : Bool) : Fl := { flags s tid with f := b }
     (¬ Plain o [0] → Traps (.spc tid o) tid 1 s) ∧
     (¬ Plain o [1] → Traps (.spx tid o) tid 1 s) ∧
     (Plain o [0] → (∀ i, MyEntry s tid h i → s.spw.ent[i].ckind ≠ 3) → PlainDoes (.spc tid o) tid (fset true) 2 s fun _ => True) ∧
     (Plain o [1] → (∀ i, ¬ MyEntry s tid h i) → PlainDoes (.spx tid o) tid (fset true) 2 s fun _ => True) ∧
     (∀ i, Plain o [0] → MyEntry s tid h i → s.spw.ent[i].ckind = 3 → s.spw.ent[i].trel = false → Goes (.spc tid o) s fun t =>
       Moves tid 2 s t ∧ flags t tid = fset false ∧ Within engParts s t ∧
       (StaysInPage tid s → (sameEng s.spw.confAt s.now = false ∨ s.spw.confGrp = []) → (∀ j, j ≠ i → t.spw.ent[j] = s.spw.ent[j]) ∧
         (if s.spw.ent[i].armable s = true then t.spw.ent[i] = { s.spw.ent[i] with conf := true } ∧
            t.spw.x78 = s.spw.x78.filter (· != BitVec.ofNat 8 i.val) ++ [BitVec.ofNat 8 i.val]
          else t.spw.ent[i].valid = false ∧ t.spw.target = satInc s.spw.target))) ∧
     (∀ i, Plain o [1] → MyEntry s tid h i → Goes (.spx tid o) s fun t =>
       Moves tid 2 s t ∧ flags t tid = fset false ∧ Within engParts s t ∧ t.spw.ent[i].valid = false ∧
       (StaysInPage tid s → (∀ j, j ≠ i → t.spw.ent[j] = s.spw.ent[j]) ∧ t.spw.withdrawn = satInc s.spw.withdrawn)))) ∧
  (∀ (tid : Tid) (o : SOps) (s : State),
    (let f := flags s tid
     let gives (c : Instr) (v : W64) (n : Nat) : Prop := AluDoes c tid o.rd v { f with f := false } n s
     let fails (c : Instr) (n : Nat) : Prop := AluDoes c tid o.rd 0 { f with f := true } n s
     (Issues tid [o.ra, o.rb] s →
      (¬ Plain o [0] → Traps (.aconv tid o) tid 1 s) ∧
      (Plain o [0] → 2 ≤ o.k.toNat → Traps (.aconv tid o) tid 9 s) ∧
      (∀ n : Fin 2, Plain o [0] → n.val = o.k.toNat → (let k := s.gt[n]
        let a := (reg s tid o.ra).toNat
        let pitch := 36000 / max 1 k.nt
        let b := if o.rb = 0 then a / pitch else (reg s tid o.rb).toNat % 65536
        let d := (2 * ((a - b * pitch) * k.per.toNat) + pitch) / (2 * pitch)
        let ok := (k.gs = .sync ∨ k.gs = .prov) ∧ k.gotPer = true ∧ a < pitch * k.cycle ∧ b < k.cycle ∧ b * pitch ≤ a ∧ d < 2 ^ 32
        (ok → gives (.aconv tid o) (BitVec.ofNat 64 (2 ^ 32 * b + d)) 8) ∧ (¬ ok → fails (.aconv tid o) 8)))) ∧
     (Issues tid [o.ra] s →
      (¬ Plain o [0] → Traps (.tper tid o) tid 1 s) ∧
      (Plain o [0] → 2 ≤ o.k.toNat → Traps (.tper tid o) tid 9 s) ∧
      (∀ n : Fin 2, Plain o [0] → n.val = o.k.toNat → (let k := s.gt[n]
        let i := (reg s tid o.ra).toNat
        let synced := k.gs = .prov ∨ k.gs = .sync ∨ k.gs = .hold
        (synced → ∀ v, k.win[i]? = some v → gives (.tper tid o) (v.zeroExtend 64) 2) ∧
        ((¬ synced ∨ k.win.length ≤ i) → fails (.tper tid o) 2)))) ∧
     (Issues tid [] s →
      (¬ Plain o [1] → Traps (.tlast tid o) tid 1 s) ∧
      (Plain o [1] → 2 ≤ o.k.toNat → Traps (.tlast tid o) tid 9 s) ∧
      (∀ n : Fin 2, Plain o [1] → n.val = o.k.toNat → (let k := s.gt[n]
        let synced := k.gs = .prov ∨ k.gs = .sync ∨ k.gs = .hold
        (synced → k.gotTooth = true → gives (.tlast tid o) (k.idx ++ (if k.exSeen then k.exAt else k.last)) 2) ∧
        ((¬ synced ∨ k.gotTooth = false) → fails (.tlast tid o) 2))))))

/-! ### Health and debug -/

/-- SRAM_SCRUB, FRAME_REPAIR_DONE, CORRECTED_ERROR_WINDOW_END, MONITOR_SAMPLE, UNIT_FAILURE, MIGRATION_RESUME,
UNIT_REGISTER_ECC_CORRECTION, TAPS_MEASURE and UNIT_INJ_WRITE (17_health.md, R379, R380, R383 to R388, R393, R398). A
scrub reports the errors found, corrected ones in SRAM_CE and the table, others in SRAM_UE with source 211; a repaired
frame is valid where its CRC agrees. At the end of a window of 1 h the counts restart. Temperatures follow each
sample; one at TEMP_SHUT, or VBAT high, sends SAFE to every live power harness. A failed unit is retired, its output
goes to its safe level, its channel stops and a spare is taken; without one the channel is retired. At the resume
edge, the oldest migration first, the spare is the channel's unit, with the registers it had at the failure. An
interpolator out of range fails its item with source 216. Injection acts only while it is open. -/
def Obligations.HealthCommands : Prop :=
  let noneWaits (s : State) : Prop := (∀ e : EngineId, s.arm.q[e] = []) ∧ ∀ t : Tid, s.thr[t].stallOn ≠ .arm
  (∀ (ret : Bool) (errs : List (Byte × BitVec 24 × Bool)) (s : State), s.farrierUp = false → exec (.sramScrub ret errs) s = .next s) ∧
  (∀ (ret : Bool) (m : Byte) (w : BitVec 24) (s : State), s.farrierUp = true → (∀ k ∈ s.hlt.marks, 8 ≤ k.1.toNat ∨ (k.1 == 6#8) ≠ ret) →
    (exec (.sramScrub ret []) s = .next s) ∧
    (m.toNat < 8 → (m == 6#8) = ret → s.hlt.corr = [] → s.cal.corrThr ≠ 1 → Goes (.sramScrub ret [(m, w, false)]) s fun t =>
      t.hlt.ce[m.toNat]? = (s.hlt.ce[m.toNat]?).map satInc ∧ t.hlt.ue = s.hlt.ue ∧
      t.hlt.corr = [{ mem := m, word := w, cnt := 1, start := s.tb.dt }] ∧ Within [.hlt] s t) ∧
    (m ∈ ([1, 3, 4] : List Byte) → ret = false → Goes (.sramScrub ret [(m, w, true)]) s fun t =>
      t.hlt.ue[m.toNat]? = (s.hlt.ue[m.toNat]?).map satInc ∧ t.hlt.ce = s.hlt.ce ∧ Latched 211 t ∧ Within evParts s t) ∧
    (∀ i : Fin 128, ret = false → w.toNat / 64 = i.val → s.frm[i].used = true → s.frm[i].valid = true →
      Goes (.sramScrub ret [(2, w, true)]) s fun t =>
        t.frm[i].valid = false ∧ t.frm[i].repair = !(s.prog[s.frm[i].prog.toNat].staged) ∧ (∀ j, j ≠ i → t.frm[j] = s.frm[j]) ∧ Latched 211 t ∧
        Within (evParts ++ [.frm]) s t)) ∧
  (∀ (i : Fin 128) (words : List W32) (s : State), (let f := s.frm[i]
      let p : ProgId := bvFin 16 rfl f.prog
      let agrees := crc32 (words.flatMap fun w => leBytes 4 w.toNat) = s.prog[p].pcrc.getD f.page.toNat 0
      let here := f.used = true ∧ f.repair = true
      (¬ here → exec (.frameRepairDone i words) s = .next s) ∧
      (here → s.ost.fillQ = [] →
       (agrees → Goes (.frameRepairDone i words) s fun t =>
         t.frm[i].valid = true ∧ t.frm[i].words = words ∧ t.frm[i].repair = false ∧ t.frm[i].page = f.page ∧ (∀ j, j ≠ i → t.frm[j] = s.frm[j]) ∧
         (∀ tid ∈ stalledOn s p f.page, t.thr[tid].st ≠ .stall ∧ t.thr[tid].ctx = s.thr[tid].ctx) ∧
         (∀ tid, tid ∉ stalledOn s p f.page → t.thr[tid] = s.thr[tid])) ∧
       (¬ agrees → f.tries = 0 → exec (.frameRepairDone i words) s = .next { s with frm := vmod s.frm i fun f => { f with tries := 1 } }) ∧
       (¬ agrees → f.tries ≠ 0 → Goes (.frameRepairDone i words) s fun t =>
         t.frm[i] = Frame.reset ∧ t.ost.fillErr = satInc s.ost.fillErr ∧ Latched 205 t ∧
         (∀ tid ∈ stalledOn s p f.page, t.thr[tid].st = .stopped) ∧ (∀ tid, tid ∉ stalledOn s p f.page → t.thr[tid] = s.thr[tid]))))) ∧
  (∀ (at_ : Instant) (s : State), (let a := advanceTo at_ s
      let past (start : W64) : Prop := 5760000000000 ≤ (a.tb.dt - start).toNat
      Goes (.correctedErrorWindowEnd at_) s fun t =>
        (∀ u : UnitId, t.units[u] = if past s.units[u].hl.ceStart then { s.units[u] with hl := { s.units[u].hl with ceHour := 0 } } else s.units[u]) ∧
        t.hlt.corr.length = s.hlt.corr.length ∧
        (∀ (i : Nat) (e : CorrEnt), s.hlt.corr[i]? = some e → t.hlt.corr[i]? = some (if past e.start then { e with cnt := 0 } else e)) ∧
        t.hlt.ce = s.hlt.ce ∧ t.hlt.marks = s.hlt.marks ∧ Within [.tb, .hlt, .units] s t)) ∧
  (∀ (at_ : Instant) (m : MonIn) (s : State), (let a := advanceTo at_ s
      let t0 := dieTemp a 0 m.d0
      let t1 := dieTemp a 1 m.d1
      let temps : Vector (BitVec 12) 2 := #v[BitVec.ofInt 12 t0, BitVec.ofInt 12 t1]
      let shut : Int := 10 * s.cal.tempShut.toNat
      let cool := t0 < 10 * s.cal.tempWarn.toNat ∧ t1 < 10 * s.cal.tempWarn.toNat ∧ t0 < shut ∧ t1 < shut
      let safe (t : State) : Prop := ∀ h : HarnessId, s.har[h].power = true → s.har[h].live = true → t.har[h].hstate = .safe ∧ t.har[h].win = 0 ∧
        t.har[h].phase = 0
      (s.pwr.phase ≠ .run → exec (.monitorSample at_ m) s = .next s) ∧
      (s.pwr.phase = .run → s.farrierUp = false →
        exec (.monitorSample at_ m) s = .next { a with hlt := { a.hlt with dtemp := temps } }) ∧
      (s.farrierUp = true → cool → s.hlt.tempTrip = false → s.hlt.vbatTrip = false → s.hlt.monTrip = 0 →
        (∀ i : Fin 5, supplyInjected a i = false) → m.vbatHigh = false → m.vbatLow = false → m.vcoreBad = false → m.vbakLow = false →
        Goes (.monitorSample at_ m) s fun t => t.hlt.dtemp = temps ∧ t.hlt.tempTrip = false ∧ t.hlt.vbatTrip = false ∧
          t.hlt.det = s.hlt.det ∧ Within [.tb, .hlt] s t) ∧
      (s.farrierUp = true → shut ≤ t0 → tripShown s 0x0B 0 = false → Goes (.monitorSample at_ m) s fun t =>
        t.hlt.dtemp = temps ∧ Latched 214 t ∧ t.hlt.tempTrip = true ∧ safe t) ∧
      (s.farrierUp = true → m.vbatHigh = true → s.hlt.vbatTrip = false → Goes (.monitorSample at_ m) s fun t =>
        t.hlt.dtemp = temps ∧ Latched 215 t ∧ t.hlt.vbatTrip = true ∧ safe t))) ∧
  (∀ (at_ : Instant) (u : UnitId) (chk : BitVec 5) (s : State), (let a := advanceTo at_ s
      let k := s.units[u]
      let c : Instr := .unitFailure at_ u chk
      let marked (t : State) : Prop := t.units[u].ust = .retired ∧ t.units[u].hl.chk = k.hl.chk ||| chk ∧ bit t.rsv.unitMarks u.val = true
      let held := k.ust ≠ .retired ∧ k.held = true ∧ gateLine s k.lchId = false
      ((chk = 0 ∨ unitChecked a u = false) → exec c s = .next s) ∧
      (chk ≠ 0 → unitChecked a u = true →
       (k.ust = .retired → exec c s = .next a) ∧
       (k.ust ≠ .retired → k.held = false → reservedFor a u = none → Goes c s fun t =>
         marked t ∧ t.lmap = s.lmap ∧ (∀ j, j ≠ u → t.units[j] = s.units[j]) ∧ Within (evParts ++ [.tb, .rsv, .units]) s t) ∧
       (held → ∀ n : UnitId, n ≠ u → s.units[n].ust = .free → (∀ j, n < j → s.units[j].ust ≠ .free) → Goes c s fun t =>
         marked t ∧ t.units[u].level = (k.safe == 1#2) ∧ t.units[u].hiz = (k.safe == 2#2) ∧ t.units[u].safeHeld = true ∧
         t.units[u].en = false ∧ t.units[u].armA = false ∧ t.units[u].armB = false ∧ t.lmap[k.lchId].snap = some k ∧
         t.units[n].ust = .held ∧ t.lmap[k.lchId].mig = some a.nowEv ∧ t.lmap[k.lchId].migTo = BitVec.ofNat 7 n.val ∧
         (∀ l, l ≠ k.lchId → t.lmap[l] = s.lmap[l]) ∧
         (∀ j, j ≠ u → j ≠ n → 40 ≤ s.units[j].insel.toNat → t.units[j] = s.units[j])) ∧
       (held → (∀ j : UnitId, s.units[j].ust ≠ .free) → Goes c s fun t =>
         t.units[u].ust = .retired ∧ t.lmap[k.lchId].pch = 0x7F ∧ t.lmap[k.lchId].xsafe = some k.safe ∧ t.lmap[k.lchId].mig = none ∧
         bit t.hlt.cause 0 = true ∧ bit t.rsv.unitMarks u.val = true ∧ Latched 200 t ∧
         (noneWaits s → ∀ j, j ≠ u → 40 ≤ s.units[j].insel.toNat → t.units[j] = s.units[j]))))) ∧
  (∀ (at_ : Instant) (l : Lch) (s : State), (let a := advanceTo at_ s
      ((a.rootRuns = false ∨ s.lmap[l].mig = none) → exec (.migrationResume at_ l) s = .next s) ∧
      (∀ (u n : UnitId) x c, a.rootRuns = true → s.lmap[l].mig = some x →
        (∀ (i : Lch) y, s.lmap[i].mig = some y → 0 ≤ evDiff y x) → unitOf s l = some u → s.lmap[l].migTo.toNat = n.val → n ≠ u →
        s.lmap[l].snap = some c → s.lmap[l].heldW = [] → noneWaits s → Goes (.migrationResume at_ l) s fun t =>
          (let gate : Bool := s.units[u].held && gateLine s s.units[u].lchId
          t.lmap[l].pch = BitVec.ofNat 7 n.val ∧ t.lmap[l].mig = none ∧ t.units[u].ust = .retired ∧ t.units[n].ust = .held ∧
          t.units[n].lch = c.lch ∧ t.units[n].ctrl = c.ctrl ∧ t.units[n].act = c.act ∧ t.units[n].cmpA = c.cmpA ∧ t.units[n].cmpB = c.cmpB ∧
          t.units[n].level = (!gate && s.units[u].safe == 1#2) ∧ t.units[n].hiz = (!gate && s.units[u].safe == 2#2) ∧ Latched 200 t ∧
          (∀ j, j ≠ u → j ≠ n → t.units[j] = s.units[j]) ∧ (∀ j, j ≠ l → t.lmap[j] = s.lmap[j]))))) ∧
  (∀ (at_ : Instant) (u : UnitId) (s : State), (let a := advanceTo at_ s
      let h := s.units[u].hl
      let fresh := h.ceHour = 0 ∨ 5760000000000 ≤ (a.tb.dt - h.ceStart).toNat
      let n : Byte := if fresh then 1 else satInc h.ceHour
      let counted : UnitHealth := { h with ceCnt := satInc h.ceCnt, ceHour := n, ceStart := if fresh then a.tb.dt else h.ceStart }
      ((unitChecked a u = false ∨ s.units[u].ust = .retired) → exec (.unitRegisterEccCorrection at_ u) s = .next s) ∧
      (unitChecked a u = true → s.units[u].ust ≠ .retired → n < s.cal.corrThr → exec (.unitRegisterEccCorrection at_ u) s =
        .next { a with units := vmod a.units u fun k => { k with hl := counted } }) ∧
      (unitChecked a u = true → s.units[u].ust ≠ .retired → s.cal.corrThr ≤ n → Goes (.unitRegisterEccCorrection at_ u) s fun t =>
        t.units[u].ust = .retired ∧ bit t.rsv.unitMarks u.val = true))) ∧
  (∀ (at_ : Instant) (i : Fin 70) (v : BitVec 6) (s : State), (let a := advanceTo at_ s
      let c : Instr := .tapsMeasure at_ i v
      (s.pwr.phase ≠ .run → exec c s = .next s) ∧
      (s.pwr.phase = .run → 24 ≤ v.toNat → 68 ≤ i.val → exec c s = .next a) ∧
      (∀ u : UnitId, s.pwr.phase = .run → 24 ≤ v.toNat → i.val = u.val →
        exec c s = .next { a with units := vmod a.units u fun k => { k with hl := { k.hl with taps := v } } }) ∧
      (∀ x : Fin 2, s.pwr.phase = .run → v.toNat < 24 → i.val = 68 + x.val → s.conv[x].failed = false → Goes c s fun t =>
        t.conv[x].failed = true ∧ bit t.hlt.cause 7 = true ∧ Latched 216 t ∧ (∀ j, j ≠ x → t.conv[j] = s.conv[j]) ∧ t.units = s.units) ∧
      (∀ u : UnitId, s.pwr.phase = .run → v.toNat < 24 → i.val = u.val → s.units[u].ust ≠ .retired → Goes c s fun t =>
        t.units[u].ust = .retired ∧ Latched 216 t ∧ bit t.rsv.unitMarks u.val = true))) ∧
  (∀ (u : UnitId) (v : BitVec 3) (s : State), (let k := s.units[u]
      (s.far.injOpen = false → exec (.unitInjWrite u v) s = .next s) ∧
      (s.far.injOpen = true → (v.toNat = 0 ∨ 4 < v.toNat ∨ (k.ust = .retired ∧ v ≠ 3)) → exec (.unitInjWrite u v) s = .next s) ∧
      (s.far.injOpen = true → v.toNat ∈ ([1, 2, 4] : List Nat) → k.ust ≠ .retired → Goes (.unitInjWrite u v) s fun t =>
        t.units[u].ust = .retired ∧ t.rsv = s.rsv) ∧
      (s.far.injOpen = true → v = 3 → Goes (.unitInjWrite u v) s fun t => t.units[u].hl.ceCnt = satInc k.hl.ceCnt ∧ t.rsv = s.rsv)))

/-- TAP_RESET, EXTEST, IDCODE, SAMPLE_PRELOAD, CLAMP, HIGHZ, BYPASS, DBG_REG, DBG_MEM, DBG_MEM_DONE, FUSE, FUSE_BLOW_DONE,
HALT_F, RESUME_F, STEP_F, WALK_ENTER, WALK_EXIT, HALT_ENG, RESUME_ENG, HALT_T, RESUME_T and STEP_T (18_debug.md, R401 to
R418). While the TAP has no power, or behind the debug lock, nothing happens but the selection of a bypass. EXTEST,
CLAMP and HIGHZ send SAFE to every live power harness. DBG_REG reads and writes the debug registers, DBG_MEM starts an
access that its completion carries out. FUSE is refused unless the Farrier is halted. Halts stop the Farrier, an engine
or a thread, resumes let it go on, STEP_T runs the one instruction at the PC; walk mode is entered only with all
halted and is left to the wake ladder. -/
def Obligations.DebugPort : Prop :=
  (∀ (v : BitVec 147) (w : BitVec 48) (x : BitVec 66) (y : BitVec 24) (s : State), s.tapOn = false →
    ∀ c ∈ ([.tapReset, .extest, .idcode, .samplePreload v, .clamp, .highz, .bypass, .dbgReg w, .dbgMem x, .fuse y] : List Instr),
      exec c s = .next s) ∧
  (∀ (e : EngineId) (tid : Tid) (at_ : Instant) (k : TideCnt) (s : State), (s.tapOn = false ∨ s.fsh.dbgLock = true) →
    ∀ c ∈ ([.haltF, .resumeF, .stepF, .dbgrst, .walkEnter at_ k, .walkExit, .haltEng e, .resumeEng e, .haltT tid, .resumeT tid,
      .stepT tid] : List Instr), exec c s = .next s) ∧
  (∀ (v : BitVec 147) (w : BitVec 48) (x : BitVec 66) (y : BitVec 24) (s : State), s.tapOn = true →
    (let sel (i : BitVec 5) (d : BitVec 147) : State := { s with dbg := { s.dbg with ir := i, tdo := d } }
     let safe (t : State) : Prop := ∀ h : HarnessId, s.har[h].power = true → s.har[h].live = true → t.har[h].hstate = .safe ∧ t.har[h].win = 0 ∧
       t.har[h].phase = 0
     let does (c : Instr) (ps : List Part) (x : State) : Prop := Goes c s fun t =>
       t.dbg = x.dbg ∧ t.eng = x.eng ∧ (s.pinsCut = false → t = x) ∧ Within (evParts ++ [.units, .xing, .dbg] ++ ps) s t
     does .tapReset [] { s with dbg := { s.dbg with ir := 1 } } ∧ does .idcode [] (sel 1 0x26408C3F) ∧ does .bypass [] (sel 0x1F 0) ∧
     (Goes (.samplePreload v) s fun t => t.dbg.ir = 2 ∧ t.dbg.bsr = v ∧
       (∀ k : Fin 40, bit t.dbg.tdo (3 * k.val) = padLevel s k s.now ∧ bit t.dbg.tdo (3 * k.val + 1) = (tioOut s k s.now).1 ∧
         bit t.dbg.tdo (3 * k.val + 2) = (tioOut s k s.now).2) ∧
       bit t.dbg.tdo 141 = attention s ∧ bit t.dbg.tdo 144 = (s.hlt.cause != 0) ∧
       Within (evParts ++ [.units, .xing, .dbg]) s t ∧ (s.pinsCut = false → Within [.dbg, .far] s t)) ∧
     (Goes .extest s fun t => t.dbg.ir = 0 ∧ t.dbg.bsr = s.dbg.bsr ∧ t.pinsCut = true ∧ safe t ∧ Within (gateParts ++ [.xing, .dbg]) s t) ∧
     (Goes .clamp s fun t => t.dbg.ir = 3 ∧ t.dbg.bsr = s.dbg.bsr ∧ t.pinsCut = true ∧ safe t ∧ Within (gateParts ++ [.xing, .dbg]) s t) ∧
     (Goes .highz s fun t => t.dbg.ir = 4 ∧ t.dbg.bsr = s.dbg.bsr ∧ t.pinsCut = true ∧ safe t ∧ Within (gateParts ++ [.xing, .dbg]) s t) ∧
     (s.fsh.dbgLock = true → does (.dbgReg w) [] (sel 0x10 0) ∧ does (.dbgMem x) [] (sel 0x11 0) ∧ does (.fuse y) [] (sel 0x12 0)) ∧
     (s.fsh.dbgLock = false →
      (let i := (fld w 32 8 : Byte).toNat
       let d : W32 := fld w 0 32
       let b := sel 0x10 (s.dbg.regLatch.zeroExtend 147)
       (bit w 40 = false → Goes (.dbgReg w) s fun t =>
         (s.pinsCut = false → t.dbg = { b.dbg with regLatch := dbgPeek s i } ∧ Within [.dbg, .far] s t) ∧ t.dbg.ir = 0x10 ∧ t.dbg.tdo = b.dbg.tdo) ∧
       (bit w 40 = true → i = 2 → does (.dbgReg w) [] { b with dbg := { b.dbg with haltOnRst := bit d 0 } }) ∧
       (∀ n : Fin 4, bit w 40 = true → i = 4 + n.val → does (.dbgReg w) [] { b with dbg := { b.dbg with fBp := b.dbg.fBp.set n.val d } }) ∧
       (∀ n : Fin 2, bit w 40 = true → i = 8 + n.val → does (.dbgReg w) [] { b with dbg := { b.dbg with fWp := b.dbg.fWp.set n.val d } }) ∧
       (∀ (e : EngineId) (n : Fin 4), bit w 40 = true → i = 0x10 + 16 * e.val + 2 + n.val → does (.dbgReg w) [.eng] { b with eng := vmod b.eng e fun g => { g with bp := g.bp.set n.val d } }) ∧
       (bit w 40 = true → (i = 0 ∨ i = 3 ∨ 0x90 ≤ i) → does (.dbgReg w) [] b) ∧
       (s.pinsCut = false → bit w 40 = true → i = 1 → d = 1 → exec (.dbgReg w) s = exec .haltF b) ∧
       (s.pinsCut = false → bit w 40 = true → i = 1 → d = 2 → exec (.dbgReg w) s = exec .resumeF b)) ∧
      (let d := s.dbg
       let b := sel 0x11 ((b2v 1 d.memBusy ++ b2v 1 d.memErr ++ d.memAddr ++ d.memData : BitVec 66).zeroExtend 147)
       let adr : W32 := fld x 32 32
       (bit x 65 = false → does (.dbgMem x) [] b) ∧
       (bit x 65 = true → d.memBusy = true → does (.dbgMem x) [] { b with dbg := { b.dbg with memErr := true } }) ∧
       (bit x 65 = true → d.memBusy = false → (adr.toNat % 4 ≠ 0 ∨ s.sysOn = false) → does (.dbgMem x) [] { b with dbg := { b.dbg with memErr := true, memAddr := adr } }) ∧
       (bit x 65 = true → d.memBusy = false → adr.toNat % 4 = 0 → s.sysOn = true → does (.dbgMem x) [] { b with dbg := { b.dbg with memErr := false, memBusy := true, memAddr := adr, memData := fld x 0 32, memWr := bit x 64 } })) ∧
      (let b := sel 0x12 0
       let n : Byte := fld y 0 8
       let refused := s.far.halted = false ∨ 16 < n.toNat ∨ (n.toNat ≤ 13 ∧ s.nv.mapLock = true)
       ((bit y 8 = false ∨ s.dbg.fuseBusy = true) → does (.fuse y) [] b) ∧
       (bit y 8 = true → s.dbg.fuseBusy = false → refused → does (.fuse y) [] { b with dbg := { b.dbg with fuseErr := true } }) ∧
       (bit y 8 = true → s.dbg.fuseBusy = false → ¬ refused → does (.fuse y) [] { b with dbg := { b.dbg with fuseErr := false, fuseBusy := true, fuseIdx := n } }))))) ∧
  (∀ s : State, (let d := s.dbg
     (d.memBusy = false → exec .dbgMemDone s = .next s) ∧
     (d.memBusy = true → (s.sysOn = false ∨ busPeek s d.memAddr = none) → exec .dbgMemDone s =
       .next { s with dbg := { d with memBusy := false, memErr := true } }) ∧
     (∀ v, d.memBusy = true → s.sysOn = true → busPeek s d.memAddr = some v → d.memWr = false → Goes .dbgMemDone s fun t =>
       t.dbg.memBusy = false ∧ t.dbg.memErr = d.memErr ∧ t.dbg.memData = v ∧ t.dbg.memAddr = d.memAddr) ∧
     (∀ v, d.memBusy = true → s.sysOn = true → busPeek s d.memAddr = some v → d.memWr = true → Goes .dbgMemDone s fun t =>
       t.dbg.memBusy = false ∧ ∃ u, exec (.registerWrite d.memAddr d.memData 0) s = .next u ∧ Within [.dbg] u t) ∧
     (d.fuseBusy = false → exec .fuseBlowDone s = .next s) ∧
     (d.fuseBusy = true → (let n := d.fuseIdx.toNat
       let b : State := { s with dbg := { d with fuseBusy := false } }
       (n ≤ 13 → exec .fuseBlowDone s = .next { b with nv := { s.nv with fuseMap := setBit s.nv.fuseMap n true } }) ∧
       (n = 14 → exec .fuseBlowDone s = .next { b with nv := { s.nv with mapLock := true } }) ∧
       (n = 15 → exec .fuseBlowDone s = .next { b with nv := { s.nv with bootSrc := true } }) ∧
       (n = 16 → exec .fuseBlowDone s = .next { b with nv := { s.nv with dbgLock := true } }))))) ∧
  (∀ (at_ : Instant) (k : TideCnt) (s : State), s.tapOn = true → s.fsh.dbgLock = false →
    (let a := advanceTo at_ s
     let ready := (s.pwr.phase = .run ∨ s.pwr.phase = .bootWait ∨ s.pwr.phase = .bootHalt) ∧ s.far.halted = true ∧
       ∀ e : EngineId, s.eng[e].halted = true ∨ s.eng[e].retired = true
     ((s.far.halted = true ∨ s.pwr.phase = .held) → exec .haltF s = .next s) ∧
     (s.far.halted = false → s.pwr.phase ≠ .held → Goes .haltF s fun t => t.far.halted = true ∧ t.far.fcause = 1 ∧ Within [.far, .dbg] s t) ∧
     ((s.far.halted = false ∨ s.pwr.phase = .walk) → exec .resumeF s = .next s ∧ exec .stepF s = .next s) ∧
     (s.far.halted = true → s.pwr.phase = .run → s.pwr.restart = false → Goes .resumeF s fun t => t.far.halted = false ∧
       (s.tb.gapDue = [] → s.rcd.due = [] → s.link.cpOpen = none → s.link.cfgReply = none → t.pwr = s.pwr ∧ Within [.far, .rsv] s t)) ∧
     (s.far.halted = true → s.pwr.phase ≠ .walk → Goes .stepF s fun t => t.far.halted = true ∧ t.far.fcause = 4 ∧ Within [.far, .dbg] s t) ∧
     (¬ ready → exec (.walkEnter at_ k) s = .next { a with dbg := { s.dbg with walkErr := true } }) ∧
     (ready → Goes (.walkEnter at_ k) s fun t =>
       t.pwr.phase = .walk ∧ t.dbg.walkErr = false ∧ t.dbg.walkFrom = s.pwr.phase ∧ t.tb.coarse = true ∧ t.tb.pllLock = false ∧ Latched 197 t ∧
       (∀ h : HarnessId, s.har[h].power = true → s.har[h].live = true → t.har[h].hstate = .safe ∧ t.har[h].win = 0 ∧ t.har[h].phase = 0)) ∧
     (s.pwr.phase ≠ .walk → exec .walkExit s = .next s) ∧
     (s.pwr.phase = .walk → Goes .walkExit s fun t =>
       t.pwr = { s.pwr with phase := .wakePll } ∧ t.dbg = { s.dbg with walkDone := true } ∧ Latched 197 t ∧ Within [.pwr, .dbg, .irq] s t))) ∧
  (∀ (e : EngineId) (tid : Tid) (s : State), s.tapOn = true → s.fsh.dbgLock = false →
    (let k := s.thr[tid]
     let on (j : Tid) : Prop := s.thr[j].st ≠ .free ∧ s.thr[j].st ≠ .stopped ∧ slotEng s.thr[j].slot = e
     (Goes (.haltEng e) s fun t => t.eng[e] = { s.eng[e] with halted := true, cause := 1 } ∧ (∀ j, j ≠ e → t.eng[j] = s.eng[j]) ∧
       (∀ j, on j → t.thr[j].st = (if s.thr[j].st = .ready ∨ s.thr[j].st = .wait then .halt else s.thr[j].st) ∧ t.thr[j].ctx = s.thr[j].ctx) ∧
       (∀ j, ¬ on j → t.thr[j] = s.thr[j]) ∧ Within [.eng, .thr] s t) ∧
     (Goes (.resumeEng e) s fun t => t.eng[e].halted = false ∧ t.eng[e].retired = s.eng[e].retired ∧ (∀ j, j ≠ e → t.eng[j] = s.eng[j]) ∧
       (∀ j, on j → s.thr[j].st = .halt → s.thr[j].haltReq = false → s.thr[j].waiting = false →
         t.thr[j].st = .ready ∧ t.thr[j].bpSkip = true ∧ t.thr[j].ctx = s.thr[j].ctx) ∧
       (∀ j, on j → s.thr[j].st = .halt → s.thr[j].haltReq = true → s.thr[j].stepping = false → t.thr[j] = s.thr[j]) ∧
       (∀ j, (¬ on j ∨ s.thr[j].st ≠ .halt) → t.thr[j] = s.thr[j]) ∧ Within [.eng, .thr] s t) ∧
     ((k.st = .free ∨ k.st = .stopped) → exec (.haltT tid) s = .next s) ∧
     (k.st ≠ .free → k.st ≠ .stopped → Goes (.haltT tid) s fun t =>
       t.thr[tid] = { k with haltReq := true, stepping := false, st := if k.st = .ready ∨ k.st = .wait then .halt else k.st } ∧
       t.eng[slotEng k.slot].cause = 1 ∧ OthersSame tid s t ∧ Within [.eng, .thr] s t) ∧
     (k.st ≠ .halt → exec (.resumeT tid) s = .next { s with thr := vmod s.thr tid fun k => { k with haltReq := false, stepping := false } }) ∧
     (k.st = .halt → s.eng[slotEng k.slot].halted = true → exec (.resumeT tid) s =
       .next { s with thr := vmod s.thr tid fun k => { k with haltReq := false, stepping := false } }) ∧
     (k.st = .halt → s.eng[slotEng k.slot].halted = false → k.waiting = false → Goes (.resumeT tid) s fun t =>
       t.thr[tid] = { k with haltReq := false, stepping := false, bpSkip := true, st := .ready, busy := t.thr[tid].busy } ∧
       OthersSame tid s t ∧ Within [.eng, .thr] s t) ∧
     ((k.st ≠ .halt ∨ s.engClock = false) → exec (.stepT tid) s = .next s) ∧
     (k.st = .halt → s.engClock = true → k.waiting = true → k.evq = [] → exec (.stepT tid) s =
       .next { s with thr := vmod s.thr tid fun k => { k with stepping := true, st := .wait } }) ∧
     (∀ w i, k.st = .halt → s.engClock = true → k.waiting = false → wordAt s tid = some w → decodeGroom tid w = some i → exec (.stepT tid) s =
       exec i { s with thr := vmod s.thr tid fun k => { k with stepping := true, bpSkip := true, st := .ready } })))

/-! ### Encodings and memories -/

/-- An engine instruction decodes from its word, and a word that decodes is that instruction's (07_microcode.md, R184,
R185). For every thread and every instruction of the groom engines that is well formed, with every operand field at
every value, decoding the word that its encoding gives yields the instruction; and every word that decodes does so to a
well-formed instruction of that thread whose encoding is the word again, so that no two instructions share a word. -/
def Obligations.GroomWordsRoundTrip : Prop :=
  (∀ (tid : Tid) (i : Instr) (w : W32), groomTid i = some tid → i.wf = true → groomWord i = some w → decodeGroom tid w = some i) ∧
  (∀ (tid : Tid) (i : Instr) (w : W32), decodeGroom tid w = some i → groomTid i = some tid ∧ i.wf = true ∧ groomWord i = some w)

/-- Every step keeps every addressed memory in its canonical form (00_scope.md; log entry 5). In every state in which the
basin memory, the calibration and tag areas, the mailboxes, the staging and patch buffers, the firmware's memories and
every thread's local and every program's shared memory list rising addresses and no byte that an unlisted address reads
as, a step that goes on leads to such a state again; so equal memories are equal data in every run. The canonical form
is the model's own (DESIGN CHOICE, log entry 5). -/
def Obligations.EveryStepKeepsMemoriesCanonical : Prop :=
  ∀ s t : State, State.memWf s = true → step s = .next t → State.memWf t = true
end

