-- ==== Sys2Proof/Laws/Bits.lean ====
section
/-! SUPPORT. Reading a bit after one was set. -/

namespace Sys2Proof.Machine

theorem bit_setBit {w : Nat} (v : BitVec w) (i j : Nat) (b : Bool) (h : i < w) :
    bit (setBit v i b) j = if j = i then b else bit v j := by
  unfold bit setBit
  cases b
  · by_cases hj : j = i
    · subst hj; simp [h]
    · by_cases hw : j < w
      · have : (1#w <<< i).getLsbD j = false := by
          simp [hw]; omega
        simp only [cond_false, BitVec.getLsbD_and, BitVec.getLsbD_not, this, hw, decide_true, Bool.not_false, Bool.and_true, if_neg hj]
      · simp [hj, BitVec.getLsbD_of_ge _ _ (Nat.le_of_not_lt hw)]
  · by_cases hj : j = i
    · subst hj; simp [h]
    · have : (1#w <<< i).getLsbD j = false := by
        simp [BitVec.getLsbD_shiftLeft, BitVec.getLsbD_one]; omega
      simp [this, hj]

theorem bit_setBit_same {w : Nat} (v : BitVec w) (i : Nat) (b : Bool) (h : i < w) : bit (setBit v i b) i = b := by
  rw [bit_setBit v i i b h, if_pos rfl]

theorem bit_setBit_other {w : Nat} (v : BitVec w) (i j : Nat) (b : Bool) (h : i < w) (e : j ≠ i) : bit (setBit v i b) j = bit v j := by
  rw [bit_setBit v i j b h, if_neg e]

end Sys2Proof.Machine
end

