-- ==== Sys2Proof/Laws/Exec.lean ====
section
/-! SUPPORT. Each arm of `exec`, one by one: what a proof about one command cites in place of unfolding all of them. -/

namespace Sys2Proof.Machine

theorem exec_spreadTakesEffect (t : Instant) (s : State) :
    exec (.spreadTakesEffect t) s = execSpreadTakesEffect t s := rfl
theorem exec_tideErrorMeasurement (t : Instant) (trc : Bool) (dtTicks : W64) (s : State) :
    exec (.tideErrorMeasurement t trc dtTicks) s = execTideErrorMeasurement t trc dtTicks s := rfl
theorem exec_tidePairRefresh (t : Instant) (tide : TideCnt) (s : State) :
    exec (.tidePairRefresh t tide) s = execTidePairRefresh t tide s := rfl
theorem exec_tideCrystalStop (t : Instant) (tide : TideCnt) (s : State) :
    exec (.tideCrystalStop t tide) s = execTideCrystalStop t tide s := rfl
theorem exec_tideReturnToCrystal (t : Instant) (tide : TideCnt) (s : State) :
    exec (.tideReturnToCrystal t tide) s = execTideReturnToCrystal t tide s := rfl
theorem exec_trcFail (t : Instant) (s : State) :
    exec (.trcFail t) s = execTrcFail t s := rfl
theorem exec_tideAlarm (t : Instant) (tide : TideCnt) (s : State) :
    exec (.tideAlarm t tide) s = execTideAlarm t tide s := rfl
theorem exec_talarmWrite (hi : Bool) (v : W32) (s : State) :
    exec (.talarmWrite hi v) s = execTalarmWrite hi v s := rfl
theorem exec_xtalFail (t : Instant) (s : State) :
    exec (.xtalFail t) s = execXtalFail t s := rfl
theorem exec_pllRelocked (t : Instant) (tide : TideCnt) (s : State) :
    exec (.pllRelocked t tide) s = execPllRelocked t tide s := rfl
theorem exec_disciplineWindow (t : Instant) (m : W32) (s : State) :
    exec (.disciplineWindow t m) s = execDisciplineWindow t m s := rfl
theorem exec_xtalRestore (t : Instant) (s : State) :
    exec (.xtalRestore t) s = execXtalRestore t s := rfl
theorem exec_pllUnlock (t : Instant) (s : State) :
    exec (.pllUnlock t) s = execPllUnlock t s := rfl
theorem exec_pllUnlockTimeout (t : Instant) (s : State) :
    exec (.pllUnlockTimeout t) s = execPllUnlockTimeout t s := rfl
theorem exec_epochZero (s : State) :
    exec (.epochZero) s = execEpochZero s := rfl
theorem exec_sleepEntryBegin (csnHigh : Bool) (s : State) :
    exec (.sleepEntryBegin csnHigh) s = execSleepEntryBegin csnHigh s := rfl
theorem exec_sleepTideLatch (t : Instant) (tide : TideCnt) (s : State) :
    exec (.sleepTideLatch t tide) s = execSleepTideLatch t tide s := rfl
theorem exec_wakeLatchSet (which : Fin 11) (rise : Bool) (s : State) :
    exec (.wakeLatchSet which rise) s = execWakeLatchSet which rise s := rfl
theorem exec_wakePllLock (s : State) :
    exec (.wakePllLock) s = execWakePllLock s := rfl
theorem exec_wakeReseed (tide : TideCnt) (s : State) :
    exec (.wakeReseed tide) s = execWakeReseed tide s := rfl
theorem exec_domainClocksRelease (t : Instant) (s : State) :
    exec (.domainClocksRelease t) s = execDomainClocksRelease t s := rfl
theorem exec_loWordLatchRead (addr : W32) (s : State) :
    exec (.loWordLatchRead addr) s = execLoWordLatchRead addr s := rfl
theorem exec_capHiRead (u : UnitId) (fall : Bool) (s : State) :
    exec (.capHiRead u fall) s = execCapHiRead u fall s := rfl
theorem exec_pwRead (u : UnitId) (s : State) :
    exec (.pwRead u) s = execPwRead u s := rfl
theorem exec_rcFieldRead (addr : W32) (inc : BitVec 4) (max : W16) (s : State) :
    exec (.rcFieldRead addr inc max) s = execRcFieldRead addr inc max s := rfl
theorem exec_ratioRead (p : Fin 16) (s : State) :
    exec (.ratioRead p) s = execRatioRead p s := rfl
theorem exec_registerWrite (addr : W32) (v : W32) (hw : W32) (s : State) :
    exec (.registerWrite addr v hw) s = execRegisterWrite addr v hw s := rfl
theorem exec_eventDispatch (t : Instant) (x : Fin 68) (s : State) :
    exec (.eventDispatch t x) s = execEventDispatch t x s := rfl
theorem exec_linkWriteFrame (s : State) :
    exec (.linkWriteFrame) s = execLinkWriteFrame s := rfl
theorem exec_linkFrameCrcFail (t : Instant) (own : Bool) (s : State) :
    exec (.linkFrameCrcFail t own) s = execLinkFrameCrcFail t own s := rfl
theorem exec_faultFrame (t : Instant) (h : HarnessId) (code : Byte) (member : Byte) (sense : BitVec 10) (s : State) :
    exec (.faultFrame t h code member sense) s = execFaultFrame t h code member sense s := rfl
theorem exec_ctrlWrite (u : UnitId) (v : W32) (s : State) :
    exec (.ctrlWrite u v) s = execCtrlWrite u v s := rfl
theorem exec_channelEnable (t : Instant) (u : UnitId) (v : W32) (s : State) :
    exec (.channelEnable t u v) s = execChannelEnable t u v s := rfl
theorem exec_channelDisable (u : UnitId) (v : W32) (s : State) :
    exec (.channelDisable u v) s = execChannelDisable u v s := rfl
theorem exec_cmpLoWrite (u : UnitId) (which : Fin 4) (v : W32) (s : State) :
    exec (.cmpLoWrite u which v) s = execCmpLoWrite u which v s := rfl
theorem exec_cmpHiWrite (u : UnitId) (b : Bool) (v : W16) (s : State) :
    exec (.cmpHiWrite u b v) s = execCmpHiWrite u b v s := rfl
theorem exec_compareEffective (t : Instant) (u : UnitId) (b : Bool) (s : State) :
    exec (.compareEffective t u b) s = execCompareEffective t u b s := rfl
theorem exec_compareMatch (t : Instant) (u : UnitId) (b : Bool) (s : State) :
    exec (.compareMatch t u b) s = execCompareMatch t u b s := rfl
theorem exec_localMatch (t : Instant) (u : UnitId) (b : Bool) (down : Bool) (s : State) :
    exec (.localMatch t u b down) s = execLocalMatch t u b down s := rfl
theorem exec_periodBoundary (t : Instant) (u : UnitId) (s : State) :
    exec (.periodBoundary t u) s = execPeriodBoundary t u s := rfl
theorem exec_shadowWrite (u : UnitId) (which : Fin 3) (v : W32) (s : State) :
    exec (.shadowWrite u which v) s = execShadowWrite u which v s := rfl
theorem exec_disarmA (u : UnitId) (s : State) :
    exec (.disarmA u) s = execDisarmA u s := rfl
theorem exec_disarmB (u : UnitId) (s : State) :
    exec (.disarmB u) s = execDisarmB u s := rfl
theorem exec_forceHigh (u : UnitId) (s : State) :
    exec (.forceHigh u) s = execForceHigh u s := rfl
theorem exec_forceLow (u : UnitId) (s : State) :
    exec (.forceLow u) s = execForceLow u s := rfl
theorem exec_forceSafe (u : UnitId) (s : State) :
    exec (.forceSafe u) s = execForceSafe u s := rfl
theorem exec_inputEdge (t : Instant) (u : UnitId) (level : Bool) (z : Bool) (s : State) :
    exec (.inputEdge t u level z) s = execInputEdge t u level z s := rfl
theorem exec_filterAccept (t : Instant) (u : UnitId) (s : State) :
    exec (.filterAccept t u) s = execFilterAccept t u s := rfl
theorem exec_engineDoze (e : EngineId) (s : State) :
    exec (.engineDoze e) s = execEngineDoze e s := rfl
theorem exec_budgetOverrun (tid : Tid) (cycles : W32) (s : State) :
    exec (.budgetOverrun tid cycles) s = execBudgetOverrun tid cycles s := rfl
theorem exec_pageFillComplete (p : ProgId) (page : BitVec 12) (words : List W32) (s : State) :
    exec (.pageFillComplete p page words) s = execPageFillComplete p page words s := rfl
theorem exec_prefetchComplete (p : ProgId) (page : BitVec 12) (words : List W32) (s : State) :
    exec (.prefetchComplete p page words) s = execPrefetchComplete p page words s := rfl
theorem exec_basinPost (b : BasinId) (r : Rec) (s : State) :
    exec (.basinPost b r) s = execBasinPost b r s := rfl
theorem exec_basinAgeExpiry (t : Instant) (b : BasinId) (s : State) :
    exec (.basinAgeExpiry t b) s = execBasinAgeExpiry t b s := rfl
theorem exec_rdCntWrite (b : BasinId) (v : W32) (s : State) :
    exec (.rdCntWrite b v) s = execRdCntWrite b v s := rfl
theorem exec_threadTimerMatch (t : Instant) (tid : Tid) (s : State) :
    exec (.threadTimerMatch t tid) s = execThreadTimerMatch t tid s := rfl
theorem exec_engineFault (t : Instant) (e : EngineId) (pc : W32) (s : State) :
    exec (.engineFault t e pc) s = execEngineFault t e pc s := rfl
theorem exec_spillwayCommit (t : Instant) (s : State) :
    exec (.spillwayCommit t) s = execSpillwayCommit t s := rfl
theorem exec_spillwayExpiry (t : Instant) (i : Fin 256) (s : State) :
    exec (.spillwayExpiry t i) s = execSpillwayExpiry t i s := rfl
theorem exec_add (tid : Tid) (o : ROps) (s : State) :
    exec (.add tid o) s = execAdd tid o s := rfl
theorem exec_sub (tid : Tid) (o : ROps) (s : State) :
    exec (.sub tid o) s = execSub tid o s := rfl
theorem exec_and (tid : Tid) (o : ROps) (s : State) :
    exec (.and tid o) s = execAnd tid o s := rfl
theorem exec_or (tid : Tid) (o : ROps) (s : State) :
    exec (.or tid o) s = execOr tid o s := rfl
theorem exec_xor (tid : Tid) (o : ROps) (s : State) :
    exec (.xor tid o) s = execXor tid o s := rfl
theorem exec_shl (tid : Tid) (o : ROps) (s : State) :
    exec (.shl tid o) s = execShl tid o s := rfl
theorem exec_shr (tid : Tid) (o : ROps) (s : State) :
    exec (.shr tid o) s = execShr tid o s := rfl
theorem exec_sar (tid : Tid) (o : ROps) (s : State) :
    exec (.sar tid o) s = execSar tid o s := rfl
theorem exec_min (tid : Tid) (o : ROps) (s : State) :
    exec (.min tid o) s = execMin tid o s := rfl
theorem exec_max (tid : Tid) (o : ROps) (s : State) :
    exec (.max tid o) s = execMax tid o s := rfl
theorem exec_cmp (tid : Tid) (o : ROps) (s : State) :
    exec (.cmp tid o) s = execCmp tid o s := rfl
theorem exec_tadd (tid : Tid) (o : ROps) (s : State) :
    exec (.tadd tid o) s = execTadd tid o s := rfl
theorem exec_tsub (tid : Tid) (o : ROps) (s : State) :
    exec (.tsub tid o) s = execTsub tid o s := rfl
theorem exec_mul (tid : Tid) (o : ROps) (s : State) :
    exec (.mul tid o) s = execMul tid o s := rfl
theorem exec_divu (tid : Tid) (o : ROps) (s : State) :
    exec (.divu tid o) s = execDivu tid o s := rfl
theorem exec_remu (tid : Tid) (o : ROps) (s : State) :
    exec (.remu tid o) s = execRemu tid o s := rfl
theorem exec_addi (tid : Tid) (o : IOps) (s : State) :
    exec (.addi tid o) s = execAddi tid o s := rfl
theorem exec_andi (tid : Tid) (o : IOps) (s : State) :
    exec (.andi tid o) s = execAndi tid o s := rfl
theorem exec_ori (tid : Tid) (o : IOps) (s : State) :
    exec (.ori tid o) s = execOri tid o s := rfl
theorem exec_xori (tid : Tid) (o : IOps) (s : State) :
    exec (.xori tid o) s = execXori tid o s := rfl
theorem exec_shli (tid : Tid) (o : IOps) (s : State) :
    exec (.shli tid o) s = execShli tid o s := rfl
theorem exec_shri (tid : Tid) (o : IOps) (s : State) :
    exec (.shri tid o) s = execShri tid o s := rfl
theorem exec_sari (tid : Tid) (o : IOps) (s : State) :
    exec (.sari tid o) s = execSari tid o s := rfl
theorem exec_cmpi (tid : Tid) (o : IOps) (s : State) :
    exec (.cmpi tid o) s = execCmpi tid o s := rfl
theorem exec_movi (tid : Tid) (o : IOps) (s : State) :
    exec (.movi tid o) s = execMovi tid o s := rfl
theorem exec_ldw (tid : Tid) (o : IOps) (s : State) :
    exec (.ldw tid o) s = execLdw tid o s := rfl
theorem exec_ldd (tid : Tid) (o : IOps) (s : State) :
    exec (.ldd tid o) s = execLdd tid o s := rfl
theorem exec_stw (tid : Tid) (o : IOps) (s : State) :
    exec (.stw tid o) s = execStw tid o s := rfl
theorem exec_std (tid : Tid) (o : IOps) (s : State) :
    exec (.std tid o) s = execStd tid o s := rfl
theorem exec_fadd (tid : Tid) (o : ROps) (s : State) :
    exec (.fadd tid o) s = execFadd tid o s := rfl
theorem exec_swap (tid : Tid) (o : ROps) (s : State) :
    exec (.swap tid o) s = execSwap tid o s := rfl
theorem exec_bcond (tid : Tid) (o : BOps) (s : State) :
    exec (.bcond tid o) s = execBcond tid o s := rfl
theorem exec_call (tid : Tid) (o : JOps) (s : State) :
    exec (.call tid o) s = execCall tid o s := rfl
theorem exec_jr (tid : Tid) (o : ROps) (s : State) :
    exec (.jr tid o) s = execJr tid o s := rfl
theorem exec_wait (tid : Tid) (o : SOps) (s : State) :
    exec (.wait tid o) s = execWait tid o s := rfl
theorem exec_lsn (tid : Tid) (o : SOps) (s : State) :
    exec (.lsn tid o) s = execLsn tid o s := rfl
theorem exec_ulsn (tid : Tid) (o : SOps) (s : State) :
    exec (.ulsn tid o) s = execUlsn tid o s := rfl
theorem exec_timer (tid : Tid) (o : SOps) (s : State) :
    exec (.timer tid o) s = execTimer tid o s := rfl
theorem exec_timerx (tid : Tid) (o : SOps) (s : State) :
    exec (.timerx tid o) s = execTimerx tid o s := rfl
theorem exec_now (tid : Tid) (o : SOps) (s : State) :
    exec (.now tid o) s = execNow tid o s := rfl
theorem exec_sig (tid : Tid) (o : SOps) (s : State) :
    exec (.sig tid o) s = execSig tid o s := rfl
theorem exec_dbf (tid : Tid) (o : SOps) (s : State) :
    exec (.dbf tid o) s = execDbf tid o s := rfl
theorem exec_attn (tid : Tid) (o : SOps) (s : State) :
    exec (.attn tid o) s = execAttn tid o s := rfl
theorem exec_mfs (tid : Tid) (o : SOps) (s : State) :
    exec (.mfs tid o) s = execMfs tid o s := rfl
theorem exec_trap (tid : Tid) (o : SOps) (s : State) :
    exec (.trap tid o) s = execTrap tid o s := rfl
theorem exec_carm (tid : Tid) (o : SOps) (s : State) :
    exec (.carm tid o) s = execCarm tid o s := rfl
theorem exec_cshd (tid : Tid) (o : SOps) (s : State) :
    exec (.cshd tid o) s = execCshd tid o s := rfl
theorem exec_cdis (tid : Tid) (o : SOps) (s : State) :
    exec (.cdis tid o) s = execCdis tid o s := rfl
theorem exec_cfrc (tid : Tid) (o : SOps) (s : State) :
    exec (.cfrc tid o) s = execCfrc tid o s := rfl
theorem exec_clock (tid : Tid) (o : SOps) (s : State) :
    exec (.clock tid o) s = execClock tid o s := rfl
theorem exec_ccap (tid : Tid) (o : SOps) (s : State) :
    exec (.ccap tid o) s = execCcap tid o s := rfl
theorem exec_hact (tid : Tid) (o : SOps) (s : State) :
    exec (.hact tid o) s = execHact tid o s := rfl
theorem exec_bpost (tid : Tid) (o : SOps) (s : State) :
    exec (.bpost tid o) s = execBpost tid o s := rfl
theorem exec_bread (tid : Tid) (o : SOps) (s : State) :
    exec (.bread tid o) s = execBread tid o s := rfl
theorem exec_back (tid : Tid) (o : SOps) (s : State) :
    exec (.back tid o) s = execBack tid o s := rfl
theorem exec_spw (tid : Tid) (o : SOps) (s : State) :
    exec (.spw tid o) s = execSpw tid o s := rfl
theorem exec_spc (tid : Tid) (o : SOps) (s : State) :
    exec (.spc tid o) s = execSpc tid o s := rfl
theorem exec_spx (tid : Tid) (o : SOps) (s : State) :
    exec (.spx tid o) s = execSpx tid o s := rfl
theorem exec_aconv (tid : Tid) (o : SOps) (s : State) :
    exec (.aconv tid o) s = execAconv tid o s := rfl
theorem exec_tper (tid : Tid) (o : SOps) (s : State) :
    exec (.tper tid o) s = execTper tid o s := rfl
theorem exec_tlast (tid : Tid) (o : SOps) (s : State) :
    exec (.tlast tid o) s = execTlast tid o s := rfl
theorem exec_harnessCommit (h : HarnessId) (s : State) :
    exec (.harnessCommit h) s = execHarnessCommit h s := rfl
theorem exec_harnessSafe (h : HarnessId) (s : State) :
    exec (.harnessSafe h) s = execHarnessSafe h s := rfl
theorem exec_harnessResume (h : HarnessId) (s : State) :
    exec (.harnessResume h) s = execHarnessResume h s := rfl
theorem exec_harnessPhase (h : HarnessId) (phases : BitVec 9) (s : State) :
    exec (.harnessPhase h phases) s = execHarnessPhase h phases s := rfl
theorem exec_harnessLevels (h : HarnessId) (levels : BitVec 28) (s : State) :
    exec (.harnessLevels h levels) s = execHarnessLevels h levels s := rfl
theorem exec_timedActionApply (t : Instant) (h : HarnessId) (s : State) :
    exec (.timedActionApply t h) s = execTimedActionApply t h s := rfl
theorem exec_peakEnd (t : Instant) (h : HarnessId) (m : Fin 4) (sense : Byte) (s : State) :
    exec (.peakEnd t h m sense) s = execPeakEnd t h m sense s := rfl
theorem exec_peakTimeout (t : Instant) (h : HarnessId) (m : Fin 4) (sense : Byte) (s : State) :
    exec (.peakTimeout t h m sense) s = execPeakTimeout t h m sense s := rfl
theorem exec_holdSwitchOff (t : Instant) (h : HarnessId) (m : Fin 4) (sense : Byte) (s : State) :
    exec (.holdSwitchOff t h m sense) s = execHoldSwitchOff t h m sense s := rfl
theorem exec_holdSwitchOn (t : Instant) (h : HarnessId) (m : Fin 4) (sense : Byte) (s : State) :
    exec (.holdSwitchOn t h m sense) s = execHoldSwitchOn t h m sense s := rfl
theorem exec_regulationHandover (t : Instant) (h : HarnessId) (s : State) :
    exec (.regulationHandover t h) s = execRegulationHandover t h s := rfl
theorem exec_deferCancel (t : Instant) (h : HarnessId) (m : Fin 4) (s : State) :
    exec (.deferCancel t h m) s = execDeferCancel t h m s := rfl
theorem exec_bankDeferReport (h : HarnessId) (m : Fin 4) (start : EvTime) (cycles : BitVec 24) (s : State) :
    exec (.bankDeferReport h m start cycles) s = execBankDeferReport h m start cycles s := rfl
theorem exec_deadtimeEnd (t : Instant) (h : HarnessId) (phase : Fin 3) (s : State) :
    exec (.deadtimeEnd t h phase) s = execDeadtimeEnd t h phase s := rfl
theorem exec_powerFaultCut (t : Instant) (h : HarnessId) (code : Byte) (member : Byte) (sense : BitVec 10) (mv : W16) (s : State) :
    exec (.powerFaultCut t h code member sense mv) s = execPowerFaultCut t h code member sense mv s := rfl
theorem exec_linkSilence (s : State) :
    exec (.linkSilence) s = execLinkSilence s := rfl
theorem exec_chargePumpReady (t : Instant) (s : State) :
    exec (.chargePumpReady t) s = execChargePumpReady t s := rfl
theorem exec_chargePumpTimeout (t : Instant) (mv : W32) (s : State) :
    exec (.chargePumpTimeout t mv) s = execChargePumpTimeout t mv s := rfl
theorem exec_cpUndervoltage (t : Instant) (s : State) :
    exec (.cpUndervoltage t) s = execCpUndervoltage t s := rfl
theorem exec_catchWindowEnd (t : Instant) (h : HarnessId) (s : State) :
    exec (.catchWindowEnd t h) s = execCatchWindowEnd t h s := rfl
theorem exec_alignEnd (t : Instant) (h : HarnessId) (s : State) :
    exec (.alignEnd t h) s = execAlignEnd t h s := rfl
theorem exec_noSyncTimeout (t : Instant) (h : HarnessId) (s : State) :
    exec (.noSyncTimeout t h) s = execNoSyncTimeout t h s := rfl
theorem exec_commutationBlankingEnd (t : Instant) (h : HarnessId) (s : State) :
    exec (.commutationBlankingEnd t h) s = execCommutationBlankingEnd t h s := rfl
theorem exec_brakePeek (t : Instant) (h : HarnessId) (s : State) :
    exec (.brakePeek t h) s = execBrakePeek t h s := rfl
theorem exec_brakeTimeout (t : Instant) (h : HarnessId) (s : State) :
    exec (.brakeTimeout t h) s = execBrakeTimeout t h s := rfl
theorem exec_axisStepCounted (t : Instant) (h : HarnessId) (s : State) :
    exec (.axisStepCounted t h) s = execAxisStepCounted t h s := rfl
theorem exec_gaitEdge (n : Fin 2) (s : State) :
    exec (.gaitEdge n) s = execGaitEdge n s := rfl
theorem exec_gaitDeadline (t : Instant) (n : Fin 2) (s : State) :
    exec (.gaitDeadline t n) s = execGaitDeadline t n s := rfl
theorem exec_gaitStall (t : Instant) (n : Fin 2) (s : State) :
    exec (.gaitStall t n) s = execGaitStall t n s := rfl
theorem exec_probeStart (c : Fin 2) (s : State) :
    exec (.probeStart c) s = execProbeStart c s := rfl
theorem exec_chargeDone (t : Instant) (c : Fin 2) (s : State) :
    exec (.chargeDone t c) s = execChargeDone t c s := rfl
theorem exec_dischargeTrip (t : Instant) (c : Fin 2) (s : State) :
    exec (.dischargeTrip t c) s = execDischargeTrip t c s := rfl
theorem exec_dischargeTimeout (t : Instant) (c : Fin 2) (s : State) :
    exec (.dischargeTimeout t c) s = execDischargeTimeout t c s := rfl
theorem exec_probeSlotComplete (p : Fin 16) (s : State) :
    exec (.probeSlotComplete p) s = execProbeSlotComplete p s := rfl
theorem exec_measIntervalBoundary (t : Instant) (s : State) :
    exec (.measIntervalBoundary t) s = execMeasIntervalBoundary t s := rfl
theorem exec_decommissionErase (s : State) :
    exec (.decommissionErase) s = execDecommissionErase s := rfl
theorem exec_statusFrame (sdi : List Byte) (bad : Bool) (s : State) :
    exec (.statusFrame sdi bad) s = execStatusFrame sdi bad s := rfl
theorem exec_statusPeek (sdi : List Byte) (s : State) :
    exec (.statusPeek sdi) s = execStatusPeek sdi s := rfl
theorem exec_readFrame (sdi : List Byte) (bad : Bool) (s : State) :
    exec (.readFrame sdi bad) s = execReadFrame sdi bad s := rfl
theorem exec_writeFrame (sdi : List Byte) (bad : Bool) (s : State) :
    exec (.writeFrame sdi bad) s = execWriteFrame sdi bad s := rfl
theorem exec_writeApply (s : State) :
    exec (.writeApply) s = execWriteApply s := rfl
theorem exec_claimFrame (sdi : List Byte) (bad : Bool) (s : State) :
    exec (.claimFrame sdi bad) s = execClaimFrame sdi bad s := rfl
theorem exec_completeFrame (sdi : List Byte) (bad : Bool) (s : State) :
    exec (.completeFrame sdi bad) s = execCompleteFrame sdi bad s := rfl
theorem exec_doorbellFrame (sdi : List Byte) (bad : Bool) (s : State) :
    exec (.doorbellFrame sdi bad) s = execDoorbellFrame sdi bad s := rfl
theorem exec_replyRelease (mask : Byte) (s : State) :
    exec (.replyRelease mask) s = execReplyRelease mask s := rfl
theorem exec_farrierTakeRequest (s : State) :
    exec (.farrierTakeRequest) s = execFarrierTakeRequest s := rfl
theorem exec_hostWatchdogExpiry (t : Instant) (s : State) :
    exec (.hostWatchdogExpiry t) s = execHostWatchdogExpiry t s := rfl
theorem exec_hwdToWrite (v : W32) (s : State) :
    exec (.hwdToWrite v) s = execHwdToWrite v s := rfl
theorem exec_hostLostClear (s : State) :
    exec (.hostLostClear) s = execHostLostClear s := rfl
theorem exec_muster (t : Instant) (s : State) :
    exec (.muster t) s = execMuster t s := rfl
theorem exec_nop (q : Req) (s : State) :
    exec (.nop q) s = execNop q s := rfl
theorem exec_identity (q : Req) (s : State) :
    exec (.identity q) s = execIdentity q s := rfl
theorem exec_state (q : Req) (s : State) :
    exec (.state q) s = execState q s := rfl
theorem exec_sleep (q : Req) (st : Byte) (flags : Byte) (mask : W16) (park : W32) (s : State) :
    exec (.sleep q st flags mask park) s = execSleep q st flags mask park s := rfl
theorem exec_reset (q : Req) (word : W16) (s : State) :
    exec (.reset q word) s = execReset q word s := rfl
theorem exec_resetReplyTimeout (t : Instant) (s : State) :
    exec (.resetReplyTimeout t) s = execResetReplyTimeout t s := rfl
theorem exec_causeClear (q : Req) (bits : Byte) (s : State) :
    exec (.causeClear q bits) s = execCauseClear q bits s := rfl
theorem exec_progMsg (q : Req) (max : Byte) (s : State) :
    exec (.progMsg q max) s = execProgMsg q max s := rfl
theorem exec_timeGet (q : Req) (s : State) :
    exec (.timeGet q) s = execTimeGet q s := rfl
theorem exec_spread (q : Req) (setting : Byte) (s : State) :
    exec (.spread q setting) s = execSpread q setting s := rfl
theorem exec_anchor (q : Req) (secs : W32) (ms : W16) (source : Byte) (reserved : Byte) (unc : W16) (s : State) :
    exec (.anchor q secs ms source reserved unc) s = execAnchor q secs ms source reserved unc s := rfl
theorem exec_drift (q : Req) (source : Byte) (reserved : BitVec 24) (ppm : W32) (s : State) :
    exec (.drift q source reserved ppm) s = execDrift q source reserved ppm s := rfl
theorem exec_newEpoch (q : Req) (word : W16) (s : State) :
    exec (.newEpoch q word) s = execNewEpoch q word s := rfl
theorem exec_chOpen (q : Req) (lch : Byte) (reserved : BitVec 24) (ctrl : W32) (act : W32) (prd : W32) (cnt : W32) (s : State) :
    exec (.chOpen q lch reserved ctrl act prd cnt) s = execChOpen q lch reserved ctrl act prd cnt s := rfl
theorem exec_chClose (q : Req) (lch : Byte) (s : State) :
    exec (.chClose q lch) s = execChClose q lch s := rfl
theorem exec_chCfg (q : Req) (lch : Byte) (reserved : BitVec 24) (ctrl : W32) (act : W32) (s : State) :
    exec (.chCfg q lch reserved ctrl act) s = execChCfg q lch reserved ctrl act s := rfl
theorem exec_chWrite (q : Req) (lch : Byte) (reg : Byte) (flags : Byte) (reserved : Byte) (value : EvTime) (s : State) :
    exec (.chWrite q lch reg flags reserved value) s = execChWrite q lch reg flags reserved value s := rfl
theorem exec_chCtl (q : Req) (lch : Byte) (op : Byte) (s : State) :
    exec (.chCtl q lch op) s = execChCtl q lch op s := rfl
theorem exec_chRead (q : Req) (lch : Byte) (flags : Byte) (s : State) :
    exec (.chRead q lch flags) s = execChRead q lch flags s := rfl
theorem exec_tioSet (q : Req) (pin : Byte) (outSel : Byte) (flags : Byte) (s : State) :
    exec (.tioSet q pin outSel flags) s = execTioSet q pin outSel flags s := rfl
theorem exec_hOpen (q : Req) (h : Byte) (kind : Byte) (hsd : Byte) (reserved : Byte) (mch : W32) (grp : W64) (mls : W16) (s : State) :
    exec (.hOpen q h kind hsd reserved mch grp mls) s = execHOpen q h kind hsd reserved mch grp mls s := rfl
theorem exec_hClose (q : Req) (h : Byte) (s : State) :
    exec (.hClose q h) s = execHClose q h s := rfl
theorem exec_hCfg (q : Req) (h : Byte) (sec : Byte) (reserved : W16) (w0 : W32) (w1 : W32) (w2 : W32) (s : State) :
    exec (.hCfg q h sec reserved w0 w1 w2) s = execHCfg q h sec reserved w0 w1 w2 s := rfl
theorem exec_hAct (q : Req) (h : Byte) (reserved : BitVec 24) (word : W32) (s : State) :
    exec (.hAct q h reserved word) s = execHAct q h reserved word s := rfl
theorem exec_hStatus (q : Req) (h : Byte) (s : State) :
    exec (.hStatus q h) s = execHStatus q h s := rfl
theorem exec_hClear (q : Req) (h : Byte) (reserved : BitVec 24) (mask : W32) (s : State) :
    exec (.hClear q h reserved mask) s = execHClear q h reserved mask s := rfl
theorem exec_hRide (q : Req) (h : Byte) (v : Byte) (s : State) :
    exec (.hRide q h v) s = execHRide q h v s := rfl
theorem exec_progUpload (q : Req) (off : W32) (data : List Byte) (s : State) :
    exec (.progUpload q off data) s = execProgUpload q off data s := rfl
theorem exec_progOpen (q : Req) (source : Byte) (res1 : BitVec 24) (off : W32) (chMask : W64) (hMask : W16) (res2 : W16) (bMask : W64) (s : State) :
    exec (.progOpen q source res1 off chMask hMask res2 bMask) s = execProgOpen q source res1 off chMask hMask res2 bMask s := rfl
theorem exec_progClose (q : Req) (p : Byte) (s : State) :
    exec (.progClose q p) s = execProgClose q p s := rfl
theorem exec_progDoorbell (q : Req) (p : Byte) (idx : Byte) (reserved : W16) (word : W32) (s : State) :
    exec (.progDoorbell q p idx reserved word) s = execProgDoorbell q p idx reserved word s := rfl
theorem exec_threadInfo (q : Req) (tid : Byte) (s : State) :
    exec (.threadInfo q tid) s = execThreadInfo q tid s := rfl
theorem exec_headroom (q : Req) (v : W16) (s : State) :
    exec (.headroom q v) s = execHeadroom q v s := rfl
theorem exec_sdWrite (q : Req) (p : Byte) (reserved : Byte) (off : W16) (data : List Byte) (s : State) :
    exec (.sdWrite q p reserved off data) s = execSdWrite q p reserved off data s := rfl
theorem exec_sdRead (q : Req) (p : Byte) (reserved : Byte) (off : W16) (len : Byte) (s : State) :
    exec (.sdRead q p reserved off len) s = execSdRead q p reserved off len s := rfl
theorem exec_gtOpen (q : Req) (n : Byte) (reserved : BitVec 24) (words : Vector W32 11) (s : State) :
    exec (.gtOpen q n reserved words) s = execGtOpen q n reserved words s := rfl
theorem exec_gtTune (q : Req) (n : Byte) (flags : Byte) (missMax : Byte) (reserved : Byte) (noise : W16) (tol : W16) (s : State) :
    exec (.gtTune q n flags missMax reserved noise tol) s = execGtTune q n flags missMax reserved noise tol s := rfl
theorem exec_gtClose (q : Req) (n : Byte) (s : State) :
    exec (.gtClose q n) s = execGtClose q n s := rfl
theorem exec_gtStatus (q : Req) (n : Byte) (s : State) :
    exec (.gtStatus q n) s = execGtStatus q n s := rfl
theorem exec_motOpen (q : Req) (h : Byte) (p : Byte) (s : State) :
    exec (.motOpen q h p) s = execMotOpen q h p s := rfl
theorem exec_motParam (q : Req) (h : Byte) (id : Byte) (reserved : W16) (v : W32) (s : State) :
    exec (.motParam q h id reserved v) s = execMotParam q h id reserved v s := rfl
theorem exec_motStart (q : Req) (h : Byte) (s : State) :
    exec (.motStart q h) s = execMotStart q h s := rfl
theorem exec_motStop (q : Req) (h : Byte) (mode : Byte) (s : State) :
    exec (.motStop q h mode) s = execMotStop q h mode s := rfl
theorem exec_axisMove (q : Req) (h : Byte) (reserved : BitVec 24) (target : W32) (s : State) :
    exec (.axisMove q h reserved target) s = execAxisMove q h reserved target s := rfl
theorem exec_axisHome (q : Req) (h : Byte) (reserved : BitVec 24) (pos : W32) (s : State) :
    exec (.axisHome q h reserved pos) s = execAxisHome q h reserved pos s := rfl
theorem exec_motStatus (q : Req) (h : Byte) (s : State) :
    exec (.motStatus q h) s = execMotStatus q h s := rfl
theorem exec_prbSched (q : Req) (measInt : W32) (c0 : ConvBlk) (c1 : ConvBlk) (topen : W16) (tshort : W16) (s : State) :
    exec (.prbSched q measInt c0 c1 topen tshort) s = execPrbSched q measInt c0 c1 topen tshort s := rfl
theorem exec_prbCoef (q : Req) (p : Byte) (reserved : BitVec 24) (a : W64) (b : W64) (c3 : W64) (off : W32) (s : State) :
    exec (.prbCoef q p reserved a b c3 off) s = execPrbCoef q p reserved a b c3 off s := rfl
theorem exec_prbRead (q : Req) (p : Byte) (s : State) :
    exec (.prbRead q p) s = execPrbRead q p s := rfl
theorem exec_prbStop (q : Req) (s : State) :
    exec (.prbStop q) s = execPrbStop q s := rfl
theorem exec_recRead (q : Req) (flags : Byte) (count : Byte) (epoch : W16) (seq : W32) (s : State) :
    exec (.recRead q flags count epoch seq) s = execRecRead q flags count epoch seq s := rfl
theorem exec_recAck (q : Req) (epoch : W16) (reserved : W16) (seq : W32) (s : State) :
    exec (.recAck q epoch reserved seq) s = execRecAck q epoch reserved seq s := rfl
theorem exec_recEvent (q : Req) (kind : Byte) (source : Byte) (flags : W16) (value : W32) (s : State) :
    exec (.recEvent q kind source flags value) s = execRecEvent q kind source flags value s := rfl
theorem exec_recProvision (q : Req) (key : List Byte) (s : State) :
    exec (.recProvision q key) s = execRecProvision q key s := rfl
theorem exec_recDecommission (q : Req) (word : W16) (s : State) :
    exec (.recDecommission q word) s = execRecDecommission q word s := rfl
theorem exec_recStatus (q : Req) (s : State) :
    exec (.recStatus q) s = execRecStatus q s := rfl
theorem exec_bOpen (q : Req) (b : Byte) (floor : Byte) (ceil : Byte) (policy : Byte) (thresh : W16) (age : Byte) (reserved : Byte) (s : State) :
    exec (.bOpen q b floor ceil policy thresh age reserved) s = execBOpen q b floor ceil policy thresh age reserved s := rfl
theorem exec_bClose (q : Req) (b : Byte) (s : State) :
    exec (.bClose q b) s = execBClose q b s := rfl
theorem exec_bSet (q : Req) (b : Byte) (reserved : Byte) (thresh : W16) (age : Byte) (ceil : Byte) (s : State) :
    exec (.bSet q b reserved thresh age ceil) s = execBSet q b reserved thresh age ceil s := rfl
theorem exec_healthSum (q : Req) (s : State) :
    exec (.healthSum q) s = execHealthSum q s := rfl
theorem exec_healthDet (q : Req) (cls : Byte) (idx : Byte) (s : State) :
    exec (.healthDet q cls idx) s = execHealthDet q cls idx s := rfl
theorem exec_injOpen1 (q : Req) (word : W32) (s : State) :
    exec (.injOpen1 q word) s = execInjOpen1 q word s := rfl
theorem exec_injOpen2 (q : Req) (word : W16) (s : State) :
    exec (.injOpen2 q word) s = execInjOpen2 q word s := rfl
theorem exec_injFire (q : Req) (cls : Byte) (idx : Byte) (reserved : W16) (par : W32) (s : State) :
    exec (.injFire q cls idx reserved par) s = execInjFire q cls idx reserved par s := rfl
theorem exec_injClose (q : Req) (s : State) :
    exec (.injClose q) s = execInjClose q s := rfl
theorem exec_calRead (q : Req) (off : W16) (len : Byte) (s : State) :
    exec (.calRead q off len) s = execCalRead q off len s := rfl
theorem exec_calWrite (q : Req) (off : W16) (len : Byte) (res1 : Byte) (word : W16) (res2 : W16) (data : List Byte) (s : State) :
    exec (.calWrite q off len res1 word res2 data) s = execCalWrite q off len res1 word res2 data s := rfl
theorem exec_calProc (q : Req) (proc : Byte) (s : State) :
    exec (.calProc q proc) s = execCalProc q proc s := rfl
theorem exec_calProcDone (m0 : W32) (m1 : W32) (m2 : W32) (m3 : W32) (s : State) :
    exec (.calProcDone m0 m1 m2 m3) s = execCalProcDone m0 m1 m2 m3 s := rfl
theorem exec_tagRead (q : Req) (lch : Byte) (s : State) :
    exec (.tagRead q lch) s = execTagRead q lch s := rfl
theorem exec_tagWrite (q : Req) (lch : Byte) (sec : Byte) (reserved : W16) (data : List Byte) (s : State) :
    exec (.tagWrite q lch sec reserved data) s = execTagWrite q lch sec reserved data s := rfl
theorem exec_patchData (q : Req) (off : W32) (data : List Byte) (s : State) :
    exec (.patchData q off data) s = execPatchData q off data s := rfl
theorem exec_patchRun (q : Req) (s : State) :
    exec (.patchRun q) s = execPatchRun q s := rfl
theorem exec_bootContinue (q : Req) (s : State) :
    exec (.bootContinue q) s = execBootContinue q s := rfl
theorem exec_claimFRead (eligAtRef : Bool) (s : State) :
    exec (.claimFRead eligAtRef) s = execClaimFRead eligAtRef s := rfl
theorem exec_completeFWrite (id : Byte) (s : State) :
    exec (.completeFWrite id) s = execCompleteFWrite id s := rfl
theorem exec_poReset (s : State) :
    exec (.poReset) s = execPoReset s := rfl
theorem exec_boReset (s : State) :
    exec (.boReset) s = execBoReset s := rfl
theorem exec_pinReset (widthNs : Nat) (s : State) :
    exec (.pinReset widthNs) s = execPinReset widthNs s := rfl
theorem exec_wdgReset (t : Instant) (s : State) :
    exec (.wdgReset t) s = execWdgReset t s := rfl
theorem exec_wdgWarning (t : Instant) (s : State) :
    exec (.wdgWarning t) s = execWdgWarning t s := rfl
theorem exec_wdtService (v : Byte) (s : State) :
    exec (.wdtService v) s = execWdtService v s := rfl
theorem exec_clkReset (s : State) :
    exec (.clkReset) s = execClkReset s := rfl
theorem exec_lockReset (s : State) :
    exec (.lockReset) s = execLockReset s := rfl
theorem exec_swrstWrite (v : W32) (s : State) :
    exec (.swrstWrite v) s = execSwrstWrite v s := rfl
theorem exec_resetRelease (t : Instant) (tide : TideCnt) (xtalOk : Bool) (parity : Bool) (s : State) :
    exec (.resetRelease t tide xtalOk parity) s = execResetRelease t tide xtalOk parity s := rfl
theorem exec_vbatLoss (s : State) :
    exec (.vbatLoss) s = execVbatLoss s := rfl
theorem exec_vbatReturn (s : State) :
    exec (.vbatReturn) s = execVbatReturn s := rfl
theorem exec_reservoirLoss (s : State) :
    exec (.reservoirLoss) s = execReservoirLoss s := rfl
theorem exec_sramScrub (retained : Bool) (errs : List (Byte × BitVec 24 × Bool)) (s : State) :
    exec (.sramScrub retained errs) s = execSramScrub retained errs s := rfl
theorem exec_frameRepairDone (f : Fin 128) (words : List W32) (s : State) :
    exec (.frameRepairDone f words) s = execFrameRepairDone f words s := rfl
theorem exec_monitorSample (t : Instant) (m : MonIn) (s : State) :
    exec (.monitorSample t m) s = execMonitorSample t m s := rfl
theorem exec_unitFailure (t : Instant) (u : UnitId) (chk : BitVec 5) (s : State) :
    exec (.unitFailure t u chk) s = execUnitFailure t u chk s := rfl
theorem exec_migrationResume (t : Instant) (l : Lch) (s : State) :
    exec (.migrationResume t l) s = execMigrationResume t l s := rfl
theorem exec_tapsMeasure (t : Instant) (i : Fin 70) (taps : BitVec 6) (s : State) :
    exec (.tapsMeasure t i taps) s = execTapsMeasure t i taps s := rfl
theorem exec_unitInjWrite (u : UnitId) (v : BitVec 3) (s : State) :
    exec (.unitInjWrite u v) s = execUnitInjWrite u v s := rfl
theorem exec_tapReset (s : State) :
    exec (.tapReset) s = execTapReset s := rfl
theorem exec_extest (s : State) :
    exec (.extest) s = execExtest s := rfl
theorem exec_idcode (s : State) :
    exec (.idcode) s = execIdcode s := rfl
theorem exec_samplePreload (v : BitVec 147) (s : State) :
    exec (.samplePreload v) s = execSamplePreload v s := rfl
theorem exec_clamp (s : State) :
    exec (.clamp) s = execClamp s := rfl
theorem exec_highz (s : State) :
    exec (.highz) s = execHighz s := rfl
theorem exec_bypass (s : State) :
    exec (.bypass) s = execBypass s := rfl
theorem exec_dbgReg (v : BitVec 48) (s : State) :
    exec (.dbgReg v) s = execDbgReg v s := rfl
theorem exec_dbgMem (v : BitVec 66) (s : State) :
    exec (.dbgMem v) s = execDbgMem v s := rfl
theorem exec_dbgMemDone (s : State) :
    exec (.dbgMemDone) s = execDbgMemDone s := rfl
theorem exec_fuse (v : BitVec 24) (s : State) :
    exec (.fuse v) s = execFuse v s := rfl
theorem exec_fuseBlowDone (s : State) :
    exec (.fuseBlowDone) s = execFuseBlowDone s := rfl
theorem exec_haltF (s : State) :
    exec (.haltF) s = execHaltF s := rfl
theorem exec_resumeF (s : State) :
    exec (.resumeF) s = execResumeF s := rfl
theorem exec_stepF (s : State) :
    exec (.stepF) s = execStepF s := rfl
theorem exec_dbgrst (s : State) :
    exec (.dbgrst) s = execDbgrst s := rfl
theorem exec_walkEnter (t : Instant) (tide : TideCnt) (s : State) :
    exec (.walkEnter t tide) s = execWalkEnter t tide s := rfl
theorem exec_walkExit (s : State) :
    exec (.walkExit) s = execWalkExit s := rfl
theorem exec_haltEng (e : EngineId) (s : State) :
    exec (.haltEng e) s = execHaltEng e s := rfl
theorem exec_resumeEng (e : EngineId) (s : State) :
    exec (.resumeEng e) s = execResumeEng e s := rfl
theorem exec_haltT (tid : Tid) (s : State) :
    exec (.haltT tid) s = execHaltT tid s := rfl
theorem exec_resumeT (tid : Tid) (s : State) :
    exec (.resumeT tid) s = execResumeT tid s := rfl
theorem exec_stepT (tid : Tid) (s : State) :
    exec (.stepT tid) s = execStepT tid s := rfl
theorem exec_coarseTideEdge (pads : BitVec 40) (padZ : BitVec 40) (s : State) :
    exec (.coarseTideEdge pads padZ) s = execCoarseTideEdge pads padZ s := rfl
theorem exec_unitRegisterEccCorrection (t : Instant) (u : UnitId) (s : State) :
    exec (.unitRegisterEccCorrection t u) s = execUnitRegisterEccCorrection t u s := rfl
theorem exec_correctedErrorWindowEnd (t : Instant) (s : State) :
    exec (.correctedErrorWindowEnd t) s = execCorrectedErrorWindowEnd t s := rfl

end Sys2Proof.Machine
end

