-- ==== Sys2Proof/Laws/Memory.lean ====
section
/-! SUPPORT. Addressed memory: every operation keeps the canonical form, a read after a write gives what was written, and
every other address reads as before. -/

namespace Sys2Proof.Machine

/-! ### The canonical form -/

theorem memWfFrom_mono {a b : Nat} (m : Mem) (h : b ≤ a) (w : memWfFrom a m = true) : memWfFrom b m = true := by
  cases m with
  | nil => rfl
  | cons c r =>
    simp only [memWfFrom, Bool.and_eq_true, decide_eq_true_eq] at w ⊢
    exact ⟨⟨Nat.le_trans h w.1.1, w.1.2⟩, w.2⟩

/-- An address below every entry reads as an unlisted one. -/
theorem memGet_low {a b : Nat} (m : Mem) (w : memWfFrom a m = true) (h : b < a) : memGet m b = memDefault := by
  induction m generalizing a with
  | nil => rfl
  | cons c r ih =>
    simp only [memWfFrom, Bool.and_eq_true, decide_eq_true_eq] at w
    have : c.1 ≠ b := by omega
    simp only [memGet, this, if_false]
    exact ih w.2 (by omega)

theorem memSet_wfFrom {a k : Nat} (m : Mem) (v : Byte) (w : memWfFrom a m = true) (h : a ≤ k) :
    memWfFrom a (memSet m k v) = true := by
  induction m generalizing a with
  | nil =>
    simp only [memSet]
    split
    · rfl
    · simp_all [memWfFrom]
  | cons c r ih =>
    have w0 := w
    simp only [memWfFrom, Bool.and_eq_true, decide_eq_true_eq] at w
    simp only [memSet]
    split
    · split
      · exact w0
      · simp only [memWfFrom, Bool.and_eq_true, decide_eq_true_eq]
        exact ⟨⟨h, by assumption⟩, ⟨by omega, w.1.2⟩, w.2⟩
    · split
      · split
        · exact memWfFrom_mono r (by omega) w.2
        · simp only [memWfFrom, Bool.and_eq_true, decide_eq_true_eq]
          refine ⟨⟨h, by assumption⟩, ?_⟩
          have : k = c.1 := by assumption
          rw [this]; exact w.2
      · simp only [memWfFrom, Bool.and_eq_true, decide_eq_true_eq]
        exact ⟨w.1, ih w.2 (by omega)⟩

/-- A byte written keeps the canonical form. -/
theorem memSet_wf (m : Mem) (a : Nat) (v : Byte) (w : Memory.wf m = true) : Memory.wf (memSet m a v) = true :=
  memSet_wfFrom m v w (Nat.zero_le _)

/-- A byte string written keeps the canonical form. -/
theorem memPut_wf (m : Mem) (a : Nat) (l : List Byte) (w : Memory.wf m = true) : Memory.wf (memPut m a l) = true := by
  induction l generalizing m a with
  | nil => exact w
  | cons b r ih => exact ih _ _ (memSet_wf m a b w)

theorem memPutLe_wf (m : Mem) (a n v : Nat) (w : Memory.wf m = true) : Memory.wf (memPutLe m a n v) = true :=
  memPut_wf m a _ w

theorem memFilter_wfFrom {a : Nat} (m : Mem) (p : Nat × Byte → Bool) (w : memWfFrom a m = true) :
    memWfFrom a (m.filter p) = true := by
  induction m generalizing a with
  | nil => rfl
  | cons c r ih =>
    simp only [memWfFrom, Bool.and_eq_true, decide_eq_true_eq] at w
    have hr := ih w.2
    by_cases hp : p c = true
    · simp only [List.filter_cons, hp, if_true, memWfFrom, Bool.and_eq_true, decide_eq_true_eq]
      exact ⟨w.1, hr⟩
    · simp only [List.filter_cons, hp]
      exact memWfFrom_mono _ (by omega) hr

/-- Clearing a range keeps the canonical form. -/
theorem memClear_wf (m : Mem) (lo hi : Nat) (w : Memory.wf m = true) : Memory.wf (memClear m lo hi) = true :=
  memFilter_wfFrom m _ w

/-! ### Reads after writes -/

/-- A read after a byte was written: the byte at its address, and elsewhere what was there. -/
theorem memGet_memSet (m : Mem) (a b : Nat) (v : Byte) (w : Memory.wf m = true) :
    memGet (memSet m a v) b = if b = a then v else memGet m b := by
  unfold Memory.wf at w
  generalize 0 = z at w
  induction m generalizing z with
  | nil =>
    simp only [memSet]
    split
    · simp only [memGet]; split <;> simp_all
    · simp only [memGet]; split <;> split <;> simp_all
  | cons c r ih =>
    simp only [memWfFrom, Bool.and_eq_true, decide_eq_true_eq] at w
    obtain ⟨⟨h1, h2⟩, h3⟩ := w
    simp only [memSet]
    split
    · rename_i hlt
      split
      · rename_i hv
        by_cases hb : b = a
        · subst hb
          have : c.1 ≠ b := by omega
          simp only [if_true, hv, memGet, this, if_false]
          exact memGet_low r h3 (by omega)
        · simp only [hb, if_false]
      · simp only [memGet]
        by_cases hb : b = a
        · simp [hb]
        · have : ¬ a = b := fun e => hb e.symm
          simp [hb, this]
    · split
      · rename_i he
        split
        · rename_i hv
          by_cases hb : b = a
          · subst hb
            simp only [if_true, hv]
            exact memGet_low r h3 (by omega)
          · have : ¬ c.1 = b := by omega
            simp only [hb, if_false, memGet, this]
        · simp only [memGet]
          by_cases hb : b = a
          · simp [hb]
          · have h4 : ¬ a = b := fun e => hb e.symm
            have h5 : ¬ c.1 = b := by omega
            simp [hb, h4, h5]
      · simp only [memGet]
        by_cases hc : c.1 = b
        · have : ¬ b = a := by omega
          simp [hc, this]
        · simp only [hc, if_false]
          exact ih _ h3

/-- A read after a byte string was written. -/
theorem memGet_memPut (m : Mem) (a b : Nat) (l : List Byte) (w : Memory.wf m = true) :
    memGet (memPut m a l) b = if a ≤ b ∧ b < a + l.length then byteAt l (b - a) else memGet m b := by
  induction l generalizing m a with
  | nil =>
    simp only [memPut, List.length_nil, Nat.add_zero]
    rw [if_neg (by omega)]
  | cons x r ih =>
    simp only [memPut, ih _ _ (memSet_wf m a x w), memGet_memSet m a b x w, List.length_cons]
    by_cases hb : b = a
    · subst hb
      have h1 : ¬ (b + 1 ≤ b ∧ b < b + 1 + r.length) := by omega
      have h2 : b ≤ b ∧ b < b + (r.length + 1) := by omega
      simp [byteAt]
    · by_cases hr : a + 1 ≤ b ∧ b < a + 1 + r.length
      · have h2 : a ≤ b ∧ b < a + (r.length + 1) := by omega
        have h3 : b - a = (b - (a + 1)) + 1 := by omega
        simp only [hr, h2, and_self, if_true, byteAt]
        rw [h3]; rfl
      · have h2 : ¬ (a ≤ b ∧ b < a + (r.length + 1)) := by omega
        rw [if_neg hr, if_neg h2, if_neg hb]

/-- An address outside a byte string written reads as before. -/
theorem memGet_memPut_out (m : Mem) (a b : Nat) (l : List Byte) (w : Memory.wf m = true) (h : b < a ∨ a + l.length ≤ b) :
    memGet (memPut m a l) b = memGet m b := by
  rw [memGet_memPut m a b l w, if_neg (by omega)]

@[simp] theorem leBytes_length (n v : Nat) : (leBytes n v).length = n := by
  induction n generalizing v with
  | zero => rfl
  | succ n ih => simp [leBytes, ih]

@[simp] theorem memBytes_length (m : Mem) (a n : Nat) : (memBytes m a n).length = n := by
  induction n generalizing a with
  | zero => rfl
  | succ n ih => simp [memBytes, ih]

/-- Reading back a byte string that was written. -/
theorem memBytes_memPut (m : Mem) (a : Nat) (l : List Byte) (w : Memory.wf m = true) :
    memBytes (memPut m a l) a l.length = l := by
  induction l generalizing m a with
  | nil => rfl
  | cons x r ih =>
    have hw := memSet_wf m a x w
    simp only [List.length_cons, memBytes, memPut]
    rw [memGet_memPut_out _ _ _ _ hw (by omega), memGet_memSet m a a x w, ih _ _ hw]
    simp

/-- A byte-string read that a write does not meet. -/
theorem memBytes_memPut_out (m : Mem) (a b n : Nat) (l : List Byte) (w : Memory.wf m = true)
    (h : b + n ≤ a ∨ a + l.length ≤ b) : memBytes (memPut m a l) b n = memBytes m b n := by
  induction n generalizing b with
  | zero => rfl
  | succ n ih =>
    simp only [memBytes]
    rw [memGet_memPut_out m a b l w (by omega), ih (b + 1) (by omega)]

/-- A read after a range was cleared. -/
theorem memGet_memClear (m : Mem) (lo hi b : Nat) (w : Memory.wf m = true) :
    memGet (memClear m lo hi) b = if lo ≤ b ∧ b < hi then memDefault else memGet m b := by
  unfold Memory.wf at w
  generalize 0 = z at w
  induction m generalizing z with
  | nil => simp [memClear, memGet]
  | cons c r ih =>
    simp only [memWfFrom, Bool.and_eq_true, decide_eq_true_eq] at w
    have hr := ih _ w.2
    simp only [memClear] at hr ⊢
    by_cases hc : lo ≤ c.1 ∧ c.1 < hi
    · rw [List.filter_cons_of_neg (by simp [hc]), hr]
      by_cases hb : lo ≤ b ∧ b < hi
      · rw [if_pos hb, if_pos hb]
      · have : ¬ c.1 = b := by omega
        rw [if_neg hb, if_neg hb]; simp [memGet, this]
    · have : (!(decide (lo ≤ c.1) && decide (c.1 < hi))) = true := by
        simp only [Bool.not_eq_true', Bool.and_eq_false_iff, decide_eq_false_iff_not]; omega
      rw [List.filter_cons_of_pos (p := fun c : Host.Cell => !(decide (lo ≤ c.1) && decide (c.1 < hi))) this]
      simp only [memGet, hr]
      by_cases hb : c.1 = b
      · subst hb; simp [hc]
      · simp [hb]

/-- The number a byte string of its own little-endian bytes spells. -/
theorem ofLe_leBytes (n v : Nat) : ofLe (leBytes n v) = v % 256 ^ n := by
  induction n generalizing v with
  | zero => simp [leBytes, ofLe, Nat.mod_one]
  | succ n ih =>
    have h : 256 ^ (n + 1) = 256 * 256 ^ n := by rw [Nat.pow_succ, Nat.mul_comm]
    rw [h, Nat.mod_mul]
    simp [leBytes, ofLe, ih]

/-- A little-endian read of a little-endian write. -/
theorem memLe_memPutLe (m : Mem) (a n v : Nat) (w : Memory.wf m = true) :
    memLe (memPutLe m a n v) a n = v % 256 ^ n := by
  have h := memBytes_memPut m a (leBytes n v) w
  rw [leBytes_length] at h
  simp only [memLe, memPutLe, h, ofLe_leBytes]

end Sys2Proof.Machine
end

