-- ==== Sys2Proof/Laws/State.lean ====
section
/-! SUPPORT. What each update of one block of the state does to every field: the element it names changes by the update,
every other element and every other field stays. -/

namespace Sys2Proof.Machine

/-! ### Elements of a vector -/

@[simp] theorem vmod_same {α : Type} {n : Nat} (v : Vector α n) (i : Fin n) (f : α → α) : (vmod v i f)[i] = f v[i] := by
  simp [vmod]

@[simp] theorem vmod_same_val {α : Type} {n : Nat} (v : Vector α n) (i : Fin n) (f : α → α) : (vmod v i f)[i.val] = f v[i] := by
  simp [vmod]

theorem vmod_other {α : Type} {n : Nat} (v : Vector α n) (i j : Fin n) (f : α → α) (h : j ≠ i) : (vmod v i f)[j] = v[j] := by
  have : i.val ≠ j.val := fun e => h (Fin.ext e.symm)
  simp [vmod, Vector.getElem_set, this]

/-- Every element after an update of one. -/
theorem vmod_get {α : Type} {n : Nat} (v : Vector α n) (i j : Fin n) (f : α → α) :
    (vmod v i f)[j] = if j = i then f v[i] else v[j] := by
  by_cases h : j = i
  · subst h; simp
  · simp [vmod_other v i j f h, h]

@[simp] theorem vmod_id {α : Type} {n : Nat} (v : Vector α n) (i : Fin n) : vmod v i (fun x => x) = v := by
  simp [vmod]

/-! ### Updates of one block -/

variable (s : State)

@[simp] theorem State.modUnit_units (i : UnitId) (g : ChanUnit → ChanUnit) : (s.modUnit i g).units = vmod s.units i g := rfl
@[simp] theorem State.modUnit_tb (i : UnitId) (g : ChanUnit → ChanUnit) : (s.modUnit i g).tb = s.tb := rfl
@[simp] theorem State.modUnit_rsv (i : UnitId) (g : ChanUnit → ChanUnit) : (s.modUnit i g).rsv = s.rsv := rfl
@[simp] theorem State.modUnit_nv (i : UnitId) (g : ChanUnit → ChanUnit) : (s.modUnit i g).nv = s.nv := rfl
@[simp] theorem State.modUnit_fsh (i : UnitId) (g : ChanUnit → ChanUnit) : (s.modUnit i g).fsh = s.fsh := rfl
@[simp] theorem State.modUnit_cal (i : UnitId) (g : ChanUnit → ChanUnit) : (s.modUnit i g).cal = s.cal := rfl
@[simp] theorem State.modUnit_tio (i : UnitId) (g : ChanUnit → ChanUnit) : (s.modUnit i g).tio = s.tio := rfl
@[simp] theorem State.modUnit_pad (i : UnitId) (g : ChanUnit → ChanUnit) : (s.modUnit i g).pad = s.pad := rfl
@[simp] theorem State.modUnit_padZ (i : UnitId) (g : ChanUnit → ChanUnit) : (s.modUnit i g).padZ = s.padZ := rfl
@[simp] theorem State.modUnit_psn (i : UnitId) (g : ChanUnit → ChanUnit) : (s.modUnit i g).psn = s.psn := rfl
@[simp] theorem State.modUnit_xing (i : UnitId) (g : ChanUnit → ChanUnit) : (s.modUnit i g).xing = s.xing := rfl
@[simp] theorem State.modUnit_arm (i : UnitId) (g : ChanUnit → ChanUnit) : (s.modUnit i g).arm = s.arm := rfl
@[simp] theorem State.modUnit_link (i : UnitId) (g : ChanUnit → ChanUnit) : (s.modUnit i g).link = s.link := rfl
@[simp] theorem State.modUnit_har (i : UnitId) (g : ChanUnit → ChanUnit) : (s.modUnit i g).har = s.har := rfl
@[simp] theorem State.modUnit_thr (i : UnitId) (g : ChanUnit → ChanUnit) : (s.modUnit i g).thr = s.thr := rfl
@[simp] theorem State.modUnit_eng (i : UnitId) (g : ChanUnit → ChanUnit) : (s.modUnit i g).eng = s.eng := rfl
@[simp] theorem State.modUnit_prog (i : UnitId) (g : ChanUnit → ChanUnit) : (s.modUnit i g).prog = s.prog := rfl
@[simp] theorem State.modUnit_frm (i : UnitId) (g : ChanUnit → ChanUnit) : (s.modUnit i g).frm = s.frm := rfl
@[simp] theorem State.modUnit_bas (i : UnitId) (g : ChanUnit → ChanUnit) : (s.modUnit i g).bas = s.bas := rfl
@[simp] theorem State.modUnit_bmem (i : UnitId) (g : ChanUnit → ChanUnit) : (s.modUnit i g).bmem = s.bmem := rfl
@[simp] theorem State.modUnit_lmap (i : UnitId) (g : ChanUnit → ChanUnit) : (s.modUnit i g).lmap = s.lmap := rfl
@[simp] theorem State.modUnit_ost (i : UnitId) (g : ChanUnit → ChanUnit) : (s.modUnit i g).ost = s.ost := rfl
@[simp] theorem State.modUnit_spw (i : UnitId) (g : ChanUnit → ChanUnit) : (s.modUnit i g).spw = s.spw := rfl
@[simp] theorem State.modUnit_gt (i : UnitId) (g : ChanUnit → ChanUnit) : (s.modUnit i g).gt = s.gt := rfl
@[simp] theorem State.modUnit_conv (i : UnitId) (g : ChanUnit → ChanUnit) : (s.modUnit i g).conv = s.conv := rfl
@[simp] theorem State.modUnit_prb (i : UnitId) (g : ChanUnit → ChanUnit) : (s.modUnit i g).prb = s.prb := rfl
@[simp] theorem State.modUnit_ps (i : UnitId) (g : ChanUnit → ChanUnit) : (s.modUnit i g).ps = s.ps := rfl
@[simp] theorem State.modUnit_rcd (i : UnitId) (g : ChanUnit → ChanUnit) : (s.modUnit i g).rcd = s.rcd := rfl
@[simp] theorem State.modUnit_host (i : UnitId) (g : ChanUnit → ChanUnit) : (s.modUnit i g).host = s.host := rfl
@[simp] theorem State.modUnit_irq (i : UnitId) (g : ChanUnit → ChanUnit) : (s.modUnit i g).irq = s.irq := rfl
@[simp] theorem State.modUnit_far (i : UnitId) (g : ChanUnit → ChanUnit) : (s.modUnit i g).far = s.far := rfl
@[simp] theorem State.modUnit_hlt (i : UnitId) (g : ChanUnit → ChanUnit) : (s.modUnit i g).hlt = s.hlt := rfl
@[simp] theorem State.modUnit_pwr (i : UnitId) (g : ChanUnit → ChanUnit) : (s.modUnit i g).pwr = s.pwr := rfl
@[simp] theorem State.modUnit_dbg (i : UnitId) (g : ChanUnit → ChanUnit) : (s.modUnit i g).dbg = s.dbg := rfl
@[simp] theorem State.modUnit_pending (i : UnitId) (g : ChanUnit → ChanUnit) : (s.modUnit i g).pending = s.pending := rfl

@[simp] theorem State.modHar_har (i : HarnessId) (g : Harness → Harness) : (s.modHar i g).har = vmod s.har i g := rfl
@[simp] theorem State.modHar_tb (i : HarnessId) (g : Harness → Harness) : (s.modHar i g).tb = s.tb := rfl
@[simp] theorem State.modHar_rsv (i : HarnessId) (g : Harness → Harness) : (s.modHar i g).rsv = s.rsv := rfl
@[simp] theorem State.modHar_nv (i : HarnessId) (g : Harness → Harness) : (s.modHar i g).nv = s.nv := rfl
@[simp] theorem State.modHar_fsh (i : HarnessId) (g : Harness → Harness) : (s.modHar i g).fsh = s.fsh := rfl
@[simp] theorem State.modHar_cal (i : HarnessId) (g : Harness → Harness) : (s.modHar i g).cal = s.cal := rfl
@[simp] theorem State.modHar_units (i : HarnessId) (g : Harness → Harness) : (s.modHar i g).units = s.units := rfl
@[simp] theorem State.modHar_tio (i : HarnessId) (g : Harness → Harness) : (s.modHar i g).tio = s.tio := rfl
@[simp] theorem State.modHar_pad (i : HarnessId) (g : Harness → Harness) : (s.modHar i g).pad = s.pad := rfl
@[simp] theorem State.modHar_padZ (i : HarnessId) (g : Harness → Harness) : (s.modHar i g).padZ = s.padZ := rfl
@[simp] theorem State.modHar_psn (i : HarnessId) (g : Harness → Harness) : (s.modHar i g).psn = s.psn := rfl
@[simp] theorem State.modHar_xing (i : HarnessId) (g : Harness → Harness) : (s.modHar i g).xing = s.xing := rfl
@[simp] theorem State.modHar_arm (i : HarnessId) (g : Harness → Harness) : (s.modHar i g).arm = s.arm := rfl
@[simp] theorem State.modHar_link (i : HarnessId) (g : Harness → Harness) : (s.modHar i g).link = s.link := rfl
@[simp] theorem State.modHar_thr (i : HarnessId) (g : Harness → Harness) : (s.modHar i g).thr = s.thr := rfl
@[simp] theorem State.modHar_eng (i : HarnessId) (g : Harness → Harness) : (s.modHar i g).eng = s.eng := rfl
@[simp] theorem State.modHar_prog (i : HarnessId) (g : Harness → Harness) : (s.modHar i g).prog = s.prog := rfl
@[simp] theorem State.modHar_frm (i : HarnessId) (g : Harness → Harness) : (s.modHar i g).frm = s.frm := rfl
@[simp] theorem State.modHar_bas (i : HarnessId) (g : Harness → Harness) : (s.modHar i g).bas = s.bas := rfl
@[simp] theorem State.modHar_bmem (i : HarnessId) (g : Harness → Harness) : (s.modHar i g).bmem = s.bmem := rfl
@[simp] theorem State.modHar_lmap (i : HarnessId) (g : Harness → Harness) : (s.modHar i g).lmap = s.lmap := rfl
@[simp] theorem State.modHar_ost (i : HarnessId) (g : Harness → Harness) : (s.modHar i g).ost = s.ost := rfl
@[simp] theorem State.modHar_spw (i : HarnessId) (g : Harness → Harness) : (s.modHar i g).spw = s.spw := rfl
@[simp] theorem State.modHar_gt (i : HarnessId) (g : Harness → Harness) : (s.modHar i g).gt = s.gt := rfl
@[simp] theorem State.modHar_conv (i : HarnessId) (g : Harness → Harness) : (s.modHar i g).conv = s.conv := rfl
@[simp] theorem State.modHar_prb (i : HarnessId) (g : Harness → Harness) : (s.modHar i g).prb = s.prb := rfl
@[simp] theorem State.modHar_ps (i : HarnessId) (g : Harness → Harness) : (s.modHar i g).ps = s.ps := rfl
@[simp] theorem State.modHar_rcd (i : HarnessId) (g : Harness → Harness) : (s.modHar i g).rcd = s.rcd := rfl
@[simp] theorem State.modHar_host (i : HarnessId) (g : Harness → Harness) : (s.modHar i g).host = s.host := rfl
@[simp] theorem State.modHar_irq (i : HarnessId) (g : Harness → Harness) : (s.modHar i g).irq = s.irq := rfl
@[simp] theorem State.modHar_far (i : HarnessId) (g : Harness → Harness) : (s.modHar i g).far = s.far := rfl
@[simp] theorem State.modHar_hlt (i : HarnessId) (g : Harness → Harness) : (s.modHar i g).hlt = s.hlt := rfl
@[simp] theorem State.modHar_pwr (i : HarnessId) (g : Harness → Harness) : (s.modHar i g).pwr = s.pwr := rfl
@[simp] theorem State.modHar_dbg (i : HarnessId) (g : Harness → Harness) : (s.modHar i g).dbg = s.dbg := rfl
@[simp] theorem State.modHar_pending (i : HarnessId) (g : Harness → Harness) : (s.modHar i g).pending = s.pending := rfl

@[simp] theorem State.modThr_thr (i : Tid) (g : Thread → Thread) : (s.modThr i g).thr = vmod s.thr i g := rfl
@[simp] theorem State.modThr_tb (i : Tid) (g : Thread → Thread) : (s.modThr i g).tb = s.tb := rfl
@[simp] theorem State.modThr_rsv (i : Tid) (g : Thread → Thread) : (s.modThr i g).rsv = s.rsv := rfl
@[simp] theorem State.modThr_nv (i : Tid) (g : Thread → Thread) : (s.modThr i g).nv = s.nv := rfl
@[simp] theorem State.modThr_fsh (i : Tid) (g : Thread → Thread) : (s.modThr i g).fsh = s.fsh := rfl
@[simp] theorem State.modThr_cal (i : Tid) (g : Thread → Thread) : (s.modThr i g).cal = s.cal := rfl
@[simp] theorem State.modThr_units (i : Tid) (g : Thread → Thread) : (s.modThr i g).units = s.units := rfl
@[simp] theorem State.modThr_tio (i : Tid) (g : Thread → Thread) : (s.modThr i g).tio = s.tio := rfl
@[simp] theorem State.modThr_pad (i : Tid) (g : Thread → Thread) : (s.modThr i g).pad = s.pad := rfl
@[simp] theorem State.modThr_padZ (i : Tid) (g : Thread → Thread) : (s.modThr i g).padZ = s.padZ := rfl
@[simp] theorem State.modThr_psn (i : Tid) (g : Thread → Thread) : (s.modThr i g).psn = s.psn := rfl
@[simp] theorem State.modThr_xing (i : Tid) (g : Thread → Thread) : (s.modThr i g).xing = s.xing := rfl
@[simp] theorem State.modThr_arm (i : Tid) (g : Thread → Thread) : (s.modThr i g).arm = s.arm := rfl
@[simp] theorem State.modThr_link (i : Tid) (g : Thread → Thread) : (s.modThr i g).link = s.link := rfl
@[simp] theorem State.modThr_har (i : Tid) (g : Thread → Thread) : (s.modThr i g).har = s.har := rfl
@[simp] theorem State.modThr_eng (i : Tid) (g : Thread → Thread) : (s.modThr i g).eng = s.eng := rfl
@[simp] theorem State.modThr_prog (i : Tid) (g : Thread → Thread) : (s.modThr i g).prog = s.prog := rfl
@[simp] theorem State.modThr_frm (i : Tid) (g : Thread → Thread) : (s.modThr i g).frm = s.frm := rfl
@[simp] theorem State.modThr_bas (i : Tid) (g : Thread → Thread) : (s.modThr i g).bas = s.bas := rfl
@[simp] theorem State.modThr_bmem (i : Tid) (g : Thread → Thread) : (s.modThr i g).bmem = s.bmem := rfl
@[simp] theorem State.modThr_lmap (i : Tid) (g : Thread → Thread) : (s.modThr i g).lmap = s.lmap := rfl
@[simp] theorem State.modThr_ost (i : Tid) (g : Thread → Thread) : (s.modThr i g).ost = s.ost := rfl
@[simp] theorem State.modThr_spw (i : Tid) (g : Thread → Thread) : (s.modThr i g).spw = s.spw := rfl
@[simp] theorem State.modThr_gt (i : Tid) (g : Thread → Thread) : (s.modThr i g).gt = s.gt := rfl
@[simp] theorem State.modThr_conv (i : Tid) (g : Thread → Thread) : (s.modThr i g).conv = s.conv := rfl
@[simp] theorem State.modThr_prb (i : Tid) (g : Thread → Thread) : (s.modThr i g).prb = s.prb := rfl
@[simp] theorem State.modThr_ps (i : Tid) (g : Thread → Thread) : (s.modThr i g).ps = s.ps := rfl
@[simp] theorem State.modThr_rcd (i : Tid) (g : Thread → Thread) : (s.modThr i g).rcd = s.rcd := rfl
@[simp] theorem State.modThr_host (i : Tid) (g : Thread → Thread) : (s.modThr i g).host = s.host := rfl
@[simp] theorem State.modThr_irq (i : Tid) (g : Thread → Thread) : (s.modThr i g).irq = s.irq := rfl
@[simp] theorem State.modThr_far (i : Tid) (g : Thread → Thread) : (s.modThr i g).far = s.far := rfl
@[simp] theorem State.modThr_hlt (i : Tid) (g : Thread → Thread) : (s.modThr i g).hlt = s.hlt := rfl
@[simp] theorem State.modThr_pwr (i : Tid) (g : Thread → Thread) : (s.modThr i g).pwr = s.pwr := rfl
@[simp] theorem State.modThr_dbg (i : Tid) (g : Thread → Thread) : (s.modThr i g).dbg = s.dbg := rfl
@[simp] theorem State.modThr_pending (i : Tid) (g : Thread → Thread) : (s.modThr i g).pending = s.pending := rfl

@[simp] theorem State.modEng_eng (i : EngineId) (g : Engine → Engine) : (s.modEng i g).eng = vmod s.eng i g := rfl
@[simp] theorem State.modEng_tb (i : EngineId) (g : Engine → Engine) : (s.modEng i g).tb = s.tb := rfl
@[simp] theorem State.modEng_rsv (i : EngineId) (g : Engine → Engine) : (s.modEng i g).rsv = s.rsv := rfl
@[simp] theorem State.modEng_nv (i : EngineId) (g : Engine → Engine) : (s.modEng i g).nv = s.nv := rfl
@[simp] theorem State.modEng_fsh (i : EngineId) (g : Engine → Engine) : (s.modEng i g).fsh = s.fsh := rfl
@[simp] theorem State.modEng_cal (i : EngineId) (g : Engine → Engine) : (s.modEng i g).cal = s.cal := rfl
@[simp] theorem State.modEng_units (i : EngineId) (g : Engine → Engine) : (s.modEng i g).units = s.units := rfl
@[simp] theorem State.modEng_tio (i : EngineId) (g : Engine → Engine) : (s.modEng i g).tio = s.tio := rfl
@[simp] theorem State.modEng_pad (i : EngineId) (g : Engine → Engine) : (s.modEng i g).pad = s.pad := rfl
@[simp] theorem State.modEng_padZ (i : EngineId) (g : Engine → Engine) : (s.modEng i g).padZ = s.padZ := rfl
@[simp] theorem State.modEng_psn (i : EngineId) (g : Engine → Engine) : (s.modEng i g).psn = s.psn := rfl
@[simp] theorem State.modEng_xing (i : EngineId) (g : Engine → Engine) : (s.modEng i g).xing = s.xing := rfl
@[simp] theorem State.modEng_arm (i : EngineId) (g : Engine → Engine) : (s.modEng i g).arm = s.arm := rfl
@[simp] theorem State.modEng_link (i : EngineId) (g : Engine → Engine) : (s.modEng i g).link = s.link := rfl
@[simp] theorem State.modEng_har (i : EngineId) (g : Engine → Engine) : (s.modEng i g).har = s.har := rfl
@[simp] theorem State.modEng_thr (i : EngineId) (g : Engine → Engine) : (s.modEng i g).thr = s.thr := rfl
@[simp] theorem State.modEng_prog (i : EngineId) (g : Engine → Engine) : (s.modEng i g).prog = s.prog := rfl
@[simp] theorem State.modEng_frm (i : EngineId) (g : Engine → Engine) : (s.modEng i g).frm = s.frm := rfl
@[simp] theorem State.modEng_bas (i : EngineId) (g : Engine → Engine) : (s.modEng i g).bas = s.bas := rfl
@[simp] theorem State.modEng_bmem (i : EngineId) (g : Engine → Engine) : (s.modEng i g).bmem = s.bmem := rfl
@[simp] theorem State.modEng_lmap (i : EngineId) (g : Engine → Engine) : (s.modEng i g).lmap = s.lmap := rfl
@[simp] theorem State.modEng_ost (i : EngineId) (g : Engine → Engine) : (s.modEng i g).ost = s.ost := rfl
@[simp] theorem State.modEng_spw (i : EngineId) (g : Engine → Engine) : (s.modEng i g).spw = s.spw := rfl
@[simp] theorem State.modEng_gt (i : EngineId) (g : Engine → Engine) : (s.modEng i g).gt = s.gt := rfl
@[simp] theorem State.modEng_conv (i : EngineId) (g : Engine → Engine) : (s.modEng i g).conv = s.conv := rfl
@[simp] theorem State.modEng_prb (i : EngineId) (g : Engine → Engine) : (s.modEng i g).prb = s.prb := rfl
@[simp] theorem State.modEng_ps (i : EngineId) (g : Engine → Engine) : (s.modEng i g).ps = s.ps := rfl
@[simp] theorem State.modEng_rcd (i : EngineId) (g : Engine → Engine) : (s.modEng i g).rcd = s.rcd := rfl
@[simp] theorem State.modEng_host (i : EngineId) (g : Engine → Engine) : (s.modEng i g).host = s.host := rfl
@[simp] theorem State.modEng_irq (i : EngineId) (g : Engine → Engine) : (s.modEng i g).irq = s.irq := rfl
@[simp] theorem State.modEng_far (i : EngineId) (g : Engine → Engine) : (s.modEng i g).far = s.far := rfl
@[simp] theorem State.modEng_hlt (i : EngineId) (g : Engine → Engine) : (s.modEng i g).hlt = s.hlt := rfl
@[simp] theorem State.modEng_pwr (i : EngineId) (g : Engine → Engine) : (s.modEng i g).pwr = s.pwr := rfl
@[simp] theorem State.modEng_dbg (i : EngineId) (g : Engine → Engine) : (s.modEng i g).dbg = s.dbg := rfl
@[simp] theorem State.modEng_pending (i : EngineId) (g : Engine → Engine) : (s.modEng i g).pending = s.pending := rfl

@[simp] theorem State.modProg_prog (i : ProgId) (g : Prog → Prog) : (s.modProg i g).prog = vmod s.prog i g := rfl
@[simp] theorem State.modProg_tb (i : ProgId) (g : Prog → Prog) : (s.modProg i g).tb = s.tb := rfl
@[simp] theorem State.modProg_rsv (i : ProgId) (g : Prog → Prog) : (s.modProg i g).rsv = s.rsv := rfl
@[simp] theorem State.modProg_nv (i : ProgId) (g : Prog → Prog) : (s.modProg i g).nv = s.nv := rfl
@[simp] theorem State.modProg_fsh (i : ProgId) (g : Prog → Prog) : (s.modProg i g).fsh = s.fsh := rfl
@[simp] theorem State.modProg_cal (i : ProgId) (g : Prog → Prog) : (s.modProg i g).cal = s.cal := rfl
@[simp] theorem State.modProg_units (i : ProgId) (g : Prog → Prog) : (s.modProg i g).units = s.units := rfl
@[simp] theorem State.modProg_tio (i : ProgId) (g : Prog → Prog) : (s.modProg i g).tio = s.tio := rfl
@[simp] theorem State.modProg_pad (i : ProgId) (g : Prog → Prog) : (s.modProg i g).pad = s.pad := rfl
@[simp] theorem State.modProg_padZ (i : ProgId) (g : Prog → Prog) : (s.modProg i g).padZ = s.padZ := rfl
@[simp] theorem State.modProg_psn (i : ProgId) (g : Prog → Prog) : (s.modProg i g).psn = s.psn := rfl
@[simp] theorem State.modProg_xing (i : ProgId) (g : Prog → Prog) : (s.modProg i g).xing = s.xing := rfl
@[simp] theorem State.modProg_arm (i : ProgId) (g : Prog → Prog) : (s.modProg i g).arm = s.arm := rfl
@[simp] theorem State.modProg_link (i : ProgId) (g : Prog → Prog) : (s.modProg i g).link = s.link := rfl
@[simp] theorem State.modProg_har (i : ProgId) (g : Prog → Prog) : (s.modProg i g).har = s.har := rfl
@[simp] theorem State.modProg_thr (i : ProgId) (g : Prog → Prog) : (s.modProg i g).thr = s.thr := rfl
@[simp] theorem State.modProg_eng (i : ProgId) (g : Prog → Prog) : (s.modProg i g).eng = s.eng := rfl
@[simp] theorem State.modProg_frm (i : ProgId) (g : Prog → Prog) : (s.modProg i g).frm = s.frm := rfl
@[simp] theorem State.modProg_bas (i : ProgId) (g : Prog → Prog) : (s.modProg i g).bas = s.bas := rfl
@[simp] theorem State.modProg_bmem (i : ProgId) (g : Prog → Prog) : (s.modProg i g).bmem = s.bmem := rfl
@[simp] theorem State.modProg_lmap (i : ProgId) (g : Prog → Prog) : (s.modProg i g).lmap = s.lmap := rfl
@[simp] theorem State.modProg_ost (i : ProgId) (g : Prog → Prog) : (s.modProg i g).ost = s.ost := rfl
@[simp] theorem State.modProg_spw (i : ProgId) (g : Prog → Prog) : (s.modProg i g).spw = s.spw := rfl
@[simp] theorem State.modProg_gt (i : ProgId) (g : Prog → Prog) : (s.modProg i g).gt = s.gt := rfl
@[simp] theorem State.modProg_conv (i : ProgId) (g : Prog → Prog) : (s.modProg i g).conv = s.conv := rfl
@[simp] theorem State.modProg_prb (i : ProgId) (g : Prog → Prog) : (s.modProg i g).prb = s.prb := rfl
@[simp] theorem State.modProg_ps (i : ProgId) (g : Prog → Prog) : (s.modProg i g).ps = s.ps := rfl
@[simp] theorem State.modProg_rcd (i : ProgId) (g : Prog → Prog) : (s.modProg i g).rcd = s.rcd := rfl
@[simp] theorem State.modProg_host (i : ProgId) (g : Prog → Prog) : (s.modProg i g).host = s.host := rfl
@[simp] theorem State.modProg_irq (i : ProgId) (g : Prog → Prog) : (s.modProg i g).irq = s.irq := rfl
@[simp] theorem State.modProg_far (i : ProgId) (g : Prog → Prog) : (s.modProg i g).far = s.far := rfl
@[simp] theorem State.modProg_hlt (i : ProgId) (g : Prog → Prog) : (s.modProg i g).hlt = s.hlt := rfl
@[simp] theorem State.modProg_pwr (i : ProgId) (g : Prog → Prog) : (s.modProg i g).pwr = s.pwr := rfl
@[simp] theorem State.modProg_dbg (i : ProgId) (g : Prog → Prog) : (s.modProg i g).dbg = s.dbg := rfl
@[simp] theorem State.modProg_pending (i : ProgId) (g : Prog → Prog) : (s.modProg i g).pending = s.pending := rfl

@[simp] theorem State.modFrm_frm (i : Fin 128) (g : Frame → Frame) : (s.modFrm i g).frm = vmod s.frm i g := rfl
@[simp] theorem State.modFrm_tb (i : Fin 128) (g : Frame → Frame) : (s.modFrm i g).tb = s.tb := rfl
@[simp] theorem State.modFrm_rsv (i : Fin 128) (g : Frame → Frame) : (s.modFrm i g).rsv = s.rsv := rfl
@[simp] theorem State.modFrm_nv (i : Fin 128) (g : Frame → Frame) : (s.modFrm i g).nv = s.nv := rfl
@[simp] theorem State.modFrm_fsh (i : Fin 128) (g : Frame → Frame) : (s.modFrm i g).fsh = s.fsh := rfl
@[simp] theorem State.modFrm_cal (i : Fin 128) (g : Frame → Frame) : (s.modFrm i g).cal = s.cal := rfl
@[simp] theorem State.modFrm_units (i : Fin 128) (g : Frame → Frame) : (s.modFrm i g).units = s.units := rfl
@[simp] theorem State.modFrm_tio (i : Fin 128) (g : Frame → Frame) : (s.modFrm i g).tio = s.tio := rfl
@[simp] theorem State.modFrm_pad (i : Fin 128) (g : Frame → Frame) : (s.modFrm i g).pad = s.pad := rfl
@[simp] theorem State.modFrm_padZ (i : Fin 128) (g : Frame → Frame) : (s.modFrm i g).padZ = s.padZ := rfl
@[simp] theorem State.modFrm_psn (i : Fin 128) (g : Frame → Frame) : (s.modFrm i g).psn = s.psn := rfl
@[simp] theorem State.modFrm_xing (i : Fin 128) (g : Frame → Frame) : (s.modFrm i g).xing = s.xing := rfl
@[simp] theorem State.modFrm_arm (i : Fin 128) (g : Frame → Frame) : (s.modFrm i g).arm = s.arm := rfl
@[simp] theorem State.modFrm_link (i : Fin 128) (g : Frame → Frame) : (s.modFrm i g).link = s.link := rfl
@[simp] theorem State.modFrm_har (i : Fin 128) (g : Frame → Frame) : (s.modFrm i g).har = s.har := rfl
@[simp] theorem State.modFrm_thr (i : Fin 128) (g : Frame → Frame) : (s.modFrm i g).thr = s.thr := rfl
@[simp] theorem State.modFrm_eng (i : Fin 128) (g : Frame → Frame) : (s.modFrm i g).eng = s.eng := rfl
@[simp] theorem State.modFrm_prog (i : Fin 128) (g : Frame → Frame) : (s.modFrm i g).prog = s.prog := rfl
@[simp] theorem State.modFrm_bas (i : Fin 128) (g : Frame → Frame) : (s.modFrm i g).bas = s.bas := rfl
@[simp] theorem State.modFrm_bmem (i : Fin 128) (g : Frame → Frame) : (s.modFrm i g).bmem = s.bmem := rfl
@[simp] theorem State.modFrm_lmap (i : Fin 128) (g : Frame → Frame) : (s.modFrm i g).lmap = s.lmap := rfl
@[simp] theorem State.modFrm_ost (i : Fin 128) (g : Frame → Frame) : (s.modFrm i g).ost = s.ost := rfl
@[simp] theorem State.modFrm_spw (i : Fin 128) (g : Frame → Frame) : (s.modFrm i g).spw = s.spw := rfl
@[simp] theorem State.modFrm_gt (i : Fin 128) (g : Frame → Frame) : (s.modFrm i g).gt = s.gt := rfl
@[simp] theorem State.modFrm_conv (i : Fin 128) (g : Frame → Frame) : (s.modFrm i g).conv = s.conv := rfl
@[simp] theorem State.modFrm_prb (i : Fin 128) (g : Frame → Frame) : (s.modFrm i g).prb = s.prb := rfl
@[simp] theorem State.modFrm_ps (i : Fin 128) (g : Frame → Frame) : (s.modFrm i g).ps = s.ps := rfl
@[simp] theorem State.modFrm_rcd (i : Fin 128) (g : Frame → Frame) : (s.modFrm i g).rcd = s.rcd := rfl
@[simp] theorem State.modFrm_host (i : Fin 128) (g : Frame → Frame) : (s.modFrm i g).host = s.host := rfl
@[simp] theorem State.modFrm_irq (i : Fin 128) (g : Frame → Frame) : (s.modFrm i g).irq = s.irq := rfl
@[simp] theorem State.modFrm_far (i : Fin 128) (g : Frame → Frame) : (s.modFrm i g).far = s.far := rfl
@[simp] theorem State.modFrm_hlt (i : Fin 128) (g : Frame → Frame) : (s.modFrm i g).hlt = s.hlt := rfl
@[simp] theorem State.modFrm_pwr (i : Fin 128) (g : Frame → Frame) : (s.modFrm i g).pwr = s.pwr := rfl
@[simp] theorem State.modFrm_dbg (i : Fin 128) (g : Frame → Frame) : (s.modFrm i g).dbg = s.dbg := rfl
@[simp] theorem State.modFrm_pending (i : Fin 128) (g : Frame → Frame) : (s.modFrm i g).pending = s.pending := rfl

@[simp] theorem State.modBas_bas (i : BasinId) (g : Basin → Basin) : (s.modBas i g).bas = vmod s.bas i g := rfl
@[simp] theorem State.modBas_tb (i : BasinId) (g : Basin → Basin) : (s.modBas i g).tb = s.tb := rfl
@[simp] theorem State.modBas_rsv (i : BasinId) (g : Basin → Basin) : (s.modBas i g).rsv = s.rsv := rfl
@[simp] theorem State.modBas_nv (i : BasinId) (g : Basin → Basin) : (s.modBas i g).nv = s.nv := rfl
@[simp] theorem State.modBas_fsh (i : BasinId) (g : Basin → Basin) : (s.modBas i g).fsh = s.fsh := rfl
@[simp] theorem State.modBas_cal (i : BasinId) (g : Basin → Basin) : (s.modBas i g).cal = s.cal := rfl
@[simp] theorem State.modBas_units (i : BasinId) (g : Basin → Basin) : (s.modBas i g).units = s.units := rfl
@[simp] theorem State.modBas_tio (i : BasinId) (g : Basin → Basin) : (s.modBas i g).tio = s.tio := rfl
@[simp] theorem State.modBas_pad (i : BasinId) (g : Basin → Basin) : (s.modBas i g).pad = s.pad := rfl
@[simp] theorem State.modBas_padZ (i : BasinId) (g : Basin → Basin) : (s.modBas i g).padZ = s.padZ := rfl
@[simp] theorem State.modBas_psn (i : BasinId) (g : Basin → Basin) : (s.modBas i g).psn = s.psn := rfl
@[simp] theorem State.modBas_xing (i : BasinId) (g : Basin → Basin) : (s.modBas i g).xing = s.xing := rfl
@[simp] theorem State.modBas_arm (i : BasinId) (g : Basin → Basin) : (s.modBas i g).arm = s.arm := rfl
@[simp] theorem State.modBas_link (i : BasinId) (g : Basin → Basin) : (s.modBas i g).link = s.link := rfl
@[simp] theorem State.modBas_har (i : BasinId) (g : Basin → Basin) : (s.modBas i g).har = s.har := rfl
@[simp] theorem State.modBas_thr (i : BasinId) (g : Basin → Basin) : (s.modBas i g).thr = s.thr := rfl
@[simp] theorem State.modBas_eng (i : BasinId) (g : Basin → Basin) : (s.modBas i g).eng = s.eng := rfl
@[simp] theorem State.modBas_prog (i : BasinId) (g : Basin → Basin) : (s.modBas i g).prog = s.prog := rfl
@[simp] theorem State.modBas_frm (i : BasinId) (g : Basin → Basin) : (s.modBas i g).frm = s.frm := rfl
@[simp] theorem State.modBas_bmem (i : BasinId) (g : Basin → Basin) : (s.modBas i g).bmem = s.bmem := rfl
@[simp] theorem State.modBas_lmap (i : BasinId) (g : Basin → Basin) : (s.modBas i g).lmap = s.lmap := rfl
@[simp] theorem State.modBas_ost (i : BasinId) (g : Basin → Basin) : (s.modBas i g).ost = s.ost := rfl
@[simp] theorem State.modBas_spw (i : BasinId) (g : Basin → Basin) : (s.modBas i g).spw = s.spw := rfl
@[simp] theorem State.modBas_gt (i : BasinId) (g : Basin → Basin) : (s.modBas i g).gt = s.gt := rfl
@[simp] theorem State.modBas_conv (i : BasinId) (g : Basin → Basin) : (s.modBas i g).conv = s.conv := rfl
@[simp] theorem State.modBas_prb (i : BasinId) (g : Basin → Basin) : (s.modBas i g).prb = s.prb := rfl
@[simp] theorem State.modBas_ps (i : BasinId) (g : Basin → Basin) : (s.modBas i g).ps = s.ps := rfl
@[simp] theorem State.modBas_rcd (i : BasinId) (g : Basin → Basin) : (s.modBas i g).rcd = s.rcd := rfl
@[simp] theorem State.modBas_host (i : BasinId) (g : Basin → Basin) : (s.modBas i g).host = s.host := rfl
@[simp] theorem State.modBas_irq (i : BasinId) (g : Basin → Basin) : (s.modBas i g).irq = s.irq := rfl
@[simp] theorem State.modBas_far (i : BasinId) (g : Basin → Basin) : (s.modBas i g).far = s.far := rfl
@[simp] theorem State.modBas_hlt (i : BasinId) (g : Basin → Basin) : (s.modBas i g).hlt = s.hlt := rfl
@[simp] theorem State.modBas_pwr (i : BasinId) (g : Basin → Basin) : (s.modBas i g).pwr = s.pwr := rfl
@[simp] theorem State.modBas_dbg (i : BasinId) (g : Basin → Basin) : (s.modBas i g).dbg = s.dbg := rfl
@[simp] theorem State.modBas_pending (i : BasinId) (g : Basin → Basin) : (s.modBas i g).pending = s.pending := rfl

@[simp] theorem State.modLMap_lmap (i : Lch) (g : LMap → LMap) : (s.modLMap i g).lmap = vmod s.lmap i g := rfl
@[simp] theorem State.modLMap_tb (i : Lch) (g : LMap → LMap) : (s.modLMap i g).tb = s.tb := rfl
@[simp] theorem State.modLMap_rsv (i : Lch) (g : LMap → LMap) : (s.modLMap i g).rsv = s.rsv := rfl
@[simp] theorem State.modLMap_nv (i : Lch) (g : LMap → LMap) : (s.modLMap i g).nv = s.nv := rfl
@[simp] theorem State.modLMap_fsh (i : Lch) (g : LMap → LMap) : (s.modLMap i g).fsh = s.fsh := rfl
@[simp] theorem State.modLMap_cal (i : Lch) (g : LMap → LMap) : (s.modLMap i g).cal = s.cal := rfl
@[simp] theorem State.modLMap_units (i : Lch) (g : LMap → LMap) : (s.modLMap i g).units = s.units := rfl
@[simp] theorem State.modLMap_tio (i : Lch) (g : LMap → LMap) : (s.modLMap i g).tio = s.tio := rfl
@[simp] theorem State.modLMap_pad (i : Lch) (g : LMap → LMap) : (s.modLMap i g).pad = s.pad := rfl
@[simp] theorem State.modLMap_padZ (i : Lch) (g : LMap → LMap) : (s.modLMap i g).padZ = s.padZ := rfl
@[simp] theorem State.modLMap_psn (i : Lch) (g : LMap → LMap) : (s.modLMap i g).psn = s.psn := rfl
@[simp] theorem State.modLMap_xing (i : Lch) (g : LMap → LMap) : (s.modLMap i g).xing = s.xing := rfl
@[simp] theorem State.modLMap_arm (i : Lch) (g : LMap → LMap) : (s.modLMap i g).arm = s.arm := rfl
@[simp] theorem State.modLMap_link (i : Lch) (g : LMap → LMap) : (s.modLMap i g).link = s.link := rfl
@[simp] theorem State.modLMap_har (i : Lch) (g : LMap → LMap) : (s.modLMap i g).har = s.har := rfl
@[simp] theorem State.modLMap_thr (i : Lch) (g : LMap → LMap) : (s.modLMap i g).thr = s.thr := rfl
@[simp] theorem State.modLMap_eng (i : Lch) (g : LMap → LMap) : (s.modLMap i g).eng = s.eng := rfl
@[simp] theorem State.modLMap_prog (i : Lch) (g : LMap → LMap) : (s.modLMap i g).prog = s.prog := rfl
@[simp] theorem State.modLMap_frm (i : Lch) (g : LMap → LMap) : (s.modLMap i g).frm = s.frm := rfl
@[simp] theorem State.modLMap_bas (i : Lch) (g : LMap → LMap) : (s.modLMap i g).bas = s.bas := rfl
@[simp] theorem State.modLMap_bmem (i : Lch) (g : LMap → LMap) : (s.modLMap i g).bmem = s.bmem := rfl
@[simp] theorem State.modLMap_ost (i : Lch) (g : LMap → LMap) : (s.modLMap i g).ost = s.ost := rfl
@[simp] theorem State.modLMap_spw (i : Lch) (g : LMap → LMap) : (s.modLMap i g).spw = s.spw := rfl
@[simp] theorem State.modLMap_gt (i : Lch) (g : LMap → LMap) : (s.modLMap i g).gt = s.gt := rfl
@[simp] theorem State.modLMap_conv (i : Lch) (g : LMap → LMap) : (s.modLMap i g).conv = s.conv := rfl
@[simp] theorem State.modLMap_prb (i : Lch) (g : LMap → LMap) : (s.modLMap i g).prb = s.prb := rfl
@[simp] theorem State.modLMap_ps (i : Lch) (g : LMap → LMap) : (s.modLMap i g).ps = s.ps := rfl
@[simp] theorem State.modLMap_rcd (i : Lch) (g : LMap → LMap) : (s.modLMap i g).rcd = s.rcd := rfl
@[simp] theorem State.modLMap_host (i : Lch) (g : LMap → LMap) : (s.modLMap i g).host = s.host := rfl
@[simp] theorem State.modLMap_irq (i : Lch) (g : LMap → LMap) : (s.modLMap i g).irq = s.irq := rfl
@[simp] theorem State.modLMap_far (i : Lch) (g : LMap → LMap) : (s.modLMap i g).far = s.far := rfl
@[simp] theorem State.modLMap_hlt (i : Lch) (g : LMap → LMap) : (s.modLMap i g).hlt = s.hlt := rfl
@[simp] theorem State.modLMap_pwr (i : Lch) (g : LMap → LMap) : (s.modLMap i g).pwr = s.pwr := rfl
@[simp] theorem State.modLMap_dbg (i : Lch) (g : LMap → LMap) : (s.modLMap i g).dbg = s.dbg := rfl
@[simp] theorem State.modLMap_pending (i : Lch) (g : LMap → LMap) : (s.modLMap i g).pending = s.pending := rfl

@[simp] theorem State.modGt_gt (i : Fin 2) (g : Tracker → Tracker) : (s.modGt i g).gt = vmod s.gt i g := rfl
@[simp] theorem State.modGt_tb (i : Fin 2) (g : Tracker → Tracker) : (s.modGt i g).tb = s.tb := rfl
@[simp] theorem State.modGt_rsv (i : Fin 2) (g : Tracker → Tracker) : (s.modGt i g).rsv = s.rsv := rfl
@[simp] theorem State.modGt_nv (i : Fin 2) (g : Tracker → Tracker) : (s.modGt i g).nv = s.nv := rfl
@[simp] theorem State.modGt_fsh (i : Fin 2) (g : Tracker → Tracker) : (s.modGt i g).fsh = s.fsh := rfl
@[simp] theorem State.modGt_cal (i : Fin 2) (g : Tracker → Tracker) : (s.modGt i g).cal = s.cal := rfl
@[simp] theorem State.modGt_units (i : Fin 2) (g : Tracker → Tracker) : (s.modGt i g).units = s.units := rfl
@[simp] theorem State.modGt_tio (i : Fin 2) (g : Tracker → Tracker) : (s.modGt i g).tio = s.tio := rfl
@[simp] theorem State.modGt_pad (i : Fin 2) (g : Tracker → Tracker) : (s.modGt i g).pad = s.pad := rfl
@[simp] theorem State.modGt_padZ (i : Fin 2) (g : Tracker → Tracker) : (s.modGt i g).padZ = s.padZ := rfl
@[simp] theorem State.modGt_psn (i : Fin 2) (g : Tracker → Tracker) : (s.modGt i g).psn = s.psn := rfl
@[simp] theorem State.modGt_xing (i : Fin 2) (g : Tracker → Tracker) : (s.modGt i g).xing = s.xing := rfl
@[simp] theorem State.modGt_arm (i : Fin 2) (g : Tracker → Tracker) : (s.modGt i g).arm = s.arm := rfl
@[simp] theorem State.modGt_link (i : Fin 2) (g : Tracker → Tracker) : (s.modGt i g).link = s.link := rfl
@[simp] theorem State.modGt_har (i : Fin 2) (g : Tracker → Tracker) : (s.modGt i g).har = s.har := rfl
@[simp] theorem State.modGt_thr (i : Fin 2) (g : Tracker → Tracker) : (s.modGt i g).thr = s.thr := rfl
@[simp] theorem State.modGt_eng (i : Fin 2) (g : Tracker → Tracker) : (s.modGt i g).eng = s.eng := rfl
@[simp] theorem State.modGt_prog (i : Fin 2) (g : Tracker → Tracker) : (s.modGt i g).prog = s.prog := rfl
@[simp] theorem State.modGt_frm (i : Fin 2) (g : Tracker → Tracker) : (s.modGt i g).frm = s.frm := rfl
@[simp] theorem State.modGt_bas (i : Fin 2) (g : Tracker → Tracker) : (s.modGt i g).bas = s.bas := rfl
@[simp] theorem State.modGt_bmem (i : Fin 2) (g : Tracker → Tracker) : (s.modGt i g).bmem = s.bmem := rfl
@[simp] theorem State.modGt_lmap (i : Fin 2) (g : Tracker → Tracker) : (s.modGt i g).lmap = s.lmap := rfl
@[simp] theorem State.modGt_ost (i : Fin 2) (g : Tracker → Tracker) : (s.modGt i g).ost = s.ost := rfl
@[simp] theorem State.modGt_spw (i : Fin 2) (g : Tracker → Tracker) : (s.modGt i g).spw = s.spw := rfl
@[simp] theorem State.modGt_conv (i : Fin 2) (g : Tracker → Tracker) : (s.modGt i g).conv = s.conv := rfl
@[simp] theorem State.modGt_prb (i : Fin 2) (g : Tracker → Tracker) : (s.modGt i g).prb = s.prb := rfl
@[simp] theorem State.modGt_ps (i : Fin 2) (g : Tracker → Tracker) : (s.modGt i g).ps = s.ps := rfl
@[simp] theorem State.modGt_rcd (i : Fin 2) (g : Tracker → Tracker) : (s.modGt i g).rcd = s.rcd := rfl
@[simp] theorem State.modGt_host (i : Fin 2) (g : Tracker → Tracker) : (s.modGt i g).host = s.host := rfl
@[simp] theorem State.modGt_irq (i : Fin 2) (g : Tracker → Tracker) : (s.modGt i g).irq = s.irq := rfl
@[simp] theorem State.modGt_far (i : Fin 2) (g : Tracker → Tracker) : (s.modGt i g).far = s.far := rfl
@[simp] theorem State.modGt_hlt (i : Fin 2) (g : Tracker → Tracker) : (s.modGt i g).hlt = s.hlt := rfl
@[simp] theorem State.modGt_pwr (i : Fin 2) (g : Tracker → Tracker) : (s.modGt i g).pwr = s.pwr := rfl
@[simp] theorem State.modGt_dbg (i : Fin 2) (g : Tracker → Tracker) : (s.modGt i g).dbg = s.dbg := rfl
@[simp] theorem State.modGt_pending (i : Fin 2) (g : Tracker → Tracker) : (s.modGt i g).pending = s.pending := rfl

@[simp] theorem State.modConv_conv (i : Fin 2) (g : Conv → Conv) : (s.modConv i g).conv = vmod s.conv i g := rfl
@[simp] theorem State.modConv_tb (i : Fin 2) (g : Conv → Conv) : (s.modConv i g).tb = s.tb := rfl
@[simp] theorem State.modConv_rsv (i : Fin 2) (g : Conv → Conv) : (s.modConv i g).rsv = s.rsv := rfl
@[simp] theorem State.modConv_nv (i : Fin 2) (g : Conv → Conv) : (s.modConv i g).nv = s.nv := rfl
@[simp] theorem State.modConv_fsh (i : Fin 2) (g : Conv → Conv) : (s.modConv i g).fsh = s.fsh := rfl
@[simp] theorem State.modConv_cal (i : Fin 2) (g : Conv → Conv) : (s.modConv i g).cal = s.cal := rfl
@[simp] theorem State.modConv_units (i : Fin 2) (g : Conv → Conv) : (s.modConv i g).units = s.units := rfl
@[simp] theorem State.modConv_tio (i : Fin 2) (g : Conv → Conv) : (s.modConv i g).tio = s.tio := rfl
@[simp] theorem State.modConv_pad (i : Fin 2) (g : Conv → Conv) : (s.modConv i g).pad = s.pad := rfl
@[simp] theorem State.modConv_padZ (i : Fin 2) (g : Conv → Conv) : (s.modConv i g).padZ = s.padZ := rfl
@[simp] theorem State.modConv_psn (i : Fin 2) (g : Conv → Conv) : (s.modConv i g).psn = s.psn := rfl
@[simp] theorem State.modConv_xing (i : Fin 2) (g : Conv → Conv) : (s.modConv i g).xing = s.xing := rfl
@[simp] theorem State.modConv_arm (i : Fin 2) (g : Conv → Conv) : (s.modConv i g).arm = s.arm := rfl
@[simp] theorem State.modConv_link (i : Fin 2) (g : Conv → Conv) : (s.modConv i g).link = s.link := rfl
@[simp] theorem State.modConv_har (i : Fin 2) (g : Conv → Conv) : (s.modConv i g).har = s.har := rfl
@[simp] theorem State.modConv_thr (i : Fin 2) (g : Conv → Conv) : (s.modConv i g).thr = s.thr := rfl
@[simp] theorem State.modConv_eng (i : Fin 2) (g : Conv → Conv) : (s.modConv i g).eng = s.eng := rfl
@[simp] theorem State.modConv_prog (i : Fin 2) (g : Conv → Conv) : (s.modConv i g).prog = s.prog := rfl
@[simp] theorem State.modConv_frm (i : Fin 2) (g : Conv → Conv) : (s.modConv i g).frm = s.frm := rfl
@[simp] theorem State.modConv_bas (i : Fin 2) (g : Conv → Conv) : (s.modConv i g).bas = s.bas := rfl
@[simp] theorem State.modConv_bmem (i : Fin 2) (g : Conv → Conv) : (s.modConv i g).bmem = s.bmem := rfl
@[simp] theorem State.modConv_lmap (i : Fin 2) (g : Conv → Conv) : (s.modConv i g).lmap = s.lmap := rfl
@[simp] theorem State.modConv_ost (i : Fin 2) (g : Conv → Conv) : (s.modConv i g).ost = s.ost := rfl
@[simp] theorem State.modConv_spw (i : Fin 2) (g : Conv → Conv) : (s.modConv i g).spw = s.spw := rfl
@[simp] theorem State.modConv_gt (i : Fin 2) (g : Conv → Conv) : (s.modConv i g).gt = s.gt := rfl
@[simp] theorem State.modConv_prb (i : Fin 2) (g : Conv → Conv) : (s.modConv i g).prb = s.prb := rfl
@[simp] theorem State.modConv_ps (i : Fin 2) (g : Conv → Conv) : (s.modConv i g).ps = s.ps := rfl
@[simp] theorem State.modConv_rcd (i : Fin 2) (g : Conv → Conv) : (s.modConv i g).rcd = s.rcd := rfl
@[simp] theorem State.modConv_host (i : Fin 2) (g : Conv → Conv) : (s.modConv i g).host = s.host := rfl
@[simp] theorem State.modConv_irq (i : Fin 2) (g : Conv → Conv) : (s.modConv i g).irq = s.irq := rfl
@[simp] theorem State.modConv_far (i : Fin 2) (g : Conv → Conv) : (s.modConv i g).far = s.far := rfl
@[simp] theorem State.modConv_hlt (i : Fin 2) (g : Conv → Conv) : (s.modConv i g).hlt = s.hlt := rfl
@[simp] theorem State.modConv_pwr (i : Fin 2) (g : Conv → Conv) : (s.modConv i g).pwr = s.pwr := rfl
@[simp] theorem State.modConv_dbg (i : Fin 2) (g : Conv → Conv) : (s.modConv i g).dbg = s.dbg := rfl
@[simp] theorem State.modConv_pending (i : Fin 2) (g : Conv → Conv) : (s.modConv i g).pending = s.pending := rfl

@[simp] theorem State.modPrb_prb (i : Fin 16) (g : Probe → Probe) : (s.modPrb i g).prb = vmod s.prb i g := rfl
@[simp] theorem State.modPrb_tb (i : Fin 16) (g : Probe → Probe) : (s.modPrb i g).tb = s.tb := rfl
@[simp] theorem State.modPrb_rsv (i : Fin 16) (g : Probe → Probe) : (s.modPrb i g).rsv = s.rsv := rfl
@[simp] theorem State.modPrb_nv (i : Fin 16) (g : Probe → Probe) : (s.modPrb i g).nv = s.nv := rfl
@[simp] theorem State.modPrb_fsh (i : Fin 16) (g : Probe → Probe) : (s.modPrb i g).fsh = s.fsh := rfl
@[simp] theorem State.modPrb_cal (i : Fin 16) (g : Probe → Probe) : (s.modPrb i g).cal = s.cal := rfl
@[simp] theorem State.modPrb_units (i : Fin 16) (g : Probe → Probe) : (s.modPrb i g).units = s.units := rfl
@[simp] theorem State.modPrb_tio (i : Fin 16) (g : Probe → Probe) : (s.modPrb i g).tio = s.tio := rfl
@[simp] theorem State.modPrb_pad (i : Fin 16) (g : Probe → Probe) : (s.modPrb i g).pad = s.pad := rfl
@[simp] theorem State.modPrb_padZ (i : Fin 16) (g : Probe → Probe) : (s.modPrb i g).padZ = s.padZ := rfl
@[simp] theorem State.modPrb_psn (i : Fin 16) (g : Probe → Probe) : (s.modPrb i g).psn = s.psn := rfl
@[simp] theorem State.modPrb_xing (i : Fin 16) (g : Probe → Probe) : (s.modPrb i g).xing = s.xing := rfl
@[simp] theorem State.modPrb_arm (i : Fin 16) (g : Probe → Probe) : (s.modPrb i g).arm = s.arm := rfl
@[simp] theorem State.modPrb_link (i : Fin 16) (g : Probe → Probe) : (s.modPrb i g).link = s.link := rfl
@[simp] theorem State.modPrb_har (i : Fin 16) (g : Probe → Probe) : (s.modPrb i g).har = s.har := rfl
@[simp] theorem State.modPrb_thr (i : Fin 16) (g : Probe → Probe) : (s.modPrb i g).thr = s.thr := rfl
@[simp] theorem State.modPrb_eng (i : Fin 16) (g : Probe → Probe) : (s.modPrb i g).eng = s.eng := rfl
@[simp] theorem State.modPrb_prog (i : Fin 16) (g : Probe → Probe) : (s.modPrb i g).prog = s.prog := rfl
@[simp] theorem State.modPrb_frm (i : Fin 16) (g : Probe → Probe) : (s.modPrb i g).frm = s.frm := rfl
@[simp] theorem State.modPrb_bas (i : Fin 16) (g : Probe → Probe) : (s.modPrb i g).bas = s.bas := rfl
@[simp] theorem State.modPrb_bmem (i : Fin 16) (g : Probe → Probe) : (s.modPrb i g).bmem = s.bmem := rfl
@[simp] theorem State.modPrb_lmap (i : Fin 16) (g : Probe → Probe) : (s.modPrb i g).lmap = s.lmap := rfl
@[simp] theorem State.modPrb_ost (i : Fin 16) (g : Probe → Probe) : (s.modPrb i g).ost = s.ost := rfl
@[simp] theorem State.modPrb_spw (i : Fin 16) (g : Probe → Probe) : (s.modPrb i g).spw = s.spw := rfl
@[simp] theorem State.modPrb_gt (i : Fin 16) (g : Probe → Probe) : (s.modPrb i g).gt = s.gt := rfl
@[simp] theorem State.modPrb_conv (i : Fin 16) (g : Probe → Probe) : (s.modPrb i g).conv = s.conv := rfl
@[simp] theorem State.modPrb_ps (i : Fin 16) (g : Probe → Probe) : (s.modPrb i g).ps = s.ps := rfl
@[simp] theorem State.modPrb_rcd (i : Fin 16) (g : Probe → Probe) : (s.modPrb i g).rcd = s.rcd := rfl
@[simp] theorem State.modPrb_host (i : Fin 16) (g : Probe → Probe) : (s.modPrb i g).host = s.host := rfl
@[simp] theorem State.modPrb_irq (i : Fin 16) (g : Probe → Probe) : (s.modPrb i g).irq = s.irq := rfl
@[simp] theorem State.modPrb_far (i : Fin 16) (g : Probe → Probe) : (s.modPrb i g).far = s.far := rfl
@[simp] theorem State.modPrb_hlt (i : Fin 16) (g : Probe → Probe) : (s.modPrb i g).hlt = s.hlt := rfl
@[simp] theorem State.modPrb_pwr (i : Fin 16) (g : Probe → Probe) : (s.modPrb i g).pwr = s.pwr := rfl
@[simp] theorem State.modPrb_dbg (i : Fin 16) (g : Probe → Probe) : (s.modPrb i g).dbg = s.dbg := rfl
@[simp] theorem State.modPrb_pending (i : Fin 16) (g : Probe → Probe) : (s.modPrb i g).pending = s.pending := rfl

@[simp] theorem State.modXing_xing (i : Fin 70) (g : Crossing → Crossing) : (s.modXing i g).xing = vmod s.xing i g := rfl
@[simp] theorem State.modXing_arm (i : Fin 70) (g : Crossing → Crossing) : (s.modXing i g).arm = s.arm := rfl
@[simp] theorem State.modXing_tb (i : Fin 70) (g : Crossing → Crossing) : (s.modXing i g).tb = s.tb := rfl
@[simp] theorem State.modXing_rsv (i : Fin 70) (g : Crossing → Crossing) : (s.modXing i g).rsv = s.rsv := rfl
@[simp] theorem State.modXing_nv (i : Fin 70) (g : Crossing → Crossing) : (s.modXing i g).nv = s.nv := rfl
@[simp] theorem State.modXing_fsh (i : Fin 70) (g : Crossing → Crossing) : (s.modXing i g).fsh = s.fsh := rfl
@[simp] theorem State.modXing_cal (i : Fin 70) (g : Crossing → Crossing) : (s.modXing i g).cal = s.cal := rfl
@[simp] theorem State.modXing_units (i : Fin 70) (g : Crossing → Crossing) : (s.modXing i g).units = s.units := rfl
@[simp] theorem State.modXing_tio (i : Fin 70) (g : Crossing → Crossing) : (s.modXing i g).tio = s.tio := rfl
@[simp] theorem State.modXing_pad (i : Fin 70) (g : Crossing → Crossing) : (s.modXing i g).pad = s.pad := rfl
@[simp] theorem State.modXing_padZ (i : Fin 70) (g : Crossing → Crossing) : (s.modXing i g).padZ = s.padZ := rfl
@[simp] theorem State.modXing_psn (i : Fin 70) (g : Crossing → Crossing) : (s.modXing i g).psn = s.psn := rfl
@[simp] theorem State.modXing_link (i : Fin 70) (g : Crossing → Crossing) : (s.modXing i g).link = s.link := rfl
@[simp] theorem State.modXing_har (i : Fin 70) (g : Crossing → Crossing) : (s.modXing i g).har = s.har := rfl
@[simp] theorem State.modXing_thr (i : Fin 70) (g : Crossing → Crossing) : (s.modXing i g).thr = s.thr := rfl
@[simp] theorem State.modXing_eng (i : Fin 70) (g : Crossing → Crossing) : (s.modXing i g).eng = s.eng := rfl
@[simp] theorem State.modXing_prog (i : Fin 70) (g : Crossing → Crossing) : (s.modXing i g).prog = s.prog := rfl
@[simp] theorem State.modXing_frm (i : Fin 70) (g : Crossing → Crossing) : (s.modXing i g).frm = s.frm := rfl
@[simp] theorem State.modXing_bas (i : Fin 70) (g : Crossing → Crossing) : (s.modXing i g).bas = s.bas := rfl
@[simp] theorem State.modXing_bmem (i : Fin 70) (g : Crossing → Crossing) : (s.modXing i g).bmem = s.bmem := rfl
@[simp] theorem State.modXing_lmap (i : Fin 70) (g : Crossing → Crossing) : (s.modXing i g).lmap = s.lmap := rfl
@[simp] theorem State.modXing_ost (i : Fin 70) (g : Crossing → Crossing) : (s.modXing i g).ost = s.ost := rfl
@[simp] theorem State.modXing_spw (i : Fin 70) (g : Crossing → Crossing) : (s.modXing i g).spw = s.spw := rfl
@[simp] theorem State.modXing_gt (i : Fin 70) (g : Crossing → Crossing) : (s.modXing i g).gt = s.gt := rfl
@[simp] theorem State.modXing_conv (i : Fin 70) (g : Crossing → Crossing) : (s.modXing i g).conv = s.conv := rfl
@[simp] theorem State.modXing_prb (i : Fin 70) (g : Crossing → Crossing) : (s.modXing i g).prb = s.prb := rfl
@[simp] theorem State.modXing_ps (i : Fin 70) (g : Crossing → Crossing) : (s.modXing i g).ps = s.ps := rfl
@[simp] theorem State.modXing_rcd (i : Fin 70) (g : Crossing → Crossing) : (s.modXing i g).rcd = s.rcd := rfl
@[simp] theorem State.modXing_host (i : Fin 70) (g : Crossing → Crossing) : (s.modXing i g).host = s.host := rfl
@[simp] theorem State.modXing_irq (i : Fin 70) (g : Crossing → Crossing) : (s.modXing i g).irq = s.irq := rfl
@[simp] theorem State.modXing_far (i : Fin 70) (g : Crossing → Crossing) : (s.modXing i g).far = s.far := rfl
@[simp] theorem State.modXing_hlt (i : Fin 70) (g : Crossing → Crossing) : (s.modXing i g).hlt = s.hlt := rfl
@[simp] theorem State.modXing_pwr (i : Fin 70) (g : Crossing → Crossing) : (s.modXing i g).pwr = s.pwr := rfl
@[simp] theorem State.modXing_dbg (i : Fin 70) (g : Crossing → Crossing) : (s.modXing i g).dbg = s.dbg := rfl
@[simp] theorem State.modXing_pending (i : Fin 70) (g : Crossing → Crossing) : (s.modXing i g).pending = s.pending := rfl

@[simp] theorem State.modSpw_spw (g : Spillway → Spillway) : (s.modSpw g).spw = g s.spw := rfl
@[simp] theorem State.modSpw_tb (g : Spillway → Spillway) : (s.modSpw g).tb = s.tb := rfl
@[simp] theorem State.modSpw_rsv (g : Spillway → Spillway) : (s.modSpw g).rsv = s.rsv := rfl
@[simp] theorem State.modSpw_nv (g : Spillway → Spillway) : (s.modSpw g).nv = s.nv := rfl
@[simp] theorem State.modSpw_fsh (g : Spillway → Spillway) : (s.modSpw g).fsh = s.fsh := rfl
@[simp] theorem State.modSpw_cal (g : Spillway → Spillway) : (s.modSpw g).cal = s.cal := rfl
@[simp] theorem State.modSpw_units (g : Spillway → Spillway) : (s.modSpw g).units = s.units := rfl
@[simp] theorem State.modSpw_tio (g : Spillway → Spillway) : (s.modSpw g).tio = s.tio := rfl
@[simp] theorem State.modSpw_pad (g : Spillway → Spillway) : (s.modSpw g).pad = s.pad := rfl
@[simp] theorem State.modSpw_padZ (g : Spillway → Spillway) : (s.modSpw g).padZ = s.padZ := rfl
@[simp] theorem State.modSpw_psn (g : Spillway → Spillway) : (s.modSpw g).psn = s.psn := rfl
@[simp] theorem State.modSpw_xing (g : Spillway → Spillway) : (s.modSpw g).xing = s.xing := rfl
@[simp] theorem State.modSpw_arm (g : Spillway → Spillway) : (s.modSpw g).arm = s.arm := rfl
@[simp] theorem State.modSpw_link (g : Spillway → Spillway) : (s.modSpw g).link = s.link := rfl
@[simp] theorem State.modSpw_har (g : Spillway → Spillway) : (s.modSpw g).har = s.har := rfl
@[simp] theorem State.modSpw_thr (g : Spillway → Spillway) : (s.modSpw g).thr = s.thr := rfl
@[simp] theorem State.modSpw_eng (g : Spillway → Spillway) : (s.modSpw g).eng = s.eng := rfl
@[simp] theorem State.modSpw_prog (g : Spillway → Spillway) : (s.modSpw g).prog = s.prog := rfl
@[simp] theorem State.modSpw_frm (g : Spillway → Spillway) : (s.modSpw g).frm = s.frm := rfl
@[simp] theorem State.modSpw_bas (g : Spillway → Spillway) : (s.modSpw g).bas = s.bas := rfl
@[simp] theorem State.modSpw_bmem (g : Spillway → Spillway) : (s.modSpw g).bmem = s.bmem := rfl
@[simp] theorem State.modSpw_lmap (g : Spillway → Spillway) : (s.modSpw g).lmap = s.lmap := rfl
@[simp] theorem State.modSpw_ost (g : Spillway → Spillway) : (s.modSpw g).ost = s.ost := rfl
@[simp] theorem State.modSpw_gt (g : Spillway → Spillway) : (s.modSpw g).gt = s.gt := rfl
@[simp] theorem State.modSpw_conv (g : Spillway → Spillway) : (s.modSpw g).conv = s.conv := rfl
@[simp] theorem State.modSpw_prb (g : Spillway → Spillway) : (s.modSpw g).prb = s.prb := rfl
@[simp] theorem State.modSpw_ps (g : Spillway → Spillway) : (s.modSpw g).ps = s.ps := rfl
@[simp] theorem State.modSpw_rcd (g : Spillway → Spillway) : (s.modSpw g).rcd = s.rcd := rfl
@[simp] theorem State.modSpw_host (g : Spillway → Spillway) : (s.modSpw g).host = s.host := rfl
@[simp] theorem State.modSpw_irq (g : Spillway → Spillway) : (s.modSpw g).irq = s.irq := rfl
@[simp] theorem State.modSpw_far (g : Spillway → Spillway) : (s.modSpw g).far = s.far := rfl
@[simp] theorem State.modSpw_hlt (g : Spillway → Spillway) : (s.modSpw g).hlt = s.hlt := rfl
@[simp] theorem State.modSpw_pwr (g : Spillway → Spillway) : (s.modSpw g).pwr = s.pwr := rfl
@[simp] theorem State.modSpw_dbg (g : Spillway → Spillway) : (s.modSpw g).dbg = s.dbg := rfl
@[simp] theorem State.modSpw_pending (g : Spillway → Spillway) : (s.modSpw g).pending = s.pending := rfl

@[simp] theorem State.modEnt_spw (i : Fin 256) (g : SpwEnt → SpwEnt) : (s.modEnt i g).spw = { s.spw with ent := vmod s.spw.ent i g } := rfl
@[simp] theorem State.modEnt_tb (i : Fin 256) (g : SpwEnt → SpwEnt) : (s.modEnt i g).tb = s.tb := rfl
@[simp] theorem State.modEnt_rsv (i : Fin 256) (g : SpwEnt → SpwEnt) : (s.modEnt i g).rsv = s.rsv := rfl
@[simp] theorem State.modEnt_nv (i : Fin 256) (g : SpwEnt → SpwEnt) : (s.modEnt i g).nv = s.nv := rfl
@[simp] theorem State.modEnt_fsh (i : Fin 256) (g : SpwEnt → SpwEnt) : (s.modEnt i g).fsh = s.fsh := rfl
@[simp] theorem State.modEnt_cal (i : Fin 256) (g : SpwEnt → SpwEnt) : (s.modEnt i g).cal = s.cal := rfl
@[simp] theorem State.modEnt_units (i : Fin 256) (g : SpwEnt → SpwEnt) : (s.modEnt i g).units = s.units := rfl
@[simp] theorem State.modEnt_tio (i : Fin 256) (g : SpwEnt → SpwEnt) : (s.modEnt i g).tio = s.tio := rfl
@[simp] theorem State.modEnt_pad (i : Fin 256) (g : SpwEnt → SpwEnt) : (s.modEnt i g).pad = s.pad := rfl
@[simp] theorem State.modEnt_padZ (i : Fin 256) (g : SpwEnt → SpwEnt) : (s.modEnt i g).padZ = s.padZ := rfl
@[simp] theorem State.modEnt_psn (i : Fin 256) (g : SpwEnt → SpwEnt) : (s.modEnt i g).psn = s.psn := rfl
@[simp] theorem State.modEnt_xing (i : Fin 256) (g : SpwEnt → SpwEnt) : (s.modEnt i g).xing = s.xing := rfl
@[simp] theorem State.modEnt_arm (i : Fin 256) (g : SpwEnt → SpwEnt) : (s.modEnt i g).arm = s.arm := rfl
@[simp] theorem State.modEnt_link (i : Fin 256) (g : SpwEnt → SpwEnt) : (s.modEnt i g).link = s.link := rfl
@[simp] theorem State.modEnt_har (i : Fin 256) (g : SpwEnt → SpwEnt) : (s.modEnt i g).har = s.har := rfl
@[simp] theorem State.modEnt_thr (i : Fin 256) (g : SpwEnt → SpwEnt) : (s.modEnt i g).thr = s.thr := rfl
@[simp] theorem State.modEnt_eng (i : Fin 256) (g : SpwEnt → SpwEnt) : (s.modEnt i g).eng = s.eng := rfl
@[simp] theorem State.modEnt_prog (i : Fin 256) (g : SpwEnt → SpwEnt) : (s.modEnt i g).prog = s.prog := rfl
@[simp] theorem State.modEnt_frm (i : Fin 256) (g : SpwEnt → SpwEnt) : (s.modEnt i g).frm = s.frm := rfl
@[simp] theorem State.modEnt_bas (i : Fin 256) (g : SpwEnt → SpwEnt) : (s.modEnt i g).bas = s.bas := rfl
@[simp] theorem State.modEnt_bmem (i : Fin 256) (g : SpwEnt → SpwEnt) : (s.modEnt i g).bmem = s.bmem := rfl
@[simp] theorem State.modEnt_lmap (i : Fin 256) (g : SpwEnt → SpwEnt) : (s.modEnt i g).lmap = s.lmap := rfl
@[simp] theorem State.modEnt_ost (i : Fin 256) (g : SpwEnt → SpwEnt) : (s.modEnt i g).ost = s.ost := rfl
@[simp] theorem State.modEnt_gt (i : Fin 256) (g : SpwEnt → SpwEnt) : (s.modEnt i g).gt = s.gt := rfl
@[simp] theorem State.modEnt_conv (i : Fin 256) (g : SpwEnt → SpwEnt) : (s.modEnt i g).conv = s.conv := rfl
@[simp] theorem State.modEnt_prb (i : Fin 256) (g : SpwEnt → SpwEnt) : (s.modEnt i g).prb = s.prb := rfl
@[simp] theorem State.modEnt_ps (i : Fin 256) (g : SpwEnt → SpwEnt) : (s.modEnt i g).ps = s.ps := rfl
@[simp] theorem State.modEnt_rcd (i : Fin 256) (g : SpwEnt → SpwEnt) : (s.modEnt i g).rcd = s.rcd := rfl
@[simp] theorem State.modEnt_host (i : Fin 256) (g : SpwEnt → SpwEnt) : (s.modEnt i g).host = s.host := rfl
@[simp] theorem State.modEnt_irq (i : Fin 256) (g : SpwEnt → SpwEnt) : (s.modEnt i g).irq = s.irq := rfl
@[simp] theorem State.modEnt_far (i : Fin 256) (g : SpwEnt → SpwEnt) : (s.modEnt i g).far = s.far := rfl
@[simp] theorem State.modEnt_hlt (i : Fin 256) (g : SpwEnt → SpwEnt) : (s.modEnt i g).hlt = s.hlt := rfl
@[simp] theorem State.modEnt_pwr (i : Fin 256) (g : SpwEnt → SpwEnt) : (s.modEnt i g).pwr = s.pwr := rfl
@[simp] theorem State.modEnt_dbg (i : Fin 256) (g : SpwEnt → SpwEnt) : (s.modEnt i g).dbg = s.dbg := rfl
@[simp] theorem State.modEnt_pending (i : Fin 256) (g : SpwEnt → SpwEnt) : (s.modEnt i g).pending = s.pending := rfl

/-! ### Time -/

/-- Letting time pass changes the timebase alone. -/
theorem advanceTo_eq (t : Instant) : advanceTo t s = { s with tb := (advanceTo t s).tb } := by
  unfold advanceTo
  split <;> rfl

@[simp] theorem advanceTo_rsv (t : Instant) : (advanceTo t s).rsv = s.rsv := by
  rw [advanceTo_eq]
@[simp] theorem advanceTo_nv (t : Instant) : (advanceTo t s).nv = s.nv := by
  rw [advanceTo_eq]
@[simp] theorem advanceTo_fsh (t : Instant) : (advanceTo t s).fsh = s.fsh := by
  rw [advanceTo_eq]
@[simp] theorem advanceTo_cal (t : Instant) : (advanceTo t s).cal = s.cal := by
  rw [advanceTo_eq]
@[simp] theorem advanceTo_units (t : Instant) : (advanceTo t s).units = s.units := by
  rw [advanceTo_eq]
@[simp] theorem advanceTo_tio (t : Instant) : (advanceTo t s).tio = s.tio := by
  rw [advanceTo_eq]
@[simp] theorem advanceTo_pad (t : Instant) : (advanceTo t s).pad = s.pad := by
  rw [advanceTo_eq]
@[simp] theorem advanceTo_padZ (t : Instant) : (advanceTo t s).padZ = s.padZ := by
  rw [advanceTo_eq]
@[simp] theorem advanceTo_psn (t : Instant) : (advanceTo t s).psn = s.psn := by
  rw [advanceTo_eq]
@[simp] theorem advanceTo_xing (t : Instant) : (advanceTo t s).xing = s.xing := by
  rw [advanceTo_eq]
@[simp] theorem advanceTo_arm (t : Instant) : (advanceTo t s).arm = s.arm := by
  rw [advanceTo_eq]
@[simp] theorem advanceTo_link (t : Instant) : (advanceTo t s).link = s.link := by
  rw [advanceTo_eq]
@[simp] theorem advanceTo_har (t : Instant) : (advanceTo t s).har = s.har := by
  rw [advanceTo_eq]
@[simp] theorem advanceTo_thr (t : Instant) : (advanceTo t s).thr = s.thr := by
  rw [advanceTo_eq]
@[simp] theorem advanceTo_eng (t : Instant) : (advanceTo t s).eng = s.eng := by
  rw [advanceTo_eq]
@[simp] theorem advanceTo_prog (t : Instant) : (advanceTo t s).prog = s.prog := by
  rw [advanceTo_eq]
@[simp] theorem advanceTo_frm (t : Instant) : (advanceTo t s).frm = s.frm := by
  rw [advanceTo_eq]
@[simp] theorem advanceTo_bas (t : Instant) : (advanceTo t s).bas = s.bas := by
  rw [advanceTo_eq]
@[simp] theorem advanceTo_bmem (t : Instant) : (advanceTo t s).bmem = s.bmem := by
  rw [advanceTo_eq]
@[simp] theorem advanceTo_lmap (t : Instant) : (advanceTo t s).lmap = s.lmap := by
  rw [advanceTo_eq]
@[simp] theorem advanceTo_ost (t : Instant) : (advanceTo t s).ost = s.ost := by
  rw [advanceTo_eq]
@[simp] theorem advanceTo_spw (t : Instant) : (advanceTo t s).spw = s.spw := by
  rw [advanceTo_eq]
@[simp] theorem advanceTo_gt (t : Instant) : (advanceTo t s).gt = s.gt := by
  rw [advanceTo_eq]
@[simp] theorem advanceTo_conv (t : Instant) : (advanceTo t s).conv = s.conv := by
  rw [advanceTo_eq]
@[simp] theorem advanceTo_prb (t : Instant) : (advanceTo t s).prb = s.prb := by
  rw [advanceTo_eq]
@[simp] theorem advanceTo_ps (t : Instant) : (advanceTo t s).ps = s.ps := by
  rw [advanceTo_eq]
@[simp] theorem advanceTo_rcd (t : Instant) : (advanceTo t s).rcd = s.rcd := by
  rw [advanceTo_eq]
@[simp] theorem advanceTo_host (t : Instant) : (advanceTo t s).host = s.host := by
  rw [advanceTo_eq]
@[simp] theorem advanceTo_irq (t : Instant) : (advanceTo t s).irq = s.irq := by
  rw [advanceTo_eq]
@[simp] theorem advanceTo_far (t : Instant) : (advanceTo t s).far = s.far := by
  rw [advanceTo_eq]
@[simp] theorem advanceTo_hlt (t : Instant) : (advanceTo t s).hlt = s.hlt := by
  rw [advanceTo_eq]
@[simp] theorem advanceTo_pwr (t : Instant) : (advanceTo t s).pwr = s.pwr := by
  rw [advanceTo_eq]
@[simp] theorem advanceTo_dbg (t : Instant) : (advanceTo t s).dbg = s.dbg := by
  rw [advanceTo_eq]
@[simp] theorem advanceTo_pending (t : Instant) : (advanceTo t s).pending = s.pending := by
  rw [advanceTo_eq]

/-- Letting the tide counter pass changes it alone. -/
theorem tideTo_eq (k : TideCnt) : tideTo k s = { s with rsv := { s.rsv with tide := (tideTo k s).rsv.tide } } := by
  unfold tideTo
  split <;> rfl

@[simp] theorem tideTo_tb (k : TideCnt) : (tideTo k s).tb = s.tb := by
  rw [tideTo_eq]
@[simp] theorem tideTo_nv (k : TideCnt) : (tideTo k s).nv = s.nv := by
  rw [tideTo_eq]
@[simp] theorem tideTo_fsh (k : TideCnt) : (tideTo k s).fsh = s.fsh := by
  rw [tideTo_eq]
@[simp] theorem tideTo_cal (k : TideCnt) : (tideTo k s).cal = s.cal := by
  rw [tideTo_eq]
@[simp] theorem tideTo_units (k : TideCnt) : (tideTo k s).units = s.units := by
  rw [tideTo_eq]
@[simp] theorem tideTo_tio (k : TideCnt) : (tideTo k s).tio = s.tio := by
  rw [tideTo_eq]
@[simp] theorem tideTo_pad (k : TideCnt) : (tideTo k s).pad = s.pad := by
  rw [tideTo_eq]
@[simp] theorem tideTo_padZ (k : TideCnt) : (tideTo k s).padZ = s.padZ := by
  rw [tideTo_eq]
@[simp] theorem tideTo_psn (k : TideCnt) : (tideTo k s).psn = s.psn := by
  rw [tideTo_eq]
@[simp] theorem tideTo_xing (k : TideCnt) : (tideTo k s).xing = s.xing := by
  rw [tideTo_eq]
@[simp] theorem tideTo_arm (k : TideCnt) : (tideTo k s).arm = s.arm := by
  rw [tideTo_eq]
@[simp] theorem tideTo_link (k : TideCnt) : (tideTo k s).link = s.link := by
  rw [tideTo_eq]
@[simp] theorem tideTo_har (k : TideCnt) : (tideTo k s).har = s.har := by
  rw [tideTo_eq]
@[simp] theorem tideTo_thr (k : TideCnt) : (tideTo k s).thr = s.thr := by
  rw [tideTo_eq]
@[simp] theorem tideTo_eng (k : TideCnt) : (tideTo k s).eng = s.eng := by
  rw [tideTo_eq]
@[simp] theorem tideTo_prog (k : TideCnt) : (tideTo k s).prog = s.prog := by
  rw [tideTo_eq]
@[simp] theorem tideTo_frm (k : TideCnt) : (tideTo k s).frm = s.frm := by
  rw [tideTo_eq]
@[simp] theorem tideTo_bas (k : TideCnt) : (tideTo k s).bas = s.bas := by
  rw [tideTo_eq]
@[simp] theorem tideTo_bmem (k : TideCnt) : (tideTo k s).bmem = s.bmem := by
  rw [tideTo_eq]
@[simp] theorem tideTo_lmap (k : TideCnt) : (tideTo k s).lmap = s.lmap := by
  rw [tideTo_eq]
@[simp] theorem tideTo_ost (k : TideCnt) : (tideTo k s).ost = s.ost := by
  rw [tideTo_eq]
@[simp] theorem tideTo_spw (k : TideCnt) : (tideTo k s).spw = s.spw := by
  rw [tideTo_eq]
@[simp] theorem tideTo_gt (k : TideCnt) : (tideTo k s).gt = s.gt := by
  rw [tideTo_eq]
@[simp] theorem tideTo_conv (k : TideCnt) : (tideTo k s).conv = s.conv := by
  rw [tideTo_eq]
@[simp] theorem tideTo_prb (k : TideCnt) : (tideTo k s).prb = s.prb := by
  rw [tideTo_eq]
@[simp] theorem tideTo_ps (k : TideCnt) : (tideTo k s).ps = s.ps := by
  rw [tideTo_eq]
@[simp] theorem tideTo_rcd (k : TideCnt) : (tideTo k s).rcd = s.rcd := by
  rw [tideTo_eq]
@[simp] theorem tideTo_host (k : TideCnt) : (tideTo k s).host = s.host := by
  rw [tideTo_eq]
@[simp] theorem tideTo_irq (k : TideCnt) : (tideTo k s).irq = s.irq := by
  rw [tideTo_eq]
@[simp] theorem tideTo_far (k : TideCnt) : (tideTo k s).far = s.far := by
  rw [tideTo_eq]
@[simp] theorem tideTo_hlt (k : TideCnt) : (tideTo k s).hlt = s.hlt := by
  rw [tideTo_eq]
@[simp] theorem tideTo_pwr (k : TideCnt) : (tideTo k s).pwr = s.pwr := by
  rw [tideTo_eq]
@[simp] theorem tideTo_dbg (k : TideCnt) : (tideTo k s).dbg = s.dbg := by
  rw [tideTo_eq]
@[simp] theorem tideTo_pending (k : TideCnt) : (tideTo k s).pending = s.pending := by
  rw [tideTo_eq]

/-! ### Updates for each element of a list -/

@[simp] theorem forEach_nil {α : Type} (f : α → State → State) : forEach [] f s = s := rfl

@[simp] theorem forEach_cons {α : Type} (a : α) (l : List α) (f : α → State → State) :
    forEach (a :: l) f s = forEach l f (f a s) := rfl

/-- What every element's update keeps, the whole walk keeps. -/
theorem forEach_keeps {α β : Type} (p : State → β) (l : List α) (f : α → State → State)
    (h : ∀ a s, p (f a s) = p s) : p (forEach l f s) = p s := by
  induction l generalizing s with
  | nil => rfl
  | cons a l ih => rw [forEach_cons, ih, h]

end Sys2Proof.Machine
end

