-- ==== Sys2Proof/Laws/Parts.lean ====
section
/-! SUPPORT. What it means that a state differs from another only in some parts, and the lemmas that the laws of this kind go through. -/

namespace Sys2Proof.Machine

open Sys2Proof.Claims

set_option maxRecDepth 4096

def GRes.All (P : State → Prop) : GRes → Prop
  | .ok s _ => P s
  | .jump s _ _ => P s
  | .trap _ _ => True
  | .stop s => P s

def Ans.All (P : State → Prop) : Ans → Prop
  | .reply _ _ s => P s
  | .later s => P s
  | .waits => True

theorem GRes.all_ok (P : State → Prop) (s : State) (n : Nat) : (GRes.ok s n).All P = P s := rfl
theorem GRes.all_jump (P : State → Prop) (s : State) (c : BitVec 19) (n : Nat) : (GRes.jump s c n).All P = P s := rfl
theorem GRes.all_trap (P : State → Prop) (a b : Byte) : (GRes.trap a b).All P = True := rfl
theorem GRes.all_stop (P : State → Prop) (s : State) : (GRes.stop s).All P = P s := rfl
theorem Ans.all_reply (P : State → Prop) (a : Byte) (l : List Byte) (s : State) : (Ans.reply a l s).All P = P s := rfl
theorem Ans.all_later (P : State → Prop) (s : State) : (Ans.later s).All P = P s := rfl
theorem Ans.all_waits (P : State → Prop) : Ans.waits.All P = True := rfl

/-- A state whose parts are these differs from `q` only in parts that `P` allows. -/
def ChP (P : Part → Bool) (q : State) (tb : Timebase) (rsv : Reservoir) (nv : NvBlock) (fsh : FuseShadow) (cal : CalUse) (units : Vector ChanUnit 68) (tio : Vector (BitVec 32) 40) (pad : BitVec 40) (padZ : BitVec 40) (psn : BitVec 6) (xing : Vector Crossing 70) (arm : ArmBlk) (link : LinkBlk) (har : Vector Harness 16) (thr : Vector Thread 64) (eng : Vector Engine 8) (prog : Vector Prog 16) (frm : Vector Frame 128) (bas : Vector Basin 64) (bmem : Mem) (lmap : Vector LMap 64) (ost : Ostler) (spw : Spillway) (gt : Vector Tracker 2) (conv : Vector Conv 2) (prb : Vector Probe 16) (ps : ProbeSys) (rcd : RecordQ) (host : HostIf) (irq : Irq) (far : Farrier) (hlt : Health) (pwr : Power) (dbg : Debug) (pending : List Instr) : Prop :=
  (P .tb = false → tb = q.tb) ∧ (P .rsv = false → rsv = q.rsv) ∧ (P .nv = false → nv = q.nv) ∧ (P .fsh = false → fsh = q.fsh) ∧ (P .cal = false → cal = q.cal) ∧ (P .units = false → units = q.units) ∧ (P .tio = false → tio = q.tio) ∧ (P .pad = false → pad = q.pad) ∧ (P .padZ = false → padZ = q.padZ) ∧ (P .psn = false → psn = q.psn) ∧ (P .xing = false → xing = q.xing) ∧ (P .arm = false → arm = q.arm) ∧ (P .link = false → link = q.link) ∧ (P .har = false → har = q.har) ∧ (P .thr = false → thr = q.thr) ∧ (P .eng = false → eng = q.eng) ∧ (P .prog = false → prog = q.prog) ∧ (P .frm = false → frm = q.frm) ∧ (P .bas = false → bas = q.bas) ∧ (P .bmem = false → bmem = q.bmem) ∧ (P .lmap = false → lmap = q.lmap) ∧ (P .ost = false → ost = q.ost) ∧ (P .spw = false → spw = q.spw) ∧ (P .gt = false → gt = q.gt) ∧ (P .conv = false → conv = q.conv) ∧ (P .prb = false → prb = q.prb) ∧ (P .ps = false → ps = q.ps) ∧ (P .rcd = false → rcd = q.rcd) ∧ (P .host = false → host = q.host) ∧ (P .irq = false → irq = q.irq) ∧ (P .far = false → far = q.far) ∧ (P .hlt = false → hlt = q.hlt) ∧ (P .pwr = false → pwr = q.pwr) ∧ (P .dbg = false → dbg = q.dbg) ∧ (P .pending = false → pending = q.pending)

/-- `t` differs from `q` only in parts that `P` allows. -/
@[reducible] def Ch (P : Part → Bool) (q t : State) : Prop :=
  ChP P q t.tb t.rsv t.nv t.fsh t.cal t.units t.tio t.pad t.padZ t.psn t.xing t.arm t.link t.har t.thr t.eng t.prog t.frm t.bas t.bmem t.lmap t.ost t.spw t.gt t.conv t.prb t.ps t.rcd t.host t.irq t.far t.hlt t.pwr t.dbg t.pending

theorem Ch.refl (P : Part → Bool) (q : State) : Ch P q q := by
  unfold Ch ChP
  exact ⟨fun _ => rfl, fun _ => rfl, fun _ => rfl, fun _ => rfl, fun _ => rfl, fun _ => rfl, fun _ => rfl, fun _ => rfl, fun _ => rfl, fun _ => rfl, fun _ => rfl, fun _ => rfl, fun _ => rfl, fun _ => rfl, fun _ => rfl, fun _ => rfl, fun _ => rfl, fun _ => rfl, fun _ => rfl, fun _ => rfl, fun _ => rfl, fun _ => rfl, fun _ => rfl, fun _ => rfl, fun _ => rfl, fun _ => rfl, fun _ => rfl, fun _ => rfl, fun _ => rfl, fun _ => rfl, fun _ => rfl, fun _ => rfl, fun _ => rfl, fun _ => rfl, fun _ => rfl⟩

theorem Ch.tb {P : Part → Bool} {q : State} {tb : Timebase} {rsv : Reservoir} {nv : NvBlock} {fsh : FuseShadow} {cal : CalUse} {units : Vector ChanUnit 68} {tio : Vector (BitVec 32) 40} {pad : BitVec 40} {padZ : BitVec 40} {psn : BitVec 6} {xing : Vector Crossing 70} {arm : ArmBlk} {link : LinkBlk} {har : Vector Harness 16} {thr : Vector Thread 64} {eng : Vector Engine 8} {prog : Vector Prog 16} {frm : Vector Frame 128} {bas : Vector Basin 64} {bmem : Mem} {lmap : Vector LMap 64} {ost : Ostler} {spw : Spillway} {gt : Vector Tracker 2} {conv : Vector Conv 2} {prb : Vector Probe 16} {ps : ProbeSys} {rcd : RecordQ} {host : HostIf} {irq : Irq} {far : Farrier} {hlt : Health} {pwr : Power} {dbg : Debug} {pending : List Instr} {x : Timebase} (c : P .tb = true)
    (h : ChP P q tb rsv nv fsh cal units tio pad padZ psn xing arm link har thr eng prog frm bas bmem lmap ost spw gt conv prb ps rcd host irq far hlt pwr dbg pending) : ChP P q x rsv nv fsh cal units tio pad padZ psn xing arm link har thr eng prog frm bas bmem lmap ost spw gt conv prb ps rcd host irq far hlt pwr dbg pending := by
  unfold ChP at h ⊢
  rw [c] at h ⊢
  simpa using h

theorem Ch.rsv {P : Part → Bool} {q : State} {tb : Timebase} {rsv : Reservoir} {nv : NvBlock} {fsh : FuseShadow} {cal : CalUse} {units : Vector ChanUnit 68} {tio : Vector (BitVec 32) 40} {pad : BitVec 40} {padZ : BitVec 40} {psn : BitVec 6} {xing : Vector Crossing 70} {arm : ArmBlk} {link : LinkBlk} {har : Vector Harness 16} {thr : Vector Thread 64} {eng : Vector Engine 8} {prog : Vector Prog 16} {frm : Vector Frame 128} {bas : Vector Basin 64} {bmem : Mem} {lmap : Vector LMap 64} {ost : Ostler} {spw : Spillway} {gt : Vector Tracker 2} {conv : Vector Conv 2} {prb : Vector Probe 16} {ps : ProbeSys} {rcd : RecordQ} {host : HostIf} {irq : Irq} {far : Farrier} {hlt : Health} {pwr : Power} {dbg : Debug} {pending : List Instr} {x : Reservoir} (c : P .rsv = true)
    (h : ChP P q tb rsv nv fsh cal units tio pad padZ psn xing arm link har thr eng prog frm bas bmem lmap ost spw gt conv prb ps rcd host irq far hlt pwr dbg pending) : ChP P q tb x nv fsh cal units tio pad padZ psn xing arm link har thr eng prog frm bas bmem lmap ost spw gt conv prb ps rcd host irq far hlt pwr dbg pending := by
  unfold ChP at h ⊢
  rw [c] at h ⊢
  simpa using h

theorem Ch.nv {P : Part → Bool} {q : State} {tb : Timebase} {rsv : Reservoir} {nv : NvBlock} {fsh : FuseShadow} {cal : CalUse} {units : Vector ChanUnit 68} {tio : Vector (BitVec 32) 40} {pad : BitVec 40} {padZ : BitVec 40} {psn : BitVec 6} {xing : Vector Crossing 70} {arm : ArmBlk} {link : LinkBlk} {har : Vector Harness 16} {thr : Vector Thread 64} {eng : Vector Engine 8} {prog : Vector Prog 16} {frm : Vector Frame 128} {bas : Vector Basin 64} {bmem : Mem} {lmap : Vector LMap 64} {ost : Ostler} {spw : Spillway} {gt : Vector Tracker 2} {conv : Vector Conv 2} {prb : Vector Probe 16} {ps : ProbeSys} {rcd : RecordQ} {host : HostIf} {irq : Irq} {far : Farrier} {hlt : Health} {pwr : Power} {dbg : Debug} {pending : List Instr} {x : NvBlock} (c : P .nv = true)
    (h : ChP P q tb rsv nv fsh cal units tio pad padZ psn xing arm link har thr eng prog frm bas bmem lmap ost spw gt conv prb ps rcd host irq far hlt pwr dbg pending) : ChP P q tb rsv x fsh cal units tio pad padZ psn xing arm link har thr eng prog frm bas bmem lmap ost spw gt conv prb ps rcd host irq far hlt pwr dbg pending := by
  unfold ChP at h ⊢
  rw [c] at h ⊢
  simpa using h

theorem Ch.fsh {P : Part → Bool} {q : State} {tb : Timebase} {rsv : Reservoir} {nv : NvBlock} {fsh : FuseShadow} {cal : CalUse} {units : Vector ChanUnit 68} {tio : Vector (BitVec 32) 40} {pad : BitVec 40} {padZ : BitVec 40} {psn : BitVec 6} {xing : Vector Crossing 70} {arm : ArmBlk} {link : LinkBlk} {har : Vector Harness 16} {thr : Vector Thread 64} {eng : Vector Engine 8} {prog : Vector Prog 16} {frm : Vector Frame 128} {bas : Vector Basin 64} {bmem : Mem} {lmap : Vector LMap 64} {ost : Ostler} {spw : Spillway} {gt : Vector Tracker 2} {conv : Vector Conv 2} {prb : Vector Probe 16} {ps : ProbeSys} {rcd : RecordQ} {host : HostIf} {irq : Irq} {far : Farrier} {hlt : Health} {pwr : Power} {dbg : Debug} {pending : List Instr} {x : FuseShadow} (c : P .fsh = true)
    (h : ChP P q tb rsv nv fsh cal units tio pad padZ psn xing arm link har thr eng prog frm bas bmem lmap ost spw gt conv prb ps rcd host irq far hlt pwr dbg pending) : ChP P q tb rsv nv x cal units tio pad padZ psn xing arm link har thr eng prog frm bas bmem lmap ost spw gt conv prb ps rcd host irq far hlt pwr dbg pending := by
  unfold ChP at h ⊢
  rw [c] at h ⊢
  simpa using h

theorem Ch.cal {P : Part → Bool} {q : State} {tb : Timebase} {rsv : Reservoir} {nv : NvBlock} {fsh : FuseShadow} {cal : CalUse} {units : Vector ChanUnit 68} {tio : Vector (BitVec 32) 40} {pad : BitVec 40} {padZ : BitVec 40} {psn : BitVec 6} {xing : Vector Crossing 70} {arm : ArmBlk} {link : LinkBlk} {har : Vector Harness 16} {thr : Vector Thread 64} {eng : Vector Engine 8} {prog : Vector Prog 16} {frm : Vector Frame 128} {bas : Vector Basin 64} {bmem : Mem} {lmap : Vector LMap 64} {ost : Ostler} {spw : Spillway} {gt : Vector Tracker 2} {conv : Vector Conv 2} {prb : Vector Probe 16} {ps : ProbeSys} {rcd : RecordQ} {host : HostIf} {irq : Irq} {far : Farrier} {hlt : Health} {pwr : Power} {dbg : Debug} {pending : List Instr} {x : CalUse} (c : P .cal = true)
    (h : ChP P q tb rsv nv fsh cal units tio pad padZ psn xing arm link har thr eng prog frm bas bmem lmap ost spw gt conv prb ps rcd host irq far hlt pwr dbg pending) : ChP P q tb rsv nv fsh x units tio pad padZ psn xing arm link har thr eng prog frm bas bmem lmap ost spw gt conv prb ps rcd host irq far hlt pwr dbg pending := by
  unfold ChP at h ⊢
  rw [c] at h ⊢
  simpa using h

theorem Ch.units {P : Part → Bool} {q : State} {tb : Timebase} {rsv : Reservoir} {nv : NvBlock} {fsh : FuseShadow} {cal : CalUse} {units : Vector ChanUnit 68} {tio : Vector (BitVec 32) 40} {pad : BitVec 40} {padZ : BitVec 40} {psn : BitVec 6} {xing : Vector Crossing 70} {arm : ArmBlk} {link : LinkBlk} {har : Vector Harness 16} {thr : Vector Thread 64} {eng : Vector Engine 8} {prog : Vector Prog 16} {frm : Vector Frame 128} {bas : Vector Basin 64} {bmem : Mem} {lmap : Vector LMap 64} {ost : Ostler} {spw : Spillway} {gt : Vector Tracker 2} {conv : Vector Conv 2} {prb : Vector Probe 16} {ps : ProbeSys} {rcd : RecordQ} {host : HostIf} {irq : Irq} {far : Farrier} {hlt : Health} {pwr : Power} {dbg : Debug} {pending : List Instr} {x : Vector ChanUnit 68} (c : P .units = true)
    (h : ChP P q tb rsv nv fsh cal units tio pad padZ psn xing arm link har thr eng prog frm bas bmem lmap ost spw gt conv prb ps rcd host irq far hlt pwr dbg pending) : ChP P q tb rsv nv fsh cal x tio pad padZ psn xing arm link har thr eng prog frm bas bmem lmap ost spw gt conv prb ps rcd host irq far hlt pwr dbg pending := by
  unfold ChP at h ⊢
  rw [c] at h ⊢
  simpa using h

theorem Ch.tio {P : Part → Bool} {q : State} {tb : Timebase} {rsv : Reservoir} {nv : NvBlock} {fsh : FuseShadow} {cal : CalUse} {units : Vector ChanUnit 68} {tio : Vector (BitVec 32) 40} {pad : BitVec 40} {padZ : BitVec 40} {psn : BitVec 6} {xing : Vector Crossing 70} {arm : ArmBlk} {link : LinkBlk} {har : Vector Harness 16} {thr : Vector Thread 64} {eng : Vector Engine 8} {prog : Vector Prog 16} {frm : Vector Frame 128} {bas : Vector Basin 64} {bmem : Mem} {lmap : Vector LMap 64} {ost : Ostler} {spw : Spillway} {gt : Vector Tracker 2} {conv : Vector Conv 2} {prb : Vector Probe 16} {ps : ProbeSys} {rcd : RecordQ} {host : HostIf} {irq : Irq} {far : Farrier} {hlt : Health} {pwr : Power} {dbg : Debug} {pending : List Instr} {x : Vector (BitVec 32) 40} (c : P .tio = true)
    (h : ChP P q tb rsv nv fsh cal units tio pad padZ psn xing arm link har thr eng prog frm bas bmem lmap ost spw gt conv prb ps rcd host irq far hlt pwr dbg pending) : ChP P q tb rsv nv fsh cal units x pad padZ psn xing arm link har thr eng prog frm bas bmem lmap ost spw gt conv prb ps rcd host irq far hlt pwr dbg pending := by
  unfold ChP at h ⊢
  rw [c] at h ⊢
  simpa using h

theorem Ch.pad {P : Part → Bool} {q : State} {tb : Timebase} {rsv : Reservoir} {nv : NvBlock} {fsh : FuseShadow} {cal : CalUse} {units : Vector ChanUnit 68} {tio : Vector (BitVec 32) 40} {pad : BitVec 40} {padZ : BitVec 40} {psn : BitVec 6} {xing : Vector Crossing 70} {arm : ArmBlk} {link : LinkBlk} {har : Vector Harness 16} {thr : Vector Thread 64} {eng : Vector Engine 8} {prog : Vector Prog 16} {frm : Vector Frame 128} {bas : Vector Basin 64} {bmem : Mem} {lmap : Vector LMap 64} {ost : Ostler} {spw : Spillway} {gt : Vector Tracker 2} {conv : Vector Conv 2} {prb : Vector Probe 16} {ps : ProbeSys} {rcd : RecordQ} {host : HostIf} {irq : Irq} {far : Farrier} {hlt : Health} {pwr : Power} {dbg : Debug} {pending : List Instr} {x : BitVec 40} (c : P .pad = true)
    (h : ChP P q tb rsv nv fsh cal units tio pad padZ psn xing arm link har thr eng prog frm bas bmem lmap ost spw gt conv prb ps rcd host irq far hlt pwr dbg pending) : ChP P q tb rsv nv fsh cal units tio x padZ psn xing arm link har thr eng prog frm bas bmem lmap ost spw gt conv prb ps rcd host irq far hlt pwr dbg pending := by
  unfold ChP at h ⊢
  rw [c] at h ⊢
  simpa using h

theorem Ch.padZ {P : Part → Bool} {q : State} {tb : Timebase} {rsv : Reservoir} {nv : NvBlock} {fsh : FuseShadow} {cal : CalUse} {units : Vector ChanUnit 68} {tio : Vector (BitVec 32) 40} {pad : BitVec 40} {padZ : BitVec 40} {psn : BitVec 6} {xing : Vector Crossing 70} {arm : ArmBlk} {link : LinkBlk} {har : Vector Harness 16} {thr : Vector Thread 64} {eng : Vector Engine 8} {prog : Vector Prog 16} {frm : Vector Frame 128} {bas : Vector Basin 64} {bmem : Mem} {lmap : Vector LMap 64} {ost : Ostler} {spw : Spillway} {gt : Vector Tracker 2} {conv : Vector Conv 2} {prb : Vector Probe 16} {ps : ProbeSys} {rcd : RecordQ} {host : HostIf} {irq : Irq} {far : Farrier} {hlt : Health} {pwr : Power} {dbg : Debug} {pending : List Instr} {x : BitVec 40} (c : P .padZ = true)
    (h : ChP P q tb rsv nv fsh cal units tio pad padZ psn xing arm link har thr eng prog frm bas bmem lmap ost spw gt conv prb ps rcd host irq far hlt pwr dbg pending) : ChP P q tb rsv nv fsh cal units tio pad x psn xing arm link har thr eng prog frm bas bmem lmap ost spw gt conv prb ps rcd host irq far hlt pwr dbg pending := by
  unfold ChP at h ⊢
  rw [c] at h ⊢
  simpa using h

theorem Ch.psn {P : Part → Bool} {q : State} {tb : Timebase} {rsv : Reservoir} {nv : NvBlock} {fsh : FuseShadow} {cal : CalUse} {units : Vector ChanUnit 68} {tio : Vector (BitVec 32) 40} {pad : BitVec 40} {padZ : BitVec 40} {psn : BitVec 6} {xing : Vector Crossing 70} {arm : ArmBlk} {link : LinkBlk} {har : Vector Harness 16} {thr : Vector Thread 64} {eng : Vector Engine 8} {prog : Vector Prog 16} {frm : Vector Frame 128} {bas : Vector Basin 64} {bmem : Mem} {lmap : Vector LMap 64} {ost : Ostler} {spw : Spillway} {gt : Vector Tracker 2} {conv : Vector Conv 2} {prb : Vector Probe 16} {ps : ProbeSys} {rcd : RecordQ} {host : HostIf} {irq : Irq} {far : Farrier} {hlt : Health} {pwr : Power} {dbg : Debug} {pending : List Instr} {x : BitVec 6} (c : P .psn = true)
    (h : ChP P q tb rsv nv fsh cal units tio pad padZ psn xing arm link har thr eng prog frm bas bmem lmap ost spw gt conv prb ps rcd host irq far hlt pwr dbg pending) : ChP P q tb rsv nv fsh cal units tio pad padZ x xing arm link har thr eng prog frm bas bmem lmap ost spw gt conv prb ps rcd host irq far hlt pwr dbg pending := by
  unfold ChP at h ⊢
  rw [c] at h ⊢
  simpa using h

theorem Ch.xing {P : Part → Bool} {q : State} {tb : Timebase} {rsv : Reservoir} {nv : NvBlock} {fsh : FuseShadow} {cal : CalUse} {units : Vector ChanUnit 68} {tio : Vector (BitVec 32) 40} {pad : BitVec 40} {padZ : BitVec 40} {psn : BitVec 6} {xing : Vector Crossing 70} {arm : ArmBlk} {link : LinkBlk} {har : Vector Harness 16} {thr : Vector Thread 64} {eng : Vector Engine 8} {prog : Vector Prog 16} {frm : Vector Frame 128} {bas : Vector Basin 64} {bmem : Mem} {lmap : Vector LMap 64} {ost : Ostler} {spw : Spillway} {gt : Vector Tracker 2} {conv : Vector Conv 2} {prb : Vector Probe 16} {ps : ProbeSys} {rcd : RecordQ} {host : HostIf} {irq : Irq} {far : Farrier} {hlt : Health} {pwr : Power} {dbg : Debug} {pending : List Instr} {x : Vector Crossing 70} (c : P .xing = true)
    (h : ChP P q tb rsv nv fsh cal units tio pad padZ psn xing arm link har thr eng prog frm bas bmem lmap ost spw gt conv prb ps rcd host irq far hlt pwr dbg pending) : ChP P q tb rsv nv fsh cal units tio pad padZ psn x arm link har thr eng prog frm bas bmem lmap ost spw gt conv prb ps rcd host irq far hlt pwr dbg pending := by
  unfold ChP at h ⊢
  rw [c] at h ⊢
  simpa using h

theorem Ch.arm {P : Part → Bool} {q : State} {tb : Timebase} {rsv : Reservoir} {nv : NvBlock} {fsh : FuseShadow} {cal : CalUse} {units : Vector ChanUnit 68} {tio : Vector (BitVec 32) 40} {pad : BitVec 40} {padZ : BitVec 40} {psn : BitVec 6} {xing : Vector Crossing 70} {arm : ArmBlk} {link : LinkBlk} {har : Vector Harness 16} {thr : Vector Thread 64} {eng : Vector Engine 8} {prog : Vector Prog 16} {frm : Vector Frame 128} {bas : Vector Basin 64} {bmem : Mem} {lmap : Vector LMap 64} {ost : Ostler} {spw : Spillway} {gt : Vector Tracker 2} {conv : Vector Conv 2} {prb : Vector Probe 16} {ps : ProbeSys} {rcd : RecordQ} {host : HostIf} {irq : Irq} {far : Farrier} {hlt : Health} {pwr : Power} {dbg : Debug} {pending : List Instr} {x : ArmBlk} (c : P .arm = true)
    (h : ChP P q tb rsv nv fsh cal units tio pad padZ psn xing arm link har thr eng prog frm bas bmem lmap ost spw gt conv prb ps rcd host irq far hlt pwr dbg pending) : ChP P q tb rsv nv fsh cal units tio pad padZ psn xing x link har thr eng prog frm bas bmem lmap ost spw gt conv prb ps rcd host irq far hlt pwr dbg pending := by
  unfold ChP at h ⊢
  rw [c] at h ⊢
  simpa using h

theorem Ch.link {P : Part → Bool} {q : State} {tb : Timebase} {rsv : Reservoir} {nv : NvBlock} {fsh : FuseShadow} {cal : CalUse} {units : Vector ChanUnit 68} {tio : Vector (BitVec 32) 40} {pad : BitVec 40} {padZ : BitVec 40} {psn : BitVec 6} {xing : Vector Crossing 70} {arm : ArmBlk} {link : LinkBlk} {har : Vector Harness 16} {thr : Vector Thread 64} {eng : Vector Engine 8} {prog : Vector Prog 16} {frm : Vector Frame 128} {bas : Vector Basin 64} {bmem : Mem} {lmap : Vector LMap 64} {ost : Ostler} {spw : Spillway} {gt : Vector Tracker 2} {conv : Vector Conv 2} {prb : Vector Probe 16} {ps : ProbeSys} {rcd : RecordQ} {host : HostIf} {irq : Irq} {far : Farrier} {hlt : Health} {pwr : Power} {dbg : Debug} {pending : List Instr} {x : LinkBlk} (c : P .link = true)
    (h : ChP P q tb rsv nv fsh cal units tio pad padZ psn xing arm link har thr eng prog frm bas bmem lmap ost spw gt conv prb ps rcd host irq far hlt pwr dbg pending) : ChP P q tb rsv nv fsh cal units tio pad padZ psn xing arm x har thr eng prog frm bas bmem lmap ost spw gt conv prb ps rcd host irq far hlt pwr dbg pending := by
  unfold ChP at h ⊢
  rw [c] at h ⊢
  simpa using h

theorem Ch.har {P : Part → Bool} {q : State} {tb : Timebase} {rsv : Reservoir} {nv : NvBlock} {fsh : FuseShadow} {cal : CalUse} {units : Vector ChanUnit 68} {tio : Vector (BitVec 32) 40} {pad : BitVec 40} {padZ : BitVec 40} {psn : BitVec 6} {xing : Vector Crossing 70} {arm : ArmBlk} {link : LinkBlk} {har : Vector Harness 16} {thr : Vector Thread 64} {eng : Vector Engine 8} {prog : Vector Prog 16} {frm : Vector Frame 128} {bas : Vector Basin 64} {bmem : Mem} {lmap : Vector LMap 64} {ost : Ostler} {spw : Spillway} {gt : Vector Tracker 2} {conv : Vector Conv 2} {prb : Vector Probe 16} {ps : ProbeSys} {rcd : RecordQ} {host : HostIf} {irq : Irq} {far : Farrier} {hlt : Health} {pwr : Power} {dbg : Debug} {pending : List Instr} {x : Vector Harness 16} (c : P .har = true)
    (h : ChP P q tb rsv nv fsh cal units tio pad padZ psn xing arm link har thr eng prog frm bas bmem lmap ost spw gt conv prb ps rcd host irq far hlt pwr dbg pending) : ChP P q tb rsv nv fsh cal units tio pad padZ psn xing arm link x thr eng prog frm bas bmem lmap ost spw gt conv prb ps rcd host irq far hlt pwr dbg pending := by
  unfold ChP at h ⊢
  rw [c] at h ⊢
  simpa using h

theorem Ch.thr {P : Part → Bool} {q : State} {tb : Timebase} {rsv : Reservoir} {nv : NvBlock} {fsh : FuseShadow} {cal : CalUse} {units : Vector ChanUnit 68} {tio : Vector (BitVec 32) 40} {pad : BitVec 40} {padZ : BitVec 40} {psn : BitVec 6} {xing : Vector Crossing 70} {arm : ArmBlk} {link : LinkBlk} {har : Vector Harness 16} {thr : Vector Thread 64} {eng : Vector Engine 8} {prog : Vector Prog 16} {frm : Vector Frame 128} {bas : Vector Basin 64} {bmem : Mem} {lmap : Vector LMap 64} {ost : Ostler} {spw : Spillway} {gt : Vector Tracker 2} {conv : Vector Conv 2} {prb : Vector Probe 16} {ps : ProbeSys} {rcd : RecordQ} {host : HostIf} {irq : Irq} {far : Farrier} {hlt : Health} {pwr : Power} {dbg : Debug} {pending : List Instr} {x : Vector Thread 64} (c : P .thr = true)
    (h : ChP P q tb rsv nv fsh cal units tio pad padZ psn xing arm link har thr eng prog frm bas bmem lmap ost spw gt conv prb ps rcd host irq far hlt pwr dbg pending) : ChP P q tb rsv nv fsh cal units tio pad padZ psn xing arm link har x eng prog frm bas bmem lmap ost spw gt conv prb ps rcd host irq far hlt pwr dbg pending := by
  unfold ChP at h ⊢
  rw [c] at h ⊢
  simpa using h

theorem Ch.eng {P : Part → Bool} {q : State} {tb : Timebase} {rsv : Reservoir} {nv : NvBlock} {fsh : FuseShadow} {cal : CalUse} {units : Vector ChanUnit 68} {tio : Vector (BitVec 32) 40} {pad : BitVec 40} {padZ : BitVec 40} {psn : BitVec 6} {xing : Vector Crossing 70} {arm : ArmBlk} {link : LinkBlk} {har : Vector Harness 16} {thr : Vector Thread 64} {eng : Vector Engine 8} {prog : Vector Prog 16} {frm : Vector Frame 128} {bas : Vector Basin 64} {bmem : Mem} {lmap : Vector LMap 64} {ost : Ostler} {spw : Spillway} {gt : Vector Tracker 2} {conv : Vector Conv 2} {prb : Vector Probe 16} {ps : ProbeSys} {rcd : RecordQ} {host : HostIf} {irq : Irq} {far : Farrier} {hlt : Health} {pwr : Power} {dbg : Debug} {pending : List Instr} {x : Vector Engine 8} (c : P .eng = true)
    (h : ChP P q tb rsv nv fsh cal units tio pad padZ psn xing arm link har thr eng prog frm bas bmem lmap ost spw gt conv prb ps rcd host irq far hlt pwr dbg pending) : ChP P q tb rsv nv fsh cal units tio pad padZ psn xing arm link har thr x prog frm bas bmem lmap ost spw gt conv prb ps rcd host irq far hlt pwr dbg pending := by
  unfold ChP at h ⊢
  rw [c] at h ⊢
  simpa using h

theorem Ch.prog {P : Part → Bool} {q : State} {tb : Timebase} {rsv : Reservoir} {nv : NvBlock} {fsh : FuseShadow} {cal : CalUse} {units : Vector ChanUnit 68} {tio : Vector (BitVec 32) 40} {pad : BitVec 40} {padZ : BitVec 40} {psn : BitVec 6} {xing : Vector Crossing 70} {arm : ArmBlk} {link : LinkBlk} {har : Vector Harness 16} {thr : Vector Thread 64} {eng : Vector Engine 8} {prog : Vector Prog 16} {frm : Vector Frame 128} {bas : Vector Basin 64} {bmem : Mem} {lmap : Vector LMap 64} {ost : Ostler} {spw : Spillway} {gt : Vector Tracker 2} {conv : Vector Conv 2} {prb : Vector Probe 16} {ps : ProbeSys} {rcd : RecordQ} {host : HostIf} {irq : Irq} {far : Farrier} {hlt : Health} {pwr : Power} {dbg : Debug} {pending : List Instr} {x : Vector Prog 16} (c : P .prog = true)
    (h : ChP P q tb rsv nv fsh cal units tio pad padZ psn xing arm link har thr eng prog frm bas bmem lmap ost spw gt conv prb ps rcd host irq far hlt pwr dbg pending) : ChP P q tb rsv nv fsh cal units tio pad padZ psn xing arm link har thr eng x frm bas bmem lmap ost spw gt conv prb ps rcd host irq far hlt pwr dbg pending := by
  unfold ChP at h ⊢
  rw [c] at h ⊢
  simpa using h

theorem Ch.frm {P : Part → Bool} {q : State} {tb : Timebase} {rsv : Reservoir} {nv : NvBlock} {fsh : FuseShadow} {cal : CalUse} {units : Vector ChanUnit 68} {tio : Vector (BitVec 32) 40} {pad : BitVec 40} {padZ : BitVec 40} {psn : BitVec 6} {xing : Vector Crossing 70} {arm : ArmBlk} {link : LinkBlk} {har : Vector Harness 16} {thr : Vector Thread 64} {eng : Vector Engine 8} {prog : Vector Prog 16} {frm : Vector Frame 128} {bas : Vector Basin 64} {bmem : Mem} {lmap : Vector LMap 64} {ost : Ostler} {spw : Spillway} {gt : Vector Tracker 2} {conv : Vector Conv 2} {prb : Vector Probe 16} {ps : ProbeSys} {rcd : RecordQ} {host : HostIf} {irq : Irq} {far : Farrier} {hlt : Health} {pwr : Power} {dbg : Debug} {pending : List Instr} {x : Vector Frame 128} (c : P .frm = true)
    (h : ChP P q tb rsv nv fsh cal units tio pad padZ psn xing arm link har thr eng prog frm bas bmem lmap ost spw gt conv prb ps rcd host irq far hlt pwr dbg pending) : ChP P q tb rsv nv fsh cal units tio pad padZ psn xing arm link har thr eng prog x bas bmem lmap ost spw gt conv prb ps rcd host irq far hlt pwr dbg pending := by
  unfold ChP at h ⊢
  rw [c] at h ⊢
  simpa using h

theorem Ch.bas {P : Part → Bool} {q : State} {tb : Timebase} {rsv : Reservoir} {nv : NvBlock} {fsh : FuseShadow} {cal : CalUse} {units : Vector ChanUnit 68} {tio : Vector (BitVec 32) 40} {pad : BitVec 40} {padZ : BitVec 40} {psn : BitVec 6} {xing : Vector Crossing 70} {arm : ArmBlk} {link : LinkBlk} {har : Vector Harness 16} {thr : Vector Thread 64} {eng : Vector Engine 8} {prog : Vector Prog 16} {frm : Vector Frame 128} {bas : Vector Basin 64} {bmem : Mem} {lmap : Vector LMap 64} {ost : Ostler} {spw : Spillway} {gt : Vector Tracker 2} {conv : Vector Conv 2} {prb : Vector Probe 16} {ps : ProbeSys} {rcd : RecordQ} {host : HostIf} {irq : Irq} {far : Farrier} {hlt : Health} {pwr : Power} {dbg : Debug} {pending : List Instr} {x : Vector Basin 64} (c : P .bas = true)
    (h : ChP P q tb rsv nv fsh cal units tio pad padZ psn xing arm link har thr eng prog frm bas bmem lmap ost spw gt conv prb ps rcd host irq far hlt pwr dbg pending) : ChP P q tb rsv nv fsh cal units tio pad padZ psn xing arm link har thr eng prog frm x bmem lmap ost spw gt conv prb ps rcd host irq far hlt pwr dbg pending := by
  unfold ChP at h ⊢
  rw [c] at h ⊢
  simpa using h

theorem Ch.bmem {P : Part → Bool} {q : State} {tb : Timebase} {rsv : Reservoir} {nv : NvBlock} {fsh : FuseShadow} {cal : CalUse} {units : Vector ChanUnit 68} {tio : Vector (BitVec 32) 40} {pad : BitVec 40} {padZ : BitVec 40} {psn : BitVec 6} {xing : Vector Crossing 70} {arm : ArmBlk} {link : LinkBlk} {har : Vector Harness 16} {thr : Vector Thread 64} {eng : Vector Engine 8} {prog : Vector Prog 16} {frm : Vector Frame 128} {bas : Vector Basin 64} {bmem : Mem} {lmap : Vector LMap 64} {ost : Ostler} {spw : Spillway} {gt : Vector Tracker 2} {conv : Vector Conv 2} {prb : Vector Probe 16} {ps : ProbeSys} {rcd : RecordQ} {host : HostIf} {irq : Irq} {far : Farrier} {hlt : Health} {pwr : Power} {dbg : Debug} {pending : List Instr} {x : Mem} (c : P .bmem = true)
    (h : ChP P q tb rsv nv fsh cal units tio pad padZ psn xing arm link har thr eng prog frm bas bmem lmap ost spw gt conv prb ps rcd host irq far hlt pwr dbg pending) : ChP P q tb rsv nv fsh cal units tio pad padZ psn xing arm link har thr eng prog frm bas x lmap ost spw gt conv prb ps rcd host irq far hlt pwr dbg pending := by
  unfold ChP at h ⊢
  rw [c] at h ⊢
  simpa using h

theorem Ch.lmap {P : Part → Bool} {q : State} {tb : Timebase} {rsv : Reservoir} {nv : NvBlock} {fsh : FuseShadow} {cal : CalUse} {units : Vector ChanUnit 68} {tio : Vector (BitVec 32) 40} {pad : BitVec 40} {padZ : BitVec 40} {psn : BitVec 6} {xing : Vector Crossing 70} {arm : ArmBlk} {link : LinkBlk} {har : Vector Harness 16} {thr : Vector Thread 64} {eng : Vector Engine 8} {prog : Vector Prog 16} {frm : Vector Frame 128} {bas : Vector Basin 64} {bmem : Mem} {lmap : Vector LMap 64} {ost : Ostler} {spw : Spillway} {gt : Vector Tracker 2} {conv : Vector Conv 2} {prb : Vector Probe 16} {ps : ProbeSys} {rcd : RecordQ} {host : HostIf} {irq : Irq} {far : Farrier} {hlt : Health} {pwr : Power} {dbg : Debug} {pending : List Instr} {x : Vector LMap 64} (c : P .lmap = true)
    (h : ChP P q tb rsv nv fsh cal units tio pad padZ psn xing arm link har thr eng prog frm bas bmem lmap ost spw gt conv prb ps rcd host irq far hlt pwr dbg pending) : ChP P q tb rsv nv fsh cal units tio pad padZ psn xing arm link har thr eng prog frm bas bmem x ost spw gt conv prb ps rcd host irq far hlt pwr dbg pending := by
  unfold ChP at h ⊢
  rw [c] at h ⊢
  simpa using h

theorem Ch.ost {P : Part → Bool} {q : State} {tb : Timebase} {rsv : Reservoir} {nv : NvBlock} {fsh : FuseShadow} {cal : CalUse} {units : Vector ChanUnit 68} {tio : Vector (BitVec 32) 40} {pad : BitVec 40} {padZ : BitVec 40} {psn : BitVec 6} {xing : Vector Crossing 70} {arm : ArmBlk} {link : LinkBlk} {har : Vector Harness 16} {thr : Vector Thread 64} {eng : Vector Engine 8} {prog : Vector Prog 16} {frm : Vector Frame 128} {bas : Vector Basin 64} {bmem : Mem} {lmap : Vector LMap 64} {ost : Ostler} {spw : Spillway} {gt : Vector Tracker 2} {conv : Vector Conv 2} {prb : Vector Probe 16} {ps : ProbeSys} {rcd : RecordQ} {host : HostIf} {irq : Irq} {far : Farrier} {hlt : Health} {pwr : Power} {dbg : Debug} {pending : List Instr} {x : Ostler} (c : P .ost = true)
    (h : ChP P q tb rsv nv fsh cal units tio pad padZ psn xing arm link har thr eng prog frm bas bmem lmap ost spw gt conv prb ps rcd host irq far hlt pwr dbg pending) : ChP P q tb rsv nv fsh cal units tio pad padZ psn xing arm link har thr eng prog frm bas bmem lmap x spw gt conv prb ps rcd host irq far hlt pwr dbg pending := by
  unfold ChP at h ⊢
  rw [c] at h ⊢
  simpa using h

theorem Ch.spw {P : Part → Bool} {q : State} {tb : Timebase} {rsv : Reservoir} {nv : NvBlock} {fsh : FuseShadow} {cal : CalUse} {units : Vector ChanUnit 68} {tio : Vector (BitVec 32) 40} {pad : BitVec 40} {padZ : BitVec 40} {psn : BitVec 6} {xing : Vector Crossing 70} {arm : ArmBlk} {link : LinkBlk} {har : Vector Harness 16} {thr : Vector Thread 64} {eng : Vector Engine 8} {prog : Vector Prog 16} {frm : Vector Frame 128} {bas : Vector Basin 64} {bmem : Mem} {lmap : Vector LMap 64} {ost : Ostler} {spw : Spillway} {gt : Vector Tracker 2} {conv : Vector Conv 2} {prb : Vector Probe 16} {ps : ProbeSys} {rcd : RecordQ} {host : HostIf} {irq : Irq} {far : Farrier} {hlt : Health} {pwr : Power} {dbg : Debug} {pending : List Instr} {x : Spillway} (c : P .spw = true)
    (h : ChP P q tb rsv nv fsh cal units tio pad padZ psn xing arm link har thr eng prog frm bas bmem lmap ost spw gt conv prb ps rcd host irq far hlt pwr dbg pending) : ChP P q tb rsv nv fsh cal units tio pad padZ psn xing arm link har thr eng prog frm bas bmem lmap ost x gt conv prb ps rcd host irq far hlt pwr dbg pending := by
  unfold ChP at h ⊢
  rw [c] at h ⊢
  simpa using h

theorem Ch.gt {P : Part → Bool} {q : State} {tb : Timebase} {rsv : Reservoir} {nv : NvBlock} {fsh : FuseShadow} {cal : CalUse} {units : Vector ChanUnit 68} {tio : Vector (BitVec 32) 40} {pad : BitVec 40} {padZ : BitVec 40} {psn : BitVec 6} {xing : Vector Crossing 70} {arm : ArmBlk} {link : LinkBlk} {har : Vector Harness 16} {thr : Vector Thread 64} {eng : Vector Engine 8} {prog : Vector Prog 16} {frm : Vector Frame 128} {bas : Vector Basin 64} {bmem : Mem} {lmap : Vector LMap 64} {ost : Ostler} {spw : Spillway} {gt : Vector Tracker 2} {conv : Vector Conv 2} {prb : Vector Probe 16} {ps : ProbeSys} {rcd : RecordQ} {host : HostIf} {irq : Irq} {far : Farrier} {hlt : Health} {pwr : Power} {dbg : Debug} {pending : List Instr} {x : Vector Tracker 2} (c : P .gt = true)
    (h : ChP P q tb rsv nv fsh cal units tio pad padZ psn xing arm link har thr eng prog frm bas bmem lmap ost spw gt conv prb ps rcd host irq far hlt pwr dbg pending) : ChP P q tb rsv nv fsh cal units tio pad padZ psn xing arm link har thr eng prog frm bas bmem lmap ost spw x conv prb ps rcd host irq far hlt pwr dbg pending := by
  unfold ChP at h ⊢
  rw [c] at h ⊢
  simpa using h

theorem Ch.conv {P : Part → Bool} {q : State} {tb : Timebase} {rsv : Reservoir} {nv : NvBlock} {fsh : FuseShadow} {cal : CalUse} {units : Vector ChanUnit 68} {tio : Vector (BitVec 32) 40} {pad : BitVec 40} {padZ : BitVec 40} {psn : BitVec 6} {xing : Vector Crossing 70} {arm : ArmBlk} {link : LinkBlk} {har : Vector Harness 16} {thr : Vector Thread 64} {eng : Vector Engine 8} {prog : Vector Prog 16} {frm : Vector Frame 128} {bas : Vector Basin 64} {bmem : Mem} {lmap : Vector LMap 64} {ost : Ostler} {spw : Spillway} {gt : Vector Tracker 2} {conv : Vector Conv 2} {prb : Vector Probe 16} {ps : ProbeSys} {rcd : RecordQ} {host : HostIf} {irq : Irq} {far : Farrier} {hlt : Health} {pwr : Power} {dbg : Debug} {pending : List Instr} {x : Vector Conv 2} (c : P .conv = true)
    (h : ChP P q tb rsv nv fsh cal units tio pad padZ psn xing arm link har thr eng prog frm bas bmem lmap ost spw gt conv prb ps rcd host irq far hlt pwr dbg pending) : ChP P q tb rsv nv fsh cal units tio pad padZ psn xing arm link har thr eng prog frm bas bmem lmap ost spw gt x prb ps rcd host irq far hlt pwr dbg pending := by
  unfold ChP at h ⊢
  rw [c] at h ⊢
  simpa using h

theorem Ch.prb {P : Part → Bool} {q : State} {tb : Timebase} {rsv : Reservoir} {nv : NvBlock} {fsh : FuseShadow} {cal : CalUse} {units : Vector ChanUnit 68} {tio : Vector (BitVec 32) 40} {pad : BitVec 40} {padZ : BitVec 40} {psn : BitVec 6} {xing : Vector Crossing 70} {arm : ArmBlk} {link : LinkBlk} {har : Vector Harness 16} {thr : Vector Thread 64} {eng : Vector Engine 8} {prog : Vector Prog 16} {frm : Vector Frame 128} {bas : Vector Basin 64} {bmem : Mem} {lmap : Vector LMap 64} {ost : Ostler} {spw : Spillway} {gt : Vector Tracker 2} {conv : Vector Conv 2} {prb : Vector Probe 16} {ps : ProbeSys} {rcd : RecordQ} {host : HostIf} {irq : Irq} {far : Farrier} {hlt : Health} {pwr : Power} {dbg : Debug} {pending : List Instr} {x : Vector Probe 16} (c : P .prb = true)
    (h : ChP P q tb rsv nv fsh cal units tio pad padZ psn xing arm link har thr eng prog frm bas bmem lmap ost spw gt conv prb ps rcd host irq far hlt pwr dbg pending) : ChP P q tb rsv nv fsh cal units tio pad padZ psn xing arm link har thr eng prog frm bas bmem lmap ost spw gt conv x ps rcd host irq far hlt pwr dbg pending := by
  unfold ChP at h ⊢
  rw [c] at h ⊢
  simpa using h

theorem Ch.ps {P : Part → Bool} {q : State} {tb : Timebase} {rsv : Reservoir} {nv : NvBlock} {fsh : FuseShadow} {cal : CalUse} {units : Vector ChanUnit 68} {tio : Vector (BitVec 32) 40} {pad : BitVec 40} {padZ : BitVec 40} {psn : BitVec 6} {xing : Vector Crossing 70} {arm : ArmBlk} {link : LinkBlk} {har : Vector Harness 16} {thr : Vector Thread 64} {eng : Vector Engine 8} {prog : Vector Prog 16} {frm : Vector Frame 128} {bas : Vector Basin 64} {bmem : Mem} {lmap : Vector LMap 64} {ost : Ostler} {spw : Spillway} {gt : Vector Tracker 2} {conv : Vector Conv 2} {prb : Vector Probe 16} {ps : ProbeSys} {rcd : RecordQ} {host : HostIf} {irq : Irq} {far : Farrier} {hlt : Health} {pwr : Power} {dbg : Debug} {pending : List Instr} {x : ProbeSys} (c : P .ps = true)
    (h : ChP P q tb rsv nv fsh cal units tio pad padZ psn xing arm link har thr eng prog frm bas bmem lmap ost spw gt conv prb ps rcd host irq far hlt pwr dbg pending) : ChP P q tb rsv nv fsh cal units tio pad padZ psn xing arm link har thr eng prog frm bas bmem lmap ost spw gt conv prb x rcd host irq far hlt pwr dbg pending := by
  unfold ChP at h ⊢
  rw [c] at h ⊢
  simpa using h

theorem Ch.rcd {P : Part → Bool} {q : State} {tb : Timebase} {rsv : Reservoir} {nv : NvBlock} {fsh : FuseShadow} {cal : CalUse} {units : Vector ChanUnit 68} {tio : Vector (BitVec 32) 40} {pad : BitVec 40} {padZ : BitVec 40} {psn : BitVec 6} {xing : Vector Crossing 70} {arm : ArmBlk} {link : LinkBlk} {har : Vector Harness 16} {thr : Vector Thread 64} {eng : Vector Engine 8} {prog : Vector Prog 16} {frm : Vector Frame 128} {bas : Vector Basin 64} {bmem : Mem} {lmap : Vector LMap 64} {ost : Ostler} {spw : Spillway} {gt : Vector Tracker 2} {conv : Vector Conv 2} {prb : Vector Probe 16} {ps : ProbeSys} {rcd : RecordQ} {host : HostIf} {irq : Irq} {far : Farrier} {hlt : Health} {pwr : Power} {dbg : Debug} {pending : List Instr} {x : RecordQ} (c : P .rcd = true)
    (h : ChP P q tb rsv nv fsh cal units tio pad padZ psn xing arm link har thr eng prog frm bas bmem lmap ost spw gt conv prb ps rcd host irq far hlt pwr dbg pending) : ChP P q tb rsv nv fsh cal units tio pad padZ psn xing arm link har thr eng prog frm bas bmem lmap ost spw gt conv prb ps x host irq far hlt pwr dbg pending := by
  unfold ChP at h ⊢
  rw [c] at h ⊢
  simpa using h

theorem Ch.host {P : Part → Bool} {q : State} {tb : Timebase} {rsv : Reservoir} {nv : NvBlock} {fsh : FuseShadow} {cal : CalUse} {units : Vector ChanUnit 68} {tio : Vector (BitVec 32) 40} {pad : BitVec 40} {padZ : BitVec 40} {psn : BitVec 6} {xing : Vector Crossing 70} {arm : ArmBlk} {link : LinkBlk} {har : Vector Harness 16} {thr : Vector Thread 64} {eng : Vector Engine 8} {prog : Vector Prog 16} {frm : Vector Frame 128} {bas : Vector Basin 64} {bmem : Mem} {lmap : Vector LMap 64} {ost : Ostler} {spw : Spillway} {gt : Vector Tracker 2} {conv : Vector Conv 2} {prb : Vector Probe 16} {ps : ProbeSys} {rcd : RecordQ} {host : HostIf} {irq : Irq} {far : Farrier} {hlt : Health} {pwr : Power} {dbg : Debug} {pending : List Instr} {x : HostIf} (c : P .host = true)
    (h : ChP P q tb rsv nv fsh cal units tio pad padZ psn xing arm link har thr eng prog frm bas bmem lmap ost spw gt conv prb ps rcd host irq far hlt pwr dbg pending) : ChP P q tb rsv nv fsh cal units tio pad padZ psn xing arm link har thr eng prog frm bas bmem lmap ost spw gt conv prb ps rcd x irq far hlt pwr dbg pending := by
  unfold ChP at h ⊢
  rw [c] at h ⊢
  simpa using h

theorem Ch.irq {P : Part → Bool} {q : State} {tb : Timebase} {rsv : Reservoir} {nv : NvBlock} {fsh : FuseShadow} {cal : CalUse} {units : Vector ChanUnit 68} {tio : Vector (BitVec 32) 40} {pad : BitVec 40} {padZ : BitVec 40} {psn : BitVec 6} {xing : Vector Crossing 70} {arm : ArmBlk} {link : LinkBlk} {har : Vector Harness 16} {thr : Vector Thread 64} {eng : Vector Engine 8} {prog : Vector Prog 16} {frm : Vector Frame 128} {bas : Vector Basin 64} {bmem : Mem} {lmap : Vector LMap 64} {ost : Ostler} {spw : Spillway} {gt : Vector Tracker 2} {conv : Vector Conv 2} {prb : Vector Probe 16} {ps : ProbeSys} {rcd : RecordQ} {host : HostIf} {irq : Irq} {far : Farrier} {hlt : Health} {pwr : Power} {dbg : Debug} {pending : List Instr} {x : Irq} (c : P .irq = true)
    (h : ChP P q tb rsv nv fsh cal units tio pad padZ psn xing arm link har thr eng prog frm bas bmem lmap ost spw gt conv prb ps rcd host irq far hlt pwr dbg pending) : ChP P q tb rsv nv fsh cal units tio pad padZ psn xing arm link har thr eng prog frm bas bmem lmap ost spw gt conv prb ps rcd host x far hlt pwr dbg pending := by
  unfold ChP at h ⊢
  rw [c] at h ⊢
  simpa using h

theorem Ch.far {P : Part → Bool} {q : State} {tb : Timebase} {rsv : Reservoir} {nv : NvBlock} {fsh : FuseShadow} {cal : CalUse} {units : Vector ChanUnit 68} {tio : Vector (BitVec 32) 40} {pad : BitVec 40} {padZ : BitVec 40} {psn : BitVec 6} {xing : Vector Crossing 70} {arm : ArmBlk} {link : LinkBlk} {har : Vector Harness 16} {thr : Vector Thread 64} {eng : Vector Engine 8} {prog : Vector Prog 16} {frm : Vector Frame 128} {bas : Vector Basin 64} {bmem : Mem} {lmap : Vector LMap 64} {ost : Ostler} {spw : Spillway} {gt : Vector Tracker 2} {conv : Vector Conv 2} {prb : Vector Probe 16} {ps : ProbeSys} {rcd : RecordQ} {host : HostIf} {irq : Irq} {far : Farrier} {hlt : Health} {pwr : Power} {dbg : Debug} {pending : List Instr} {x : Farrier} (c : P .far = true)
    (h : ChP P q tb rsv nv fsh cal units tio pad padZ psn xing arm link har thr eng prog frm bas bmem lmap ost spw gt conv prb ps rcd host irq far hlt pwr dbg pending) : ChP P q tb rsv nv fsh cal units tio pad padZ psn xing arm link har thr eng prog frm bas bmem lmap ost spw gt conv prb ps rcd host irq x hlt pwr dbg pending := by
  unfold ChP at h ⊢
  rw [c] at h ⊢
  simpa using h

theorem Ch.hlt {P : Part → Bool} {q : State} {tb : Timebase} {rsv : Reservoir} {nv : NvBlock} {fsh : FuseShadow} {cal : CalUse} {units : Vector ChanUnit 68} {tio : Vector (BitVec 32) 40} {pad : BitVec 40} {padZ : BitVec 40} {psn : BitVec 6} {xing : Vector Crossing 70} {arm : ArmBlk} {link : LinkBlk} {har : Vector Harness 16} {thr : Vector Thread 64} {eng : Vector Engine 8} {prog : Vector Prog 16} {frm : Vector Frame 128} {bas : Vector Basin 64} {bmem : Mem} {lmap : Vector LMap 64} {ost : Ostler} {spw : Spillway} {gt : Vector Tracker 2} {conv : Vector Conv 2} {prb : Vector Probe 16} {ps : ProbeSys} {rcd : RecordQ} {host : HostIf} {irq : Irq} {far : Farrier} {hlt : Health} {pwr : Power} {dbg : Debug} {pending : List Instr} {x : Health} (c : P .hlt = true)
    (h : ChP P q tb rsv nv fsh cal units tio pad padZ psn xing arm link har thr eng prog frm bas bmem lmap ost spw gt conv prb ps rcd host irq far hlt pwr dbg pending) : ChP P q tb rsv nv fsh cal units tio pad padZ psn xing arm link har thr eng prog frm bas bmem lmap ost spw gt conv prb ps rcd host irq far x pwr dbg pending := by
  unfold ChP at h ⊢
  rw [c] at h ⊢
  simpa using h

theorem Ch.pwr {P : Part → Bool} {q : State} {tb : Timebase} {rsv : Reservoir} {nv : NvBlock} {fsh : FuseShadow} {cal : CalUse} {units : Vector ChanUnit 68} {tio : Vector (BitVec 32) 40} {pad : BitVec 40} {padZ : BitVec 40} {psn : BitVec 6} {xing : Vector Crossing 70} {arm : ArmBlk} {link : LinkBlk} {har : Vector Harness 16} {thr : Vector Thread 64} {eng : Vector Engine 8} {prog : Vector Prog 16} {frm : Vector Frame 128} {bas : Vector Basin 64} {bmem : Mem} {lmap : Vector LMap 64} {ost : Ostler} {spw : Spillway} {gt : Vector Tracker 2} {conv : Vector Conv 2} {prb : Vector Probe 16} {ps : ProbeSys} {rcd : RecordQ} {host : HostIf} {irq : Irq} {far : Farrier} {hlt : Health} {pwr : Power} {dbg : Debug} {pending : List Instr} {x : Power} (c : P .pwr = true)
    (h : ChP P q tb rsv nv fsh cal units tio pad padZ psn xing arm link har thr eng prog frm bas bmem lmap ost spw gt conv prb ps rcd host irq far hlt pwr dbg pending) : ChP P q tb rsv nv fsh cal units tio pad padZ psn xing arm link har thr eng prog frm bas bmem lmap ost spw gt conv prb ps rcd host irq far hlt x dbg pending := by
  unfold ChP at h ⊢
  rw [c] at h ⊢
  simpa using h

theorem Ch.dbg {P : Part → Bool} {q : State} {tb : Timebase} {rsv : Reservoir} {nv : NvBlock} {fsh : FuseShadow} {cal : CalUse} {units : Vector ChanUnit 68} {tio : Vector (BitVec 32) 40} {pad : BitVec 40} {padZ : BitVec 40} {psn : BitVec 6} {xing : Vector Crossing 70} {arm : ArmBlk} {link : LinkBlk} {har : Vector Harness 16} {thr : Vector Thread 64} {eng : Vector Engine 8} {prog : Vector Prog 16} {frm : Vector Frame 128} {bas : Vector Basin 64} {bmem : Mem} {lmap : Vector LMap 64} {ost : Ostler} {spw : Spillway} {gt : Vector Tracker 2} {conv : Vector Conv 2} {prb : Vector Probe 16} {ps : ProbeSys} {rcd : RecordQ} {host : HostIf} {irq : Irq} {far : Farrier} {hlt : Health} {pwr : Power} {dbg : Debug} {pending : List Instr} {x : Debug} (c : P .dbg = true)
    (h : ChP P q tb rsv nv fsh cal units tio pad padZ psn xing arm link har thr eng prog frm bas bmem lmap ost spw gt conv prb ps rcd host irq far hlt pwr dbg pending) : ChP P q tb rsv nv fsh cal units tio pad padZ psn xing arm link har thr eng prog frm bas bmem lmap ost spw gt conv prb ps rcd host irq far hlt pwr x pending := by
  unfold ChP at h ⊢
  rw [c] at h ⊢
  simpa using h

theorem Ch.pending {P : Part → Bool} {q : State} {tb : Timebase} {rsv : Reservoir} {nv : NvBlock} {fsh : FuseShadow} {cal : CalUse} {units : Vector ChanUnit 68} {tio : Vector (BitVec 32) 40} {pad : BitVec 40} {padZ : BitVec 40} {psn : BitVec 6} {xing : Vector Crossing 70} {arm : ArmBlk} {link : LinkBlk} {har : Vector Harness 16} {thr : Vector Thread 64} {eng : Vector Engine 8} {prog : Vector Prog 16} {frm : Vector Frame 128} {bas : Vector Basin 64} {bmem : Mem} {lmap : Vector LMap 64} {ost : Ostler} {spw : Spillway} {gt : Vector Tracker 2} {conv : Vector Conv 2} {prb : Vector Probe 16} {ps : ProbeSys} {rcd : RecordQ} {host : HostIf} {irq : Irq} {far : Farrier} {hlt : Health} {pwr : Power} {dbg : Debug} {pending : List Instr} {x : List Instr} (c : P .pending = true)
    (h : ChP P q tb rsv nv fsh cal units tio pad padZ psn xing arm link har thr eng prog frm bas bmem lmap ost spw gt conv prb ps rcd host irq far hlt pwr dbg pending) : ChP P q tb rsv nv fsh cal units tio pad padZ psn xing arm link har thr eng prog frm bas bmem lmap ost spw gt conv prb ps rcd host irq far hlt pwr dbg x := by
  unfold ChP at h ⊢
  rw [c] at h ⊢
  simpa using h

/-- The parts that a report to B63 or the Farrier touches may change. -/
structure EvOk (P : Part → Bool) : Prop where
  bas : P .bas = true
  bmem : P .bmem = true
  far : P .far = true
  hlt : P .hlt = true
  irq : P .irq = true
  ost : P .ost = true

/-- The parts that a reset clears may change. -/
structure RsOk (P : Part → Bool) : Prop extends EvOk P where
  tb : P .tb = true
  rsv : P .rsv = true
  fsh : P .fsh = true
  units : P .units = true
  tio : P .tio = true
  xing : P .xing = true
  arm : P .arm = true
  link : P .link = true
  har : P .har = true
  thr : P .thr = true
  eng : P .eng = true
  prog : P .prog = true
  frm : P .frm = true
  lmap : P .lmap = true
  spw : P .spw = true
  gt : P .gt = true
  conv : P .conv = true
  prb : P .prb = true
  ps : P .ps = true
  rcd : P .rcd = true
  host : P .host = true
  pwr : P .pwr = true
  dbg : P .dbg = true

variable {P : Part → Bool} {q9 : State}

theorem GRes.ok_within  {r : GRes} {s : State} {n : Nat} (h : r.All fun t => Ch P q9 t) (eq0 : r = .ok s n) : Ch P q9 s := by
  subst eq0; exact h

theorem GRes.jump_within  {r : GRes} {s : State} {n : Nat} {c : BitVec 19} (h : r.All fun t => Ch P q9 t) (eq0 : r = .jump s c n) :
    Ch P q9 s := by
  subst eq0; exact h

theorem GRes.stop_within  {r : GRes} {s : State} (h : r.All fun t => Ch P q9 t) (eq0 : r = .stop s) : Ch P q9 s := by
  subst eq0; exact h

theorem Ans.reply_within  {r : Ans} {s : State} {a : Byte} {l : List Byte} (h : r.All fun t => Ch P q9 t) (eq0 : r = .reply a l s) :
    Ch P q9 s := by
  subst eq0; exact h

theorem Ans.later_within  {r : Ans} {s : State} (h : r.All fun t => Ch P q9 t) (eq0 : r = .later s) : Ch P q9 s := by
  subst eq0; exact h

theorem foldlFst_within {α β : Type}  (l : List α) (f : State × β → α → State × β) (s : State × β) (h : Ch P q9 s.1)
    (k : ∀ x a, Ch P q9 x.1 → Ch P q9 ((f x a).1)) : Ch P q9 ((l.foldl f s).1) := by
  induction l generalizing s with
  | nil => exact h
  | cons a r ih => exact ih _ (k s a h)

theorem iteFst_within {β : Type}  {c : Prop} {i : Decidable c} {a b : State × β} (h1 : Ch P q9 a.1) (h2 : Ch P q9 b.1) :
    Ch P q9 ((if c then a else b).1) := by
  split <;> assumption

theorem ite_within  {c : Prop} {i : Decidable c} {a b : State} (h1 : Ch P q9 a) (h2 : Ch P q9 b) : Ch P q9 ((if c then a else b)) := by
  split <;> assumption

theorem cond_within  {c : Bool} {a b : State} (h1 : Ch P q9 a) (h2 : Ch P q9 b) : Ch P q9 ((bif c then a else b)) := by
  cases c <;> assumption

theorem forEach_within {α : Type}  (l : List α) (f : α → State → State) (s : State) (h : Ch P q9 s)
    (k : ∀ a x, Ch P q9 x → Ch P q9 ((f a x))) : Ch P q9 ((forEach l f s)) := by
  unfold forEach
  induction l generalizing s with
  | nil => exact h
  | cons a r ih => exact ih _ (k a s h)

theorem foldl_within {α : Type}  (l : List α) (f : State → α → State) (s : State) (h : Ch P q9 s)
    (k : ∀ x a, Ch P q9 x → Ch P q9 ((f x a))) : Ch P q9 ((l.foldl f s)) := by
  induction l generalizing s with
  | nil => exact h
  | cons a r ih => exact ih _ (k s a h)

theorem State_modUnit_within (s : State) (u : UnitId) (f : ChanUnit → ChanUnit) (hq : Ch P q9 s) (c_units : P .units = true) :
    Ch P q9 (State.modUnit s u f) := by
  unfold State.modUnit
  with_reducible eapply Ch.units c_units; with_reducible assumption

theorem State_modHar_within (s : State) (h : HarnessId) (f : Harness → Harness) (hq : Ch P q9 s) (c_har : P .har = true) :
    Ch P q9 (State.modHar s h f) := by
  unfold State.modHar
  with_reducible eapply Ch.har c_har; with_reducible assumption

theorem State_modThr_within (s : State) (t : Tid) (f : Thread → Thread) (hq : Ch P q9 s) (c_thr : P .thr = true) :
    Ch P q9 (State.modThr s t f) := by
  unfold State.modThr
  with_reducible eapply Ch.thr c_thr; with_reducible assumption

theorem State_modCtx_within (s : State) (tid : Tid) (f : Ctx → Ctx) (hq : Ch P q9 s) (c_thr : P .thr = true) :
    Ch P q9 (State.modCtx s tid f) := by
  unfold State.modCtx State.modThr
  with_reducible eapply Ch.thr c_thr; with_reducible assumption

theorem State_modEng_within (s : State) (e : EngineId) (f : Engine → Engine) (hq : Ch P q9 s) (c_eng : P .eng = true) :
    Ch P q9 (State.modEng s e f) := by
  unfold State.modEng
  with_reducible eapply Ch.eng c_eng; with_reducible assumption

theorem State_modProg_within (s : State) (p : ProgId) (f : Prog → Prog) (hq : Ch P q9 s) (c_prog : P .prog = true) :
    Ch P q9 (State.modProg s p f) := by
  unfold State.modProg
  with_reducible eapply Ch.prog c_prog; with_reducible assumption

theorem State_modFrm_within (s : State) (i : Fin 128) (f : Frame → Frame) (hq : Ch P q9 s) (c_frm : P .frm = true) :
    Ch P q9 (State.modFrm s i f) := by
  unfold State.modFrm
  with_reducible eapply Ch.frm c_frm; with_reducible assumption

theorem State_modBas_within (s : State) (b : BasinId) (f : Basin → Basin) (hq : Ch P q9 s) (c_bas : P .bas = true) :
    Ch P q9 (State.modBas s b f) := by
  unfold State.modBas
  with_reducible eapply Ch.bas c_bas; with_reducible assumption

theorem State_modLMap_within (s : State) (l : Lch) (f : LMap → LMap) (hq : Ch P q9 s) (c_lmap : P .lmap = true) :
    Ch P q9 (State.modLMap s l f) := by
  unfold State.modLMap
  with_reducible eapply Ch.lmap c_lmap; with_reducible assumption

theorem State_modGt_within (s : State) (n : Fin 2) (f : Tracker → Tracker) (hq : Ch P q9 s) (c_gt : P .gt = true) :
    Ch P q9 (State.modGt s n f) := by
  unfold State.modGt
  with_reducible eapply Ch.gt c_gt; with_reducible assumption

theorem State_modConv_within (s : State) (c : Fin 2) (f : Conv → Conv) (hq : Ch P q9 s) (c_conv : P .conv = true) :
    Ch P q9 (State.modConv s c f) := by
  unfold State.modConv
  with_reducible eapply Ch.conv c_conv; with_reducible assumption

theorem State_modPrb_within (s : State) (p : Fin 16) (f : Probe → Probe) (hq : Ch P q9 s) (c_prb : P .prb = true) :
    Ch P q9 (State.modPrb s p f) := by
  unfold State.modPrb
  with_reducible eapply Ch.prb c_prb; with_reducible assumption

theorem State_modXing_within (s : State) (x : Fin 70) (f : Crossing → Crossing) (hq : Ch P q9 s) (c_xing : P .xing = true) :
    Ch P q9 (State.modXing s x f) := by
  unfold State.modXing
  with_reducible eapply Ch.xing c_xing; with_reducible assumption

theorem State_modSpw_within (s : State) (f : Spillway → Spillway) (hq : Ch P q9 s) (c_spw : P .spw = true) :
    Ch P q9 (State.modSpw s f) := by
  unfold State.modSpw
  with_reducible eapply Ch.spw c_spw; with_reducible assumption

theorem State_modEnt_within (s : State) (i : Fin 256) (f : SpwEnt → SpwEnt) (hq : Ch P q9 s) (c_spw : P .spw = true) :
    Ch P q9 (State.modEnt s i f) := by
  unfold State.modEnt
  with_reducible eapply Ch.spw c_spw; with_reducible assumption

/-- The parts that a list allows. -/
def allow (ps : List Part) (p : Part) : Bool := ps.contains p

theorem within_of_ch {ps : List Part} {s t : State} (h : Ch (allow ps) s t) : Within ps s t := by
  intro p hp
  have e : allow ps p = false := by
    unfold allow
    simpa using hp
  unfold Ch ChP at h
  cases p <;> simp only [e, forall_const] at h <;> simp only [Part.same, h]

theorem evOk {ps : List Part} (h : evParts.all (allow ps) = true) : EvOk (allow ps) := by
  simp only [evParts, List.all_cons, List.all_nil, Bool.and_true, Bool.and_eq_true] at h
  exact ⟨h.1, h.2.1, h.2.2.1, h.2.2.2.1, h.2.2.2.2.1, h.2.2.2.2.2⟩

theorem rsOk {ps : List Part} (h : resetParts.all (allow ps) = true) : RsOk (allow ps) := by
  simp only [resetParts, List.all_cons, List.all_nil, Bool.and_true, Bool.and_eq_true] at h
  exact ⟨⟨h.2.2.2.2.2.2.2.2.2.2.2.2.2.1, h.2.2.2.2.2.2.2.2.2.2.2.2.2.2.1,
    h.2.2.2.2.2.2.2.2.2.2.2.2.2.2.2.2.2.2.2.2.2.2.2.2.2.1, h.2.2.2.2.2.2.2.2.2.2.2.2.2.2.2.2.2.2.2.2.2.2.2.2.2.2.1,
    h.2.2.2.2.2.2.2.2.2.2.2.2.2.2.2.2.2.2.2.2.2.2.2.2.1, h.2.2.2.2.2.2.2.2.2.2.2.2.2.2.2.2.1⟩, h.1, h.2.1, h.2.2.1,
    h.2.2.2.1, h.2.2.2.2.1, h.2.2.2.2.2.1, h.2.2.2.2.2.2.1, h.2.2.2.2.2.2.2.1, h.2.2.2.2.2.2.2.2.1,
    h.2.2.2.2.2.2.2.2.2.1, h.2.2.2.2.2.2.2.2.2.2.1, h.2.2.2.2.2.2.2.2.2.2.2.1, h.2.2.2.2.2.2.2.2.2.2.2.2.1,
    h.2.2.2.2.2.2.2.2.2.2.2.2.2.2.2.1, h.2.2.2.2.2.2.2.2.2.2.2.2.2.2.2.2.2.1, h.2.2.2.2.2.2.2.2.2.2.2.2.2.2.2.2.2.2.1,
    h.2.2.2.2.2.2.2.2.2.2.2.2.2.2.2.2.2.2.2.1, h.2.2.2.2.2.2.2.2.2.2.2.2.2.2.2.2.2.2.2.2.1,
    h.2.2.2.2.2.2.2.2.2.2.2.2.2.2.2.2.2.2.2.2.2.1, h.2.2.2.2.2.2.2.2.2.2.2.2.2.2.2.2.2.2.2.2.2.2.1,
    h.2.2.2.2.2.2.2.2.2.2.2.2.2.2.2.2.2.2.2.2.2.2.2.1, h.2.2.2.2.2.2.2.2.2.2.2.2.2.2.2.2.2.2.2.2.2.2.2.2.2.2.2.1,
    h.2.2.2.2.2.2.2.2.2.2.2.2.2.2.2.2.2.2.2.2.2.2.2.2.2.2.2.2⟩

end Sys2Proof.Machine
end

