-- ==== Sys2Proof/Laws/PartsUnits.lean ====
section
/-! SUPPORT. For each function of the model, the parts of the state it may change: Ops, Gate, Chan, Capture, Output,
HarnessOps, Spill, GaitOps, OstlerOps, Record, Channel. -/

namespace Sys2Proof.Machine

open Sys2Proof.Claims

set_option maxRecDepth 4096

variable {P : Part → Bool} {q9 : State}

theorem advanceTo_within (t : Instant) (s : State) (hq : Ch P q9 s) (c_tb : P .tb = true) :
    Ch P q9 (advanceTo t s) := by
  unfold advanceTo
  repeat' first
    | (with_reducible first | intro _ | assumption | apply ite_within)
    | (with_reducible eapply Ch.tb c_tb; first | assumption | apply ite_within)
    | split
    | dsimp only

theorem tideTo_within (k : TideCnt) (s : State) (hq : Ch P q9 s) (c_rsv : P .rsv = true) :
    Ch P q9 (tideTo k s) := by
  unfold tideTo
  repeat' first
    | (with_reducible first | intro _ | assumption | apply ite_within)
    | (with_reducible eapply Ch.rsv c_rsv; first | assumption | apply ite_within)
    | split
    | dsimp only

theorem latchPair_within (sleep : Bool) (s : State) (hq : Ch P q9 s) (c_tb : P .tb = true) (c_rsv : P .rsv = true)
    (c_rcd : P .rcd = true) :
    Ch P q9 (latchPair sleep s) := by
  unfold latchPair
  repeat' first
    | (with_reducible first | intro _ | assumption)
    | (with_reducible eapply Ch.tb c_tb; eapply Ch.rsv c_rsv; eapply Ch.rcd c_rcd; assumption)
    | split
    | dsimp only

theorem rebaseEngines_within (s : State) (hq : Ch P q9 s) (c_eng : P .eng = true) :
    Ch P q9 (rebaseEngines s) := by
  unfold rebaseEngines
  repeat' first
    | (with_reducible first | intro _ | assumption)
    | (with_reducible eapply Ch.eng c_eng; assumption)
    | split
    | dsimp only

theorem stopWdt_within (s : State) (hq : Ch P q9 s) (c_far : P .far = true) :
    Ch P q9 (stopWdt s) := by
  unfold stopWdt
  repeat' first
    | (with_reducible first | intro _ | assumption)
    | (with_reducible eapply Ch.far c_far; assumption)
    | split
    | dsimp only

theorem goWdt_within (s : State) (hq : Ch P q9 s) (c_far : P .far = true) :
    Ch P q9 (goWdt s) := by
  unfold goWdt
  repeat' first
    | (with_reducible first | intro _ | assumption)
    | (with_reducible eapply Ch.far c_far; assumption)
    | split
    | dsimp only

theorem pulse_within (i : Fin 256) (s : State) (hq : Ch P q9 s) (c_irq : P .irq = true) :
    Ch P q9 (pulse i s) := by
  unfold pulse
  repeat' first
    | (with_reducible first | intro _ | assumption | apply ite_within)
    | (with_reducible eapply Ch.irq c_irq; first | assumption | apply ite_within)
    | split
    | dsimp only

theorem choose_within {α : Type} (l : List α) (d : α) (s : State) (hq : Ch P q9 s) (c_far : P .far = true) :
    Ch P q9 ((choose l d s).2) := by
  unfold choose
  repeat' first
    | (with_reducible first | intro _ | assumption)
    | (with_reducible eapply Ch.far c_far; assumption)
    | split
    | dsimp only

theorem choose_within' {α : Type} (l : List α) (d : α) (s : State) {s9 : State} {x9 : _} (hq : Ch P q9 s)
    (c_far : P .far = true) (eq0 : choose l d s = (x9, s9)) :
    Ch P q9 s9 := by
  have e2 := choose_within l d s hq c_far
  rw [eq0] at e2
  exact e2

theorem takePage_within (s : State) {s9 : State} {x9 : _} (hq : Ch P q9 s) (c_ost : P .ost = true)
    (c_far : P .far = true) (eq0 : takePage s = some (x9, s9)) :
    Ch P q9 s9 := by
  unfold takePage at eq0
  try dsimp only at eq0
  repeat' first | split at eq0 | (with_reducible rw [Option.bind_eq_some_iff] at eq0; obtain ⟨_, _, eq0⟩ := eq0) | (with_reducible rw [Option.map_eq_some_iff] at eq0; obtain ⟨_, _, rfl⟩ := eq0) | cases eq0
  all_goals repeat' first
    | (with_reducible first
        | intro _ | assumption | apply choose_within | (apply choose_within'; case eq0 => assumption))
    | (with_reducible eapply Ch.ost c_ost; first | assumption | apply choose_within | (apply choose_within'; case eq0 => assumption))
    | (with_reducible eapply Ch.ost c_ost; dsimp only; first | (apply choose_within'; case eq0 => assumption))
    | split
    | dsimp only

theorem freePages_within (l : List Byte) (s : State) (hq : Ch P q9 s) (c_ost : P .ost = true) :
    Ch P q9 (freePages l s) := by
  unfold freePages
  repeat' first
    | (with_reducible first | intro _ | assumption | apply foldl_within | apply foldlFst_within)
    | (with_reducible eapply Ch.ost c_ost; first | assumption | apply foldl_within)
    | split
    | dsimp only

theorem releasePages_within (b : BasinId) (s : State) (hq : Ch P q9 s) (c_bas : P .bas = true)
    (c_ost : P .ost = true) :
    Ch P q9 (releasePages b s) := by
  unfold releasePages
  repeat' first
    | (with_reducible first | intro _ | assumption | apply State_modBas_within | apply freePages_within)
    | split
    | dsimp only

theorem clearMarks_within (m : Byte) (lo hi : Nat) (s : State) (hq : Ch P q9 s) (c_hlt : P .hlt = true) :
    Ch P q9 (clearMarks m lo hi s) := by
  unfold clearMarks
  repeat' first
    | (with_reducible first | intro _ | assumption)
    | (with_reducible eapply Ch.hlt c_hlt; assumption)
    | split
    | dsimp only

theorem makeRoom_within (b : BasinId) (s : State) {s9 : State} {x9 : _} (hq : Ch P q9 s) (c_bas : P .bas = true)
    (c_ost : P .ost = true) (c_far : P .far = true) (eq0 : makeRoom b s = some (s9, x9)) :
    Ch P q9 s9 := by
  unfold makeRoom at eq0
  dsimp only at eq0
  split at eq0
  · cases eq0; exact hq
  · split at eq0
    · cases eq0; exact State_modBas_within _ _ _ hq c_bas
    · split at eq0
      · rename_i g
        split at g
        · cases eq0
          exact State_modBas_within _ _ _ (takePage_within s hq c_ost c_far g) c_bas
        · cases g
      · split at eq0
        · cases eq0; exact State_modBas_within _ _ _ hq c_bas
        · cases eq0

theorem storeRecord_within (b : BasinId) (r : Rec) (s : State) (hq : Ch P q9 s) (c_bas : P .bas = true)
    (c_bmem : P .bmem = true) (c_hlt : P .hlt = true) :
    Ch P q9 (storeRecord b r s) := by
  unfold storeRecord
  repeat' first
    | (with_reducible first | intro _ | assumption | apply State_modBas_within | apply clearMarks_within)
    | (with_reducible eapply Ch.bmem c_bmem; first | assumption | apply State_modBas_within | apply clearMarks_within)
    | split
    | dsimp only

theorem loseB63_within (s : State) (hq : Ch P q9 s) (c_bas : P .bas = true) (c_ost : P .ost = true)
    (c_irq : P .irq = true) :
    Ch P q9 (loseB63 s) := by
  unfold loseB63
  repeat' first
    | (with_reducible first | intro _ | assumption | apply ite_within | apply State_modBas_within | apply pulse_within)
    | (with_reducible eapply Ch.ost c_ost; first | assumption | apply State_modBas_within | apply pulse_within | apply ite_within)
    | split
    | dsimp only

theorem putB63_within (r : Rec) (s : State) (hq : Ch P q9 s) (cE : EvOk P) :
    Ch P q9 (putB63 r s) := by
  have c_bas := cE.bas
  have c_bmem := cE.bmem
  have c_ost := cE.ost
  have c_irq := cE.irq
  have c_far := cE.far
  have c_hlt := cE.hlt
  unfold putB63
  repeat' first
    | (with_reducible first
        | intro _ | assumption | apply loseB63_within | (apply makeRoom_within; case eq0 => assumption)
        | apply storeRecord_within)
    | split
    | dsimp only

theorem postB63_within (r : Rec) (s : State) (hq : Ch P q9 s) (cE : EvOk P) :
    Ch P q9 (postB63 r s) := by
  have c_bas := cE.bas
  have c_bmem := cE.bmem
  have c_ost := cE.ost
  have c_irq := cE.irq
  have c_far := cE.far
  have c_hlt := cE.hlt
  unfold postB63
  repeat' first
    | (with_reducible first
        | intro _ | assumption | apply ite_within | apply State_modBas_within | apply loseB63_within
        | (apply makeRoom_within; case eq0 => assumption) | apply putB63_within | apply storeRecord_within)
    | (with_reducible eapply Ch.ost c_ost; first
        | assumption | apply State_modBas_within | apply loseB63_within
        | (apply makeRoom_within; case eq0 => assumption) | apply putB63_within | apply storeRecord_within
        | apply ite_within)
    | (with_reducible eapply Ch.ost c_ost; dsimp only; first | (apply makeRoom_within; case eq0 => assumption))
    | split
    | dsimp only

theorem enqueue_within (tid : Tid) (e : Ev) (s : State) (hq : Ch P q9 s) (cE : EvOk P) (c_thr : P .thr = true)
    (c_eng : P .eng = true) :
    Ch P q9 (enqueue tid e s) := by
  unfold enqueue
  repeat' first
    | (with_reducible first
        | intro _ | assumption | apply ite_within | apply cond_within | apply State_modEng_within
        | apply State_modThr_within | apply postB63_within)
    | split
    | dsimp only

theorem thrEval_within (b : BasinId) (s : State) (hq : Ch P q9 s) (cE : EvOk P) (c_thr : P .thr = true)
    (c_eng : P .eng = true) :
    Ch P q9 (thrEval b s) := by
  have c_bas := cE.bas
  unfold thrEval
  repeat' first
    | (with_reducible first
        | intro _ | assumption | apply ite_within | apply forEach_within | apply State_modBas_within
        | apply enqueue_within | apply forEach_within)
    | split
    | dsimp only

theorem postOverflow_within (b : BasinId) (aux : W16) (n : Nat) (s : State) (hq : Ch P q9 s) (cE : EvOk P) :
    Ch P q9 (postOverflow b aux n s) := by
  unfold postOverflow
  repeat' first
    | (with_reducible first | intro _ | assumption | apply postB63_within)
    | split
    | dsimp only

theorem dropRecord_within (b : BasinId) (s : State) (hq : Ch P q9 s) (cE : EvOk P) :
    Ch P q9 (dropRecord b s) := by
  have c_bas := cE.bas
  have c_irq := cE.irq
  unfold dropRecord
  repeat' first
    | (with_reducible first
        | intro _ | assumption | apply ite_within | apply State_modBas_within | apply postOverflow_within
        | apply pulse_within)
    | split
    | dsimp only

theorem postTo_within (b : BasinId) (r : Rec) (s : State) (hq : Ch P q9 s) (cE : EvOk P) (c_thr : P .thr = true)
    (c_eng : P .eng = true) :
    Ch P q9 ((postTo b r s).1) := by
  have c_bas := cE.bas
  have c_bmem := cE.bmem
  have c_ost := cE.ost
  have c_far := cE.far
  have c_hlt := cE.hlt
  unfold postTo
  repeat' first
    | (with_reducible first
        | intro _ | assumption | apply ite_within | apply iteFst_within | apply State_modBas_within
        | apply dropRecord_within | (apply makeRoom_within; case eq0 => assumption) | apply postOverflow_within
        | apply storeRecord_within | apply thrEval_within)
    | split
    | dsimp only

theorem postTo_within' (b : BasinId) (r : Rec) (s : State) {s9 : State} {x9 : _} (hq : Ch P q9 s) (cE : EvOk P)
    (c_thr : P .thr = true) (c_eng : P .eng = true) (eq0 : postTo b r s = (s9, x9)) :
    Ch P q9 s9 := by
  have e2 := postTo_within b r s hq cE c_thr c_eng
  rw [eq0] at e2
  exact e2

theorem postBasin_within (b : BasinId) (r : Rec) (s : State) (hq : Ch P q9 s) (cE : EvOk P) (c_thr : P .thr = true)
    (c_eng : P .eng = true) :
    Ch P q9 (postBasin b r s) := by
  unfold postBasin
  repeat' first
    | (with_reducible first
        | intro _ | assumption | apply ite_within | apply iteFst_within | apply postB63_within | apply postTo_within
        | (apply postTo_within'; case eq0 => assumption))
    | split
    | dsimp only

theorem detEvent_within (cls idx : Byte) (ev : Byte) (inj : Bool) (data : W32) (s : State) (hq : Ch P q9 s)
    (c_hlt : P .hlt = true) :
    Ch P q9 (detEvent cls idx ev inj data s) := by
  unfold detEvent
  repeat' first
    | (with_reducible first | intro _ | assumption | apply ite_within)
    | (with_reducible eapply Ch.hlt c_hlt; first | assumption | apply ite_within)
    | split
    | dsimp only

theorem health_within (cls idx ev : Byte) (inj : Bool) (data : W32) (s : State) (hq : Ch P q9 s) (cE : EvOk P) :
    Ch P q9 (health cls idx ev inj data s) := by
  have c_hlt := cE.hlt
  unfold health
  repeat' first
    | (with_reducible first | intro _ | assumption | apply cond_within | apply detEvent_within | apply postB63_within)
    | split
    | dsimp only

theorem setCause_within (i : Nat) (inj : Bool) (s : State) (hq : Ch P q9 s) (c_irq : P .irq = true)
    (c_hlt : P .hlt = true) :
    Ch P q9 (setCause i inj s) := by
  unfold setCause
  repeat' first
    | (with_reducible first | intro _ | assumption | apply ite_within | apply pulse_within)
    | (with_reducible eapply Ch.hlt c_hlt; first | assumption | apply pulse_within | apply ite_within)
    | split
    | dsimp only

theorem dropEntries_within (l : List (Fin 256)) (s : State) (hq : Ch P q9 s) (c_spw : P .spw = true) :
    Ch P q9 (dropEntries l s) := by
  unfold dropEntries
  repeat' first
    | (with_reducible first
        | intro _ | assumption | apply foldl_within | apply foldlFst_within | apply State_modSpw_within)
    | split
    | dsimp only

theorem withdraw_within (p : SpwEnt → Bool) (s : State) (hq : Ch P q9 s) (c_spw : P .spw = true) :
    Ch P q9 (withdraw p s) := by
  unfold withdraw
  repeat' first
    | (with_reducible first | intro _ | assumption | apply State_modSpw_within | apply dropEntries_within)
    | split
    | dsimp only

theorem stopThread_within (reason : W16) (tid : Tid) (s : State) (hq : Ch P q9 s) (cE : EvOk P)
    (c_thr : P .thr = true) (c_spw : P .spw = true) :
    Ch P q9 (stopThread reason tid s) := by
  have c_irq := cE.irq
  have c_far := cE.far
  unfold stopThread
  repeat' first
    | (with_reducible first
        | intro _ | assumption | apply State_modThr_within | apply postB63_within | apply pulse_within
        | apply withdraw_within)
    | (with_reducible eapply Ch.far c_far; first
        | assumption | apply State_modThr_within | apply postB63_within | apply pulse_within | apply withdraw_within)
    | split
    | dsimp only

theorem freeThread_within (tid : Tid) (s : State) (hq : Ch P q9 s) (c_thr : P .thr = true) (c_eng : P .eng = true)
    (c_far : P .far = true) :
    Ch P q9 (freeThread tid s) := by
  unfold freeThread
  repeat' first
    | (with_reducible first
        | intro _ | assumption | apply ite_within | apply State_modEng_within | apply State_modThr_within)
    | (with_reducible eapply Ch.far c_far; first | assumption | apply State_modEng_within | apply State_modThr_within | apply ite_within)
    | split
    | dsimp only

theorem dropEvents_within (x : Fin 70) (n : Nat) (s : State) (hq : Ch P q9 s) (cE : EvOk P)
    (c_xing : P .xing = true) :
    Ch P q9 (dropEvents x n s) := by
  have c_irq := cE.irq
  have c_hlt := cE.hlt
  unfold dropEvents
  repeat' first
    | (with_reducible first
        | intro _ | assumption | apply ite_within | apply State_modXing_within | apply detEvent_within
        | apply postB63_within | apply pulse_within)
    | split
    | dsimp only

theorem pushEvent_within (x : Fin 70) (e : XEv) (s : State) (hq : Ch P q9 s) (cE : EvOk P) (c_xing : P .xing = true) :
    Ch P q9 (pushEvent x e s) := by
  unfold pushEvent
  repeat' first
    | (with_reducible first
        | intro _ | assumption | apply ite_within | apply State_modXing_within | apply dropEvents_within)
    | split
    | dsimp only

theorem countLate_within (s : State) (hq : Ch P q9 s) (cE : EvOk P) (c_xing : P .xing = true) :
    Ch P q9 (countLate s) := by
  unfold countLate
  repeat' first
    | (with_reducible first
        | intro _ | assumption | apply ite_within | apply forEach_within | apply dropEvents_within
        | apply forEach_within)
    | split
    | dsimp only

theorem regateBy_within (pulse : Bool) (h : HarnessId) (s : State) (hq : Ch P q9 s) (c_units : P .units = true)
    (c_link : P .link = true) :
    Ch P q9 (regateBy pulse h s) := by
  unfold regateBy
  repeat' first
    | (with_reducible first
        | intro _ | assumption | apply ite_within | apply forEach_within | apply State_modUnit_within
        | apply forEach_within)
    | (with_reducible eapply Ch.link c_link; first
        | assumption | apply State_modUnit_within | apply forEach_within | apply ite_within | apply forEach_within)
    | split
    | dsimp only

theorem regate_within (h : HarnessId) (s : State) (hq : Ch P q9 s) (c_units : P .units = true)
    (c_link : P .link = true) :
    Ch P q9 (regate h s) := by
  unfold regate
  repeat' first
    | (with_reducible first | intro _ | assumption | apply regateBy_within)
    | split
    | dsimp only

theorem windowOpen_within (h : HarnessId) (m : Fin 4) (t : EvTime) (s : State) (hq : Ch P q9 s)
    (c_units : P .units = true) (c_link : P .link = true) (c_har : P .har = true) :
    Ch P q9 (windowOpen h m t s) := by
  unfold windowOpen
  repeat' first
    | (with_reducible first | intro _ | assumption | apply ite_within | apply State_modHar_within | apply regate_within)
    | split
    | dsimp only

theorem postCancel_within (h : HarnessId) (m : Fin 4) (limit : Nat) (s : State) (hq : Ch P q9 s) (cE : EvOk P)
    (c_har : P .har = true) :
    Ch P q9 (postCancel h m limit s) := by
  unfold postCancel
  repeat' first
    | (with_reducible first | intro _ | assumption | apply State_modHar_within | apply postB63_within)
    | split
    | dsimp only

theorem windowClose_within (h : HarnessId) (m : Fin 4) (t : EvTime) (s : State) (hq : Ch P q9 s) (cE : EvOk P)
    (c_units : P .units = true) (c_link : P .link = true) (c_har : P .har = true) :
    Ch P q9 (windowClose h m t s) := by
  unfold windowClose
  repeat' first
    | (with_reducible first
        | intro _ | assumption | apply ite_within | apply State_modHar_within | apply postCancel_within
        | apply regate_within)
    | split
    | dsimp only

theorem gateReact_within (l : Lch) (t : EvTime) (s : State) (hq : Ch P q9 s) (cE : EvOk P) (c_units : P .units = true)
    (c_link : P .link = true) (c_har : P .har = true) :
    Ch P q9 (gateReact l t s) := by
  unfold gateReact
  repeat' first
    | (with_reducible first
        | intro _ | assumption | apply ite_within | apply regateBy_within | apply windowClose_within
        | apply windowOpen_within)
    | split
    | dsimp only

theorem notify_within (u : UnitId) (code : BitVec 2) (flagBit : Nat) (e : XEv) (s : State) (hq : Ch P q9 s)
    (cE : EvOk P) (c_units : P .units = true) (c_xing : P .xing = true) :
    Ch P q9 (notify u code flagBit e s) := by
  unfold notify
  repeat' first
    | (with_reducible first
        | intro _ | assumption | apply ite_within | apply cond_within | apply State_modUnit_within
        | apply pushEvent_within)
    | split
    | dsimp only

theorem capEvent_within (u : UnitId) (what : BitVec 3) (flagBit : Nat) (e : XEv) (s : State) (hq : Ch P q9 s)
    (cE : EvOk P) (c_units : P .units = true) (c_xing : P .xing = true) :
    Ch P q9 (capEvent u what flagBit e s) := by
  unfold capEvent
  repeat' first
    | (with_reducible first | intro _ | assumption | apply ite_within | apply State_modUnit_within | apply notify_within)
    | split
    | dsimp only

theorem captureSingle_within (u : UnitId) (level : Bool) (stamp : EvTime) (s : State) (hq : Ch P q9 s) (cE : EvOk P)
    (c_units : P .units = true) (c_xing : P .xing = true) :
    Ch P q9 (captureSingle u level stamp s) := by
  unfold captureSingle
  repeat' first
    | (with_reducible first
        | intro _ | assumption | apply ite_within | apply State_modUnit_within | apply capEvent_within)
    | split
    | dsimp only

theorem capturePair_within (u : UnitId) (level : Bool) (stamp : EvTime) (s : State) (hq : Ch P q9 s) (cE : EvOk P)
    (c_units : P .units = true) (c_xing : P .xing = true) :
    Ch P q9 (capturePair u level stamp s) := by
  unfold capturePair
  repeat' first
    | (with_reducible first
        | intro _ | assumption | apply ite_within | apply State_modUnit_within | apply capEvent_within)
    | split
    | dsimp only

theorem acceptEdge_within (u : UnitId) (s : State) (hq : Ch P q9 s) (cE : EvOk P) (c_units : P .units = true)
    (c_xing : P .xing = true) :
    Ch P q9 (acceptEdge u s) := by
  unfold acceptEdge
  repeat' first
    | (with_reducible first
        | intro _ | assumption | apply ite_within | apply State_modUnit_within | apply capturePair_within
        | apply captureSingle_within)
    | split
    | dsimp only

theorem inputEdge_within (u : UnitId) (raw : Bool) (e : EvTime) (s : State) (hq : Ch P q9 s) (cE : EvOk P)
    (c_units : P .units = true) (c_xing : P .xing = true) :
    Ch P q9 (inputEdge u raw e s) := by
  unfold inputEdge
  repeat' first
    | (with_reducible first
        | intro _ | assumption | apply ite_within | apply State_modUnit_within | apply acceptEdge_within)
    | split
    | dsimp only

theorem boardLevel_within (u : UnitId) (raw z : Bool) (s : State) (hq : Ch P q9 s) (c_pad : P .pad = true)
    (c_padZ : P .padZ = true) (c_psn : P .psn = true) :
    Ch P q9 (boardLevel u raw z s) := by
  unfold boardLevel
  repeat' first
    | (with_reducible first | intro _ | assumption | apply ite_within)
    | (with_reducible eapply Ch.pad c_pad; eapply Ch.padZ c_padZ; eapply Ch.psn c_psn; first | assumption | apply ite_within)
    | (with_reducible eapply Ch.pad c_pad; eapply Ch.padZ c_padZ; first | assumption | apply ite_within)
    | (with_reducible eapply Ch.psn c_psn; first | assumption | apply ite_within)
    | split
    | dsimp only

theorem feedUnit_within (v : UnitId) (e : EvTime) (s : State) (hq : Ch P q9 s) (cE : EvOk P)
    (c_units : P .units = true) (c_xing : P .xing = true) :
    Ch P q9 (feedUnit v e s) := by
  unfold feedUnit
  repeat' first
    | (with_reducible first | intro _ | assumption | apply ite_within | apply inputEdge_within)
    | split
    | dsimp only

theorem feedOutput_within (u : UnitId) (e : EvTime) (s : State) (hq : Ch P q9 s) (cE : EvOk P)
    (c_units : P .units = true) (c_xing : P .xing = true) :
    Ch P q9 (feedOutput u e s) := by
  unfold feedOutput
  repeat' first
    | (with_reducible first | intro _ | assumption | apply forEach_within | apply feedUnit_within | apply forEach_within)
    | split
    | dsimp only

theorem feedPad_within (k : Fin 40) (s : State) (hq : Ch P q9 s) (cE : EvOk P) (c_units : P .units = true)
    (c_xing : P .xing = true) :
    Ch P q9 (feedPad k s) := by
  unfold feedPad
  repeat' first
    | (with_reducible first | intro _ | assumption | apply forEach_within | apply feedUnit_within | apply forEach_within)
    | split
    | dsimp only

theorem writeTio_within (k : Fin 40) (v : W32) (s : State) (hq : Ch P q9 s) (cE : EvOk P) (c_units : P .units = true)
    (c_tio : P .tio = true) (c_xing : P .xing = true) :
    Ch P q9 (writeTio k v s) := by
  unfold writeTio
  repeat' first
    | (with_reducible first | intro _ | assumption | apply feedPad_within)
    | (with_reducible eapply Ch.tio c_tio; first | assumption | apply feedPad_within)
    | split
    | dsimp only

theorem feedPins_within (l : Lch) (s : State) (hq : Ch P q9 s) (cE : EvOk P) (c_units : P .units = true)
    (c_xing : P .xing = true) :
    Ch P q9 (feedPins l s) := by
  unfold feedPins
  repeat' first
    | (with_reducible first | intro _ | assumption | apply forEach_within | apply feedPad_within | apply forEach_within)
    | split
    | dsimp only

theorem outChanged_within (u : UnitId) (t : EvTime) (s : State) (hq : Ch P q9 s) (cE : EvOk P)
    (c_units : P .units = true) (c_xing : P .xing = true) (c_link : P .link = true) (c_har : P .har = true) :
    Ch P q9 (outChanged u t s) := by
  unfold outChanged
  repeat' first
    | (with_reducible first | intro _ | assumption | apply ite_within | apply feedOutput_within | apply gateReact_within)
    | split
    | dsimp only

theorem setLevel_within (u : UnitId) (v : Bool) (s : State) (hq : Ch P q9 s) (cE : EvOk P) (c_units : P .units = true)
    (c_xing : P .xing = true) (c_link : P .link = true) (c_har : P .har = true) :
    Ch P q9 (setLevel u v s) := by
  unfold setLevel
  repeat' first
    | (with_reducible first
        | intro _ | assumption | apply ite_within | apply State_modUnit_within | apply outChanged_within)
    | split
    | dsimp only

theorem applyAction_within (u : UnitId) (act : BitVec 2) (fall placed cyc : EvTime) (hold : Bool) (s : State)
    (hq : Ch P q9 s) (cE : EvOk P) (c_units : P .units = true) (c_xing : P .xing = true) (c_link : P .link = true)
    (c_har : P .har = true) :
    Ch P q9 (applyAction u act fall placed cyc hold s) := by
  unfold applyAction
  repeat' first
    | (with_reducible first
        | intro _ | assumption | apply ite_within | apply State_modUnit_within | apply outChanged_within)
    | split
    | dsimp only

theorem settleOutput_within (u : UnitId) (s : State) (hq : Ch P q9 s) (cE : EvOk P) (c_units : P .units = true)
    (c_xing : P .xing = true) (c_link : P .link = true) (c_har : P .har = true) :
    Ch P q9 (settleOutput u s) := by
  unfold settleOutput
  repeat' first
    | (with_reducible first
        | intro _ | assumption | apply ite_within | apply State_modUnit_within | apply outChanged_within)
    | split
    | dsimp only

theorem writeCtrl_within (u : UnitId) (v : W32) (s : State) (hq : Ch P q9 s) (c_units : P .units = true) :
    Ch P q9 (writeCtrl u v s) := by
  unfold writeCtrl
  repeat' first
    | (with_reducible first | intro _ | assumption | apply ite_within | apply State_modUnit_within)
    | split
    | dsimp only

theorem safeUnit_within (u : UnitId) (s : State) (hq : Ch P q9 s) (cE : EvOk P) (c_units : P .units = true)
    (c_xing : P .xing = true) (c_link : P .link = true) (c_har : P .har = true) :
    Ch P q9 (safeUnit u s) := by
  unfold safeUnit
  repeat' first
    | (with_reducible first
        | intro _ | assumption | apply ite_within | apply State_modUnit_within | apply outChanged_within)
    | split
    | dsimp only

theorem safeChannel_within (l : Lch) (s : State) (hq : Ch P q9 s) (cE : EvOk P) (c_units : P .units = true)
    (c_xing : P .xing = true) (c_link : P .link = true) (c_har : P .har = true) :
    Ch P q9 (safeChannel l s) := by
  unfold safeChannel
  repeat' first
    | (with_reducible first | intro _ | assumption | apply safeUnit_within)
    | split
    | dsimp only

theorem force_within (u : UnitId) (code : BitVec 2) (s : State) (hq : Ch P q9 s) (cE : EvOk P)
    (c_units : P .units = true) (c_xing : P .xing = true) (c_link : P .link = true) (c_har : P .har = true) :
    Ch P q9 (force u code s) := by
  unfold force
  repeat' first
    | (with_reducible first | intro _ | assumption | apply safeUnit_within | apply setLevel_within)
    | split
    | dsimp only

theorem ownMatch_within (u : UnitId) (b : Bool) (fall : EvTime) (s : State) (hq : Ch P q9 s)
    (c_units : P .units = true) :
    Ch P q9 (ownMatch u b fall s) := by
  unfold ownMatch
  repeat' first
    | (with_reducible first | intro _ | assumption | apply ite_within | apply State_modUnit_within)
    | split
    | dsimp only

theorem matchAt_within (u : UnitId) (b : Bool) (act : BitVec 2) (fall placed cyc : EvTime) (hold late : Bool)
    (s : State) (hq : Ch P q9 s) (cE : EvOk P) (c_units : P .units = true) (c_xing : P .xing = true)
    (c_link : P .link = true) (c_har : P .har = true) :
    Ch P q9 (matchAt u b act fall placed cyc hold late s) := by
  unfold matchAt
  repeat' first
    | (with_reducible first
        | intro _ | assumption | apply ite_within | apply cond_within | apply State_modUnit_within
        | apply applyAction_within | apply notify_within | apply ownMatch_within)
    | split
    | dsimp only

theorem fireFree_within (u : UnitId) (b late : Bool) (s : State) (hq : Ch P q9 s) (cE : EvOk P)
    (c_units : P .units = true) (c_xing : P .xing = true) (c_link : P .link = true) (c_har : P .har = true) :
    Ch P q9 (fireFree u b late s) := by
  unfold fireFree
  repeat' first
    | (with_reducible first
        | intro _ | assumption | apply ite_within | apply State_modUnit_within | apply matchAt_within)
    | split
    | dsimp only

theorem unitOp_within (u : UnitId) (op : Byte) (v : EvTime) (s : State) (hq : Ch P q9 s) (cE : EvOk P)
    (c_units : P .units = true) (c_xing : P .xing = true) (c_link : P .link = true) (c_har : P .har = true) :
    Ch P q9 (unitOp u op v s) := by
  unfold unitOp
  repeat' first
    | (with_reducible first
        | intro _ | assumption | apply ite_within | apply State_modUnit_within | apply force_within
        | apply writeCtrl_within)
    | split
    | dsimp only

theorem chanOp_within (l : Lch) (op : Byte) (v : EvTime) (s : State) (hq : Ch P q9 s) (cE : EvOk P)
    (c_units : P .units = true) (c_xing : P .xing = true) (c_link : P .link = true) (c_har : P .har = true)
    (c_lmap : P .lmap = true) :
    Ch P q9 (chanOp l op v s) := by
  unfold chanOp
  repeat' first
    | (with_reducible first | intro _ | assumption | apply ite_within | apply State_modLMap_within | apply unitOp_within)
    | split
    | dsimp only

theorem writeReply_within (mb : MailboxId) (cmd tag status : Byte) (payload : List Byte) (s : State) (hq : Ch P q9 s)
    (c_host : P .host = true) :
    Ch P q9 (writeReply mb cmd tag status payload s) := by
  unfold writeReply
  repeat' first
    | (with_reducible first | intro _ | assumption)
    | (with_reducible eapply Ch.host c_host; assumption)
    | split
    | dsimp only

theorem adoptCh_within (l : Lch) (s : State) (hq : Ch P q9 s) (c_far : P .far = true) :
    Ch P q9 (adoptCh l s) := by
  unfold adoptCh
  repeat' first
    | (with_reducible first | intro _ | assumption)
    | (with_reducible eapply Ch.far c_far; assumption)
    | split
    | dsimp only

theorem adoptHar_within (h : HarnessId) (s : State) (hq : Ch P q9 s) (c_far : P .far = true) :
    Ch P q9 (adoptHar h s) := by
  unfold adoptHar
  repeat' first
    | (with_reducible first | intro _ | assumption)
    | (with_reducible eapply Ch.far c_far; assumption)
    | split
    | dsimp only

theorem adoptMembers_within (h : HarnessId) (s : State) (hq : Ch P q9 s) (c_far : P .far = true) :
    Ch P q9 (adoptMembers h s) := by
  unfold adoptMembers
  repeat' first
    | (with_reducible first
        | intro _ | assumption | apply forEach_within | apply adoptCh_within | apply adoptHar_within
        | apply forEach_within)
    | split
    | dsimp only

theorem postMotion_within (h : HarnessId) (ev reason : Byte) (data : W32) (s : State) (hq : Ch P q9 s) (cE : EvOk P) :
    Ch P q9 (postMotion h ev reason data s) := by
  unfold postMotion
  repeat' first
    | (with_reducible first | intro _ | assumption | apply postB63_within)
    | split
    | dsimp only

theorem State_modMot_within (s : State) (h : HarnessId) (f : Motion → Motion) (hq : Ch P q9 s)
    (c_har : P .har = true) :
    Ch P q9 (State.modMot s h f) := by
  unfold State.modMot
  repeat' first
    | (with_reducible first | intro _ | assumption | apply State_modHar_within)
    | split
    | dsimp only

theorem answerStart_within (h : HarnessId) (status : Byte) (payload : List Byte) (s : State) (hq : Ch P q9 s)
    (c_har : P .har = true) (c_host : P .host = true) :
    Ch P q9 (answerStart h status payload s) := by
  unfold answerStart
  repeat' first
    | (with_reducible first | intro _ | assumption | apply State_modMot_within | apply writeReply_within)
    | split
    | dsimp only

theorem motionFault_within (h : HarnessId) (s : State) (hq : Ch P q9 s) (cE : EvOk P) (c_har : P .har = true)
    (c_host : P .host = true) :
    Ch P q9 (motionFault h s) := by
  unfold motionFault
  repeat' first
    | (with_reducible first
        | intro _ | assumption | apply ite_within | apply State_modMot_within | apply answerStart_within
        | apply postMotion_within)
    | split
    | dsimp only

theorem commitHarness_within (h : HarnessId) (s : State) (hq : Ch P q9 s) (c_units : P .units = true) :
    Ch P q9 (commitHarness h s) := by
  unfold commitHarness
  repeat' first
    | (with_reducible first
        | intro _ | assumption | apply ite_within | apply forEach_within | apply State_modUnit_within
        | apply forEach_within)
    | split
    | dsimp only

theorem safeHarness_within (h : HarnessId) (s : State) (hq : Ch P q9 s) (cE : EvOk P) (c_units : P .units = true)
    (c_xing : P .xing = true) (c_link : P .link = true) (c_har : P .har = true) :
    Ch P q9 (safeHarness h s) := by
  unfold safeHarness
  repeat' first
    | (with_reducible first
        | intro _ | assumption | apply ite_within | apply forEach_within | apply State_modHar_within
        | apply forEach_within | apply regate_within | apply safeChannel_within)
    | split
    | dsimp only

theorem resumeHarness_within (h : HarnessId) (s : State) (hq : Ch P q9 s) (c_units : P .units = true)
    (c_har : P .har = true) :
    Ch P q9 (resumeHarness h s) := by
  unfold resumeHarness
  repeat' first
    | (with_reducible first
        | intro _ | assumption | apply ite_within | apply State_modHar_within | apply commitHarness_within)
    | split
    | dsimp only

theorem phaseHarness_within (h : HarnessId) (ph : BitVec 9) (s : State) (hq : Ch P q9 s) (c_units : P .units = true)
    (c_link : P .link = true) (c_har : P .har = true) :
    Ch P q9 (phaseHarness h ph s) := by
  unfold phaseHarness
  repeat' first
    | (with_reducible first
        | intro _ | assumption | apply ite_within | apply foldl_within | apply foldlFst_within
        | apply State_modHar_within | apply regate_within)
    | split
    | dsimp only

theorem levelsHarness_within (h : HarnessId) (w : W32) (s : State) (hq : Ch P q9 s) (c_har : P .har = true) :
    Ch P q9 (levelsHarness h w s) := by
  unfold levelsHarness
  repeat' first
    | (with_reducible first | intro _ | assumption | apply ite_within | apply State_modHar_within)
    | split
    | dsimp only

theorem actHarness_within (h : HarnessId) (w : W32) (s : State) (hq : Ch P q9 s) (cE : EvOk P)
    (c_units : P .units = true) (c_xing : P .xing = true) (c_link : P .link = true) (c_har : P .har = true) :
    Ch P q9 (actHarness h w s) := by
  unfold actHarness
  repeat' first
    | (with_reducible first
        | intro _ | assumption | apply ite_within | apply State_modHar_within | apply commitHarness_within
        | apply levelsHarness_within | apply phaseHarness_within | apply resumeHarness_within
        | apply safeHarness_within)
    | split
    | dsimp only

theorem armTimed_within (h : HarnessId) (time : EvTime) (w : W32) (s : State) (hq : Ch P q9 s)
    (c_har : P .har = true) :
    Ch P q9 (armTimed h time w s) := by
  unfold armTimed
  repeat' first
    | (with_reducible first | intro _ | assumption | apply State_modHar_within)
    | split
    | dsimp only

theorem applyTimed_within (h : HarnessId) (s : State) (hq : Ch P q9 s) (cE : EvOk P) (c_units : P .units = true)
    (c_xing : P .xing = true) (c_link : P .link = true) (c_har : P .har = true) :
    Ch P q9 (applyTimed h s) := by
  unfold applyTimed
  repeat' first
    | (with_reducible first
        | intro _ | assumption | apply ite_within | apply State_modHar_within | apply actHarness_within)
    | split
    | dsimp only

theorem faultHarness_within (code member : Byte) (sense : BitVec 10) (h : HarnessId) (s : State) (hq : Ch P q9 s)
    (cE : EvOk P) (c_units : P .units = true) (c_xing : P .xing = true) (c_link : P .link = true)
    (c_har : P .har = true) (c_host : P .host = true) :
    Ch P q9 (faultHarness code member sense h s) := by
  have c_far := cE.far
  have c_hlt := cE.hlt
  unfold faultHarness
  repeat' first
    | (with_reducible first
        | intro _ | assumption | apply ite_within | apply forEach_within | apply State_modHar_within
        | apply adoptCh_within | apply adoptHar_within | apply detEvent_within | apply forEach_within
        | apply motionFault_within | apply postB63_within | apply regate_within | apply safeChannel_within)
    | split
    | dsimp only

theorem safePower_within (s : State) (hq : Ch P q9 s) (cE : EvOk P) (c_units : P .units = true)
    (c_xing : P .xing = true) (c_link : P .link = true) (c_har : P .har = true) :
    Ch P q9 (safePower s) := by
  unfold safePower
  repeat' first
    | (with_reducible first
        | intro _ | assumption | apply forEach_within | apply forEach_within | apply safeHarness_within)
    | split
    | dsimp only

theorem linkFault_within (s : State) (hq : Ch P q9 s) (cE : EvOk P) (c_units : P .units = true)
    (c_xing : P .xing = true) (c_link : P .link = true) (c_har : P .har = true) (c_host : P .host = true) :
    Ch P q9 (linkFault s) := by
  unfold linkFault
  repeat' first
    | (with_reducible first
        | intro _ | assumption | apply forEach_within | apply faultHarness_within | apply forEach_within)
    | (with_reducible eapply Ch.link c_link; first | assumption | apply faultHarness_within | apply forEach_within | apply forEach_within)
    | split
    | dsimp only

theorem pumpOff_within (s : State) (hq : Ch P q9 s) (c_link : P .link = true) :
    Ch P q9 (pumpOff s) := by
  unfold pumpOff
  repeat' first
    | (with_reducible first | intro _ | assumption | apply ite_within)
    | (with_reducible eapply Ch.link c_link; first | assumption | apply ite_within)
    | split
    | dsimp only

theorem closeHarness_within (h : HarnessId) (s : State) (hq : Ch P q9 s) (cE : EvOk P) (c_units : P .units = true)
    (c_xing : P .xing = true) (c_link : P .link = true) (c_har : P .har = true) (c_spw : P .spw = true) :
    Ch P q9 (closeHarness h s) := by
  have c_far := cE.far
  unfold closeHarness
  repeat' first
    | (with_reducible first
        | intro _ | assumption | apply forEach_within | apply State_modHar_within | apply feedPins_within
        | apply forEach_within | apply pumpOff_within | apply regate_within | apply withdraw_within)
    | (with_reducible eapply Ch.far c_far; first
        | assumption | apply State_modHar_within | apply feedPins_within | apply forEach_within | apply pumpOff_within
        | apply regate_within | apply withdraw_within | apply forEach_within)
    | split
    | dsimp only

theorem confirm_within (l : List (Fin 256)) (stamp : EvTime) (s : State) (hq : Ch P q9 s) (c_spw : P .spw = true) :
    Ch P q9 (confirm l stamp s) := by
  unfold confirm
  repeat' first
    | (with_reducible first
        | intro _ | assumption | apply ite_within | apply foldl_within | apply foldlFst_within
        | apply State_modSpw_within | apply dropEntries_within)
    | split
    | dsimp only

theorem confirmWhere_within (p : SpwEnt → Bool) (stamp : EvTime) (s : State) (hq : Ch P q9 s)
    (c_spw : P .spw = true) :
    Ch P q9 (confirmWhere p stamp s) := by
  unfold confirmWhere
  repeat' first
    | (with_reducible first
        | intro _ | assumption | apply State_modSpw_within | apply confirm_within | apply dropEntries_within)
    | split
    | dsimp only

theorem noteX78_within (l : Lch) (b : Bool) (s : State) (hq : Ch P q9 s) (c_arm : P .arm = true) :
    Ch P q9 (noteX78 l b s) := by
  unfold noteX78
  repeat' first
    | (with_reducible first | intro _ | assumption | apply ite_within | apply cond_within)
    | (with_reducible eapply Ch.arm c_arm; first | assumption | apply ite_within | apply cond_within)
    | split
    | dsimp only

theorem enterX78_within (i : Fin 256) (s : State) (hq : Ch P q9 s) (cE : EvOk P) (c_units : P .units = true)
    (c_arm : P .arm = true) (c_har : P .har = true) (c_spw : P .spw = true) :
    Ch P q9 (enterX78 i s) := by
  unfold enterX78
  repeat' first
    | (with_reducible first
        | intro _ | assumption | apply ite_within | apply State_modSpw_within | apply State_modUnit_within
        | apply armTimed_within | apply dropEntries_within | apply noteX78_within | apply postB63_within)
    | split
    | dsimp only

theorem spwWrite_within (prog : ProgId) (owner : Tid) (e : SpwEnt) (z : BitVec 6) (s : State) (hq : Ch P q9 s)
    (c_spw : P .spw = true) (c_hlt : P .hlt = true) :
    Ch P q9 ((spwWrite prog owner e z s).1) := by
  unfold spwWrite
  repeat' first
    | (with_reducible first
        | intro _ | assumption | apply ite_within | apply iteFst_within | apply State_modEnt_within
        | apply State_modSpw_within | apply clearMarks_within | apply confirm_within)
    | split
    | dsimp only

theorem spwWrite_within' (prog : ProgId) (owner : Tid) (e : SpwEnt) (z : BitVec 6) (s : State) {s9 : State} {x9 : _}
    (hq : Ch P q9 s) (c_spw : P .spw = true) (c_hlt : P .hlt = true) (eq0 : spwWrite prog owner e z s = (s9, x9)) :
    Ch P q9 s9 := by
  have e2 := spwWrite_within prog owner e z s hq c_spw c_hlt
  rw [eq0] at e2
  exact e2

theorem syncDiscard_within (n : Fin 2) (linkCh : BitVec 64) (linkH : BitVec 16) (s : State) (hq : Ch P q9 s)
    (c_spw : P .spw = true) :
    Ch P q9 (syncDiscard n linkCh linkH s) := by
  unfold syncDiscard
  repeat' first
    | (with_reducible first | intro _ | assumption | apply State_modSpw_within | apply dropEntries_within)
    | split
    | dsimp only

theorem toothEvent_within (n : Fin 2) (arg : W16) (data : W32) (time : EvTime) (s : State) (hq : Ch P q9 s)
    (cE : EvOk P) (c_thr : P .thr = true) (c_eng : P .eng = true) :
    Ch P q9 (toothEvent n arg data time s) := by
  unfold toothEvent
  repeat' first
    | (with_reducible first | intro _ | assumption | apply forEach_within | apply enqueue_within | apply forEach_within)
    | split
    | dsimp only

theorem endLinked_within (n : Fin 2) (s : State) (hq : Ch P q9 s) (cE : EvOk P) (c_units : P .units = true)
    (c_xing : P .xing = true) (c_link : P .link = true) (c_har : P .har = true) (c_spw : P .spw = true) :
    Ch P q9 (endLinked n s) := by
  have c_far := cE.far
  unfold endLinked
  repeat' first
    | (with_reducible first
        | intro _ | assumption | apply ite_within | apply forEach_within | apply State_modHar_within
        | apply adoptCh_within | apply adoptHar_within | apply forEach_within | apply safeChannel_within
        | apply safeHarness_within | apply syncDiscard_within)
    | split
    | dsimp only

theorem clearStore_within (n : Fin 2) (s : State) (hq : Ch P q9 s) (c_rsv : P .rsv = true) :
    Ch P q9 (clearStore n s) := by
  unfold clearStore
  repeat' first
    | (with_reducible first | intro _ | assumption)
    | (with_reducible eapply Ch.rsv c_rsv; assumption)
    | split
    | dsimp only

theorem exitReport_within (n : Fin 2) (reason : BitVec 4) (time : EvTime) (ratio : Nat) (s : State) (hq : Ch P q9 s)
    (cE : EvOk P) (c_thr : P .thr = true) (c_eng : P .eng = true) (c_gt : P .gt = true) :
    Ch P q9 (exitReport n reason time ratio s) := by
  unfold exitReport
  repeat' first
    | (with_reducible first
        | intro _ | assumption | apply ite_within | apply State_modGt_within | apply postB63_within
        | apply toothEvent_within)
    | split
    | dsimp only

theorem postTooth_within (n : Fin 2) (idx : W16) (per : Nat) (unc : Bool) (stamp : EvTime) (s : State)
    (hq : Ch P q9 s) (cE : EvOk P) (c_thr : P .thr = true) (c_eng : P .eng = true) :
    Ch P q9 (postTooth n idx per unc stamp s) := by
  unfold postTooth
  repeat' first
    | (with_reducible first | intro _ | assumption | apply cond_within | apply postBasin_within)
    | split
    | dsimp only

theorem deliverTooth_within (n : Fin 2) (stamp : EvTime) (per : Option Nat) (unc : Bool) (s : State) (hq : Ch P q9 s)
    (cE : EvOk P) (c_thr : P .thr = true) (c_eng : P .eng = true) (c_spw : P .spw = true) (c_gt : P .gt = true) :
    Ch P q9 (deliverTooth n stamp per unc s) := by
  unfold deliverTooth
  repeat' first
    | (with_reducible first
        | intro _ | assumption | apply State_modGt_within | apply confirmWhere_within | apply postTooth_within
        | apply toothEvent_within)
    | split
    | dsimp only

theorem foundRef_within (n : Fin 2) (j : Nat) (stamp : EvTime) (per : Nat) (sec : Bool) (s : State) (hq : Ch P q9 s)
    (cE : EvOk P) (c_thr : P .thr = true) (c_eng : P .eng = true) (c_spw : P .spw = true) (c_gt : P .gt = true) :
    Ch P q9 (foundRef n j stamp per sec s) := by
  unfold foundRef
  repeat' first
    | (with_reducible first
        | intro _ | assumption | apply ite_within | apply State_modGt_within | apply deliverTooth_within
        | apply postTooth_within)
    | split
    | dsimp only

theorem seekEdge_within (n : Fin 2) (stamp : EvTime) (pw : W32) (sec : Bool) (s : State) (hq : Ch P q9 s)
    (cE : EvOk P) (c_rsv : P .rsv = true) (c_thr : P .thr = true) (c_eng : P .eng = true) (c_spw : P .spw = true)
    (c_gt : P .gt = true) :
    Ch P q9 (seekEdge n stamp pw sec s) := by
  unfold seekEdge
  repeat' first
    | (with_reducible first
        | intro _ | assumption | apply ite_within | apply State_modGt_within | apply clearStore_within
        | apply foundRef_within | apply postTooth_within)
    | split
    | dsimp only

theorem loseSync_within (n : Fin 2) (reason : BitVec 4) (stamp : EvTime) (pw : W32) (sec seed : Bool) (s : State)
    (hq : Ch P q9 s) (cE : EvOk P) (c_rsv : P .rsv = true) (c_units : P .units = true) (c_xing : P .xing = true)
    (c_link : P .link = true) (c_har : P .har = true) (c_thr : P .thr = true) (c_eng : P .eng = true)
    (c_spw : P .spw = true) (c_gt : P .gt = true) :
    Ch P q9 (loseSync n reason stamp pw sec seed s) := by
  unfold loseSync
  repeat' first
    | (with_reducible first
        | intro _ | assumption | apply ite_within | apply State_modGt_within | apply endLinked_within
        | apply exitReport_within | apply seekEdge_within | apply syncDiscard_within)
    | split
    | dsimp only

theorem enterHold_within (n : Fin 2) (s : State) (hq : Ch P q9 s) (cE : EvOk P) (c_units : P .units = true)
    (c_xing : P .xing = true) (c_link : P .link = true) (c_har : P .har = true) (c_thr : P .thr = true)
    (c_eng : P .eng = true) (c_spw : P .spw = true) (c_gt : P .gt = true) :
    Ch P q9 (enterHold n s) := by
  unfold enterHold
  repeat' first
    | (with_reducible first
        | intro _ | assumption | apply State_modGt_within | apply endLinked_within | apply exitReport_within)
    | split
    | dsimp only

theorem trackerStall_within (n : Fin 2) (s : State) (hq : Ch P q9 s) (cE : EvOk P) (c_rsv : P .rsv = true)
    (c_thr : P .thr = true) (c_eng : P .eng = true) (c_gt : P .gt = true) :
    Ch P q9 (trackerStall n s) := by
  unfold trackerStall
  repeat' first
    | (with_reducible first
        | intro _ | assumption | apply ite_within | apply State_modGt_within | apply exitReport_within)
    | (with_reducible eapply Ch.rsv c_rsv; first | assumption | apply State_modGt_within | apply exitReport_within | apply ite_within)
    | split
    | dsimp only

theorem acceptTooth_within (n : Fin 2) (j : Nat) (stamp : EvTime) (pw : W32) (per : Option Nat) (unc sec : Bool)
    (s : State) (hq : Ch P q9 s) (cE : EvOk P) (c_rsv : P .rsv = true) (c_units : P .units = true)
    (c_xing : P .xing = true) (c_link : P .link = true) (c_har : P .har = true) (c_thr : P .thr = true)
    (c_eng : P .eng = true) (c_spw : P .spw = true) (c_gt : P .gt = true) :
    Ch P q9 (acceptTooth n j stamp pw per unc sec s) := by
  unfold acceptTooth
  repeat' first
    | (with_reducible first
        | intro _ | assumption | apply ite_within | apply State_modGt_within | apply deliverTooth_within
        | apply loseSync_within | apply postTooth_within)
    | split
    | dsimp only

theorem acceptExtra_within (n : Fin 2) (stamp : EvTime) (s : State) (hq : Ch P q9 s) (c_gt : P .gt = true) :
    Ch P q9 (acceptExtra n stamp s) := by
  unfold acceptExtra
  repeat' first
    | (with_reducible first | intro _ | assumption | apply State_modGt_within)
    | split
    | dsimp only

theorem trackEdge_within (n : Fin 2) (stamp : EvTime) (pw : W32) (sec : Bool) (s : State) (hq : Ch P q9 s)
    (cE : EvOk P) (c_rsv : P .rsv = true) (c_units : P .units = true) (c_xing : P .xing = true)
    (c_link : P .link = true) (c_har : P .har = true) (c_thr : P .thr = true) (c_eng : P .eng = true)
    (c_spw : P .spw = true) (c_gt : P .gt = true) :
    Ch P q9 (trackEdge n stamp pw sec s) := by
  unfold trackEdge
  repeat' first
    | (with_reducible first
        | intro _ | assumption | apply ite_within | apply State_modGt_within | apply acceptExtra_within
        | apply acceptTooth_within | apply loseSync_within)
    | split
    | dsimp only

theorem wheelEdge_within (n : Fin 2) (stamp : EvTime) (pw : W32) (sec dir : Bool) (s : State) (hq : Ch P q9 s)
    (cE : EvOk P) (c_rsv : P .rsv = true) (c_units : P .units = true) (c_xing : P .xing = true)
    (c_link : P .link = true) (c_har : P .har = true) (c_thr : P .thr = true) (c_eng : P .eng = true)
    (c_spw : P .spw = true) (c_gt : P .gt = true) :
    Ch P q9 (wheelEdge n stamp pw sec dir s) := by
  unfold wheelEdge
  repeat' first
    | (with_reducible first
        | intro _ | assumption | apply ite_within | apply State_modGt_within | apply clearStore_within
        | apply enterHold_within | apply loseSync_within | apply seekEdge_within | apply trackEdge_within
        | apply trackerStall_within)
    | split
    | dsimp only

theorem enableTracker_within (n : Fin 2) (s : State) (hq : Ch P q9 s) (c_rsv : P .rsv = true) (c_gt : P .gt = true) :
    Ch P q9 (enableTracker n s) := by
  unfold enableTracker
  repeat' first
    | (with_reducible first | intro _ | assumption | apply ite_within | apply State_modGt_within)
    | (with_reducible eapply Ch.rsv c_rsv; first | assumption | apply State_modGt_within | apply ite_within)
    | split
    | dsimp only

theorem disableTracker_within (n : Fin 2) (s : State) (hq : Ch P q9 s) (cE : EvOk P) (c_units : P .units = true)
    (c_xing : P .xing = true) (c_link : P .link = true) (c_har : P .har = true) (c_thr : P .thr = true)
    (c_eng : P .eng = true) (c_spw : P .spw = true) (c_gt : P .gt = true) :
    Ch P q9 (disableTracker n s) := by
  unfold disableTracker
  repeat' first
    | (with_reducible first
        | intro _ | assumption | apply ite_within | apply State_modGt_within | apply endLinked_within
        | apply exitReport_within)
    | split
    | dsimp only

theorem writeTracker_within (n : Fin 2) (i : Fin 11) (v : W32) (s : State) (hq : Ch P q9 s) (cE : EvOk P)
    (c_rsv : P .rsv = true) (c_units : P .units = true) (c_xing : P .xing = true) (c_link : P .link = true)
    (c_har : P .har = true) (c_thr : P .thr = true) (c_eng : P .eng = true) (c_spw : P .spw = true)
    (c_gt : P .gt = true) :
    Ch P q9 (writeTracker n i v s) := by
  unfold writeTracker
  repeat' first
    | (with_reducible first
        | intro _ | assumption | apply ite_within | apply State_modGt_within | apply disableTracker_within
        | apply enableTracker_within)
    | split
    | dsimp only

theorem takeFrame_within (s : State) {s9 : State} {x9 : _} (hq : Ch P q9 s) (c_far : P .far = true)
    (eq0 : takeFrame s = some (x9, s9)) :
    Ch P q9 s9 := by
  unfold takeFrame at eq0
  dsimp only at eq0
  repeat' split at eq0
  all_goals first
    | (cases eq0; done)
    | (exact choose_within' _ _ _ hq c_far (Option.some.inj eq0))

theorem startFill_within (s : State) (hq : Ch P q9 s) (c_frm : P .frm = true) (c_far : P .far = true) :
    Ch P q9 (startFill s) := by
  unfold startFill
  repeat' first
    | (with_reducible first
        | intro _ | assumption | apply ite_within | apply State_modFrm_within
        | (apply takeFrame_within; case eq0 => assumption))
    | split
    | dsimp only

theorem stallPage_within (tid : Tid) (page : BitVec 12) (s : State) (hq : Ch P q9 s) (c_thr : P .thr = true) :
    Ch P q9 (stallPage tid page s) := by
  unfold stallPage
  repeat' first
    | (with_reducible first | intro _ | assumption | apply State_modThr_within)
    | split
    | dsimp only

theorem enterPage_within (tid : Tid) (moved : Bool) (s : State) (hq : Ch P q9 s) (cE : EvOk P) (c_thr : P .thr = true)
    (c_frm : P .frm = true) (c_spw : P .spw = true) :
    Ch P q9 (enterPage tid moved s) := by
  have c_ost := cE.ost
  have c_far := cE.far
  unfold enterPage
  repeat' first
    | (with_reducible first
        | intro _ | assumption | apply ite_within | apply State_modFrm_within | apply stallPage_within
        | apply startFill_within | apply stopThread_within)
    | (with_reducible eapply Ch.ost c_ost; first
        | assumption | apply State_modFrm_within | apply stallPage_within | apply startFill_within
        | apply stopThread_within | apply ite_within)
    | split
    | dsimp only

theorem gotoPc_within (tid : Tid) (pc : BitVec 19) (s : State) (hq : Ch P q9 s) (cE : EvOk P) (c_thr : P .thr = true)
    (c_frm : P .frm = true) (c_spw : P .spw = true) :
    Ch P q9 (gotoPc tid pc s) := by
  have c_far := cE.far
  unfold gotoPc
  repeat' first
    | (with_reducible first
        | intro _ | assumption | apply ite_within | apply State_modThr_within | apply enterPage_within
        | apply startFill_within)
    | split
    | dsimp only

theorem resumePage_within (p : ProgId) (page : BitVec 12) (s : State) (hq : Ch P q9 s) (c_thr : P .thr = true)
    (c_ost : P .ost = true) :
    Ch P q9 (resumePage p page s) := by
  unfold resumePage
  repeat' first
    | (with_reducible first
        | intro _ | assumption | apply forEach_within | apply State_modThr_within | apply forEach_within)
    | (with_reducible eapply Ch.ost c_ost; first | assumption | apply State_modThr_within | apply forEach_within | apply forEach_within)
    | split
    | dsimp only

theorem fillFailed_within (i : Fin 128) (p : ProgId) (page : BitVec 12) (crc : W32) (s : State) (hq : Ch P q9 s)
    (cE : EvOk P) (c_thr : P .thr = true) (c_frm : P .frm = true) (c_spw : P .spw = true) :
    Ch P q9 (fillFailed i p page crc s) := by
  have c_ost := cE.ost
  have c_irq := cE.irq
  unfold fillFailed
  repeat' first
    | (with_reducible first
        | intro _ | assumption | apply forEach_within | apply State_modFrm_within | apply forEach_within
        | apply postB63_within | apply pulse_within | apply stopThread_within)
    | (with_reducible eapply Ch.ost c_ost; first
        | assumption | apply State_modFrm_within | apply forEach_within | apply postB63_within | apply pulse_within
        | apply stopThread_within | apply forEach_within)
    | split
    | dsimp only

theorem fillDone_within (i : Fin 128) (words : List W32) (s : State) (hq : Ch P q9 s) (cE : EvOk P)
    (c_thr : P .thr = true) (c_frm : P .frm = true) (c_spw : P .spw = true) :
    Ch P q9 (fillDone i words s) := by
  have c_ost := cE.ost
  have c_far := cE.far
  have c_hlt := cE.hlt
  unfold fillDone
  repeat' first
    | (with_reducible first
        | intro _ | assumption | apply ite_within | apply State_modFrm_within | apply clearMarks_within
        | apply fillFailed_within | apply resumePage_within | apply startFill_within)
    | split
    | dsimp only

theorem prefetch_within (tid : Tid) (s : State) (hq : Ch P q9 s) (c_frm : P .frm = true) (c_far : P .far = true) :
    Ch P q9 (prefetch tid s) := by
  unfold prefetch
  repeat' first
    | (with_reducible first
        | intro _ | assumption | apply ite_within | apply State_modFrm_within | apply choose_within
        | (apply choose_within'; case eq0 => assumption))
    | split
    | dsimp only

theorem touch_within (tid : Tid) (s : State) (hq : Ch P q9 s) (c_frm : P .frm = true) (c_ost : P .ost = true) :
    Ch P q9 (touch tid s) := by
  unfold touch
  repeat' first
    | (with_reducible first | intro _ | assumption | apply State_modFrm_within)
    | (with_reducible eapply Ch.ost c_ost; first | assumption | apply State_modFrm_within)
    | split
    | dsimp only

theorem occupy_within (tid : Tid) (e : EngineId) (s : State) (hq : Ch P q9 s) (c_thr : P .thr = true)
    (c_eng : P .eng = true) (c_far : P .far = true) :
    Ch P q9 (occupy tid e s) := by
  unfold occupy
  repeat' first
    | (with_reducible first | intro _ | assumption | apply State_modEng_within | apply State_modThr_within)
    | (with_reducible eapply Ch.far c_far; first | assumption | apply State_modEng_within | apply State_modThr_within)
    | split
    | dsimp only

theorem startThread_within (tid : Tid) (pc : BitVec 19) (s : State) (hq : Ch P q9 s) (cE : EvOk P)
    (c_thr : P .thr = true) (c_frm : P .frm = true) (c_spw : P .spw = true) :
    Ch P q9 (startThread tid pc s) := by
  have c_hlt := cE.hlt
  unfold startThread
  repeat' first
    | (with_reducible first
        | intro _ | assumption | apply ite_within | apply State_modThr_within | apply clearMarks_within
        | apply enterPage_within)
    | split
    | dsimp only

theorem placeThread_within (p : ProgId) (e : ThrEnt) (tid : Tid) (s : State) {s9 : State} (hq : Ch P q9 s)
    (c_thr : P .thr = true) (c_eng : P .eng = true) (c_far : P .far = true) (eq0 : placeThread p e tid s = some s9) :
    Ch P q9 s9 := by
  unfold placeThread at eq0
  try dsimp only at eq0
  repeat' first | split at eq0 | (with_reducible rw [Option.bind_eq_some_iff] at eq0; obtain ⟨_, _, eq0⟩ := eq0) | (with_reducible rw [Option.map_eq_some_iff] at eq0; obtain ⟨_, _, rfl⟩ := eq0) | cases eq0
  all_goals repeat' first
    | (with_reducible first | intro _ | assumption | apply State_modThr_within | apply occupy_within)
    | split
    | dsimp only

theorem moveThread_within (tid : Tid) (s : State) (hq : Ch P q9 s) (cE : EvOk P) (c_thr : P .thr = true)
    (c_eng : P .eng = true) (c_frm : P .frm = true) (c_spw : P .spw = true) :
    Ch P q9 ((moveThread tid s).1) := by
  have c_far := cE.far
  unfold moveThread
  repeat' first
    | (with_reducible first
        | intro _ | assumption | apply iteFst_within | apply State_modEng_within | apply occupy_within
        | apply startThread_within)
    | split
    | dsimp only

theorem moveThread_within' (tid : Tid) (s : State) {s9 : State} {x9 : _} (hq : Ch P q9 s) (cE : EvOk P)
    (c_thr : P .thr = true) (c_eng : P .eng = true) (c_frm : P .frm = true) (c_spw : P .spw = true)
    (eq0 : moveThread tid s = (s9, x9)) :
    Ch P q9 s9 := by
  have e2 := moveThread_within tid s hq cE c_thr c_eng c_frm c_spw
  rw [eq0] at e2
  exact e2

theorem retireEngine_within (e : EngineId) (pc : W32) (inj : Bool) (s : State) (hq : Ch P q9 s) (cE : EvOk P)
    (c_rsv : P .rsv = true) (c_thr : P .thr = true) (c_eng : P .eng = true) (c_frm : P .frm = true)
    (c_spw : P .spw = true) :
    Ch P q9 (retireEngine e pc inj s) := by
  have c_irq := cE.irq
  have c_hlt := cE.hlt
  unfold retireEngine
  repeat' first
    | (with_reducible first
        | intro _ | assumption | apply ite_within | apply iteFst_within | apply forEach_within | apply foldl_within
        | apply foldlFst_within | apply State_modEng_within | apply forEach_within | apply health_within
        | apply moveThread_within | (apply moveThread_within'; case eq0 => assumption) | apply postB63_within
        | apply pulse_within | apply setCause_within | apply stopThread_within)
    | (with_reducible eapply Ch.rsv c_rsv; first
        | assumption | apply State_modEng_within | apply forEach_within | apply health_within
        | apply moveThread_within | (apply moveThread_within'; case eq0 => assumption) | apply postB63_within
        | apply pulse_within | apply setCause_within | apply stopThread_within | apply ite_within
        | apply forEach_within | apply foldl_within)
    | (with_reducible eapply Ch.rsv c_rsv; dsimp only; first | (apply moveThread_within'; case eq0 => assumption))
    | split
    | dsimp only

theorem retryPosts_within (s : State) (hq : Ch P q9 s) (cE : EvOk P) (c_thr : P .thr = true) (c_eng : P .eng = true) :
    Ch P q9 (retryPosts s) := by
  have c_bas := cE.bas
  have c_ost := cE.ost
  have c_far := cE.far
  unfold retryPosts
  repeat' first
    | (with_reducible first
        | intro _ | assumption | apply ite_within | apply iteFst_within | apply forEach_within
        | apply State_modThr_within | apply forEach_within | (apply makeRoom_within; case eq0 => assumption)
        | apply postTo_within | (apply postTo_within'; case eq0 => assumption))
    | split
    | dsimp only

theorem writeRdCnt_within (b : BasinId) (v : W32) (s : State) (hq : Ch P q9 s) (cE : EvOk P) (c_thr : P .thr = true)
    (c_eng : P .eng = true) :
    Ch P q9 ((writeRdCnt b v s).1) := by
  have c_bas := cE.bas
  have c_ost := cE.ost
  unfold writeRdCnt
  repeat' first
    | (with_reducible first
        | intro _ | assumption | apply ite_within | apply iteFst_within | apply State_modBas_within
        | apply releasePages_within | apply retryPosts_within | apply thrEval_within)
    | split
    | dsimp only

theorem writeRdCnt_within' (b : BasinId) (v : W32) (s : State) {s9 : State} {x9 : _} (hq : Ch P q9 s) (cE : EvOk P)
    (c_thr : P .thr = true) (c_eng : P .eng = true) (eq0 : writeRdCnt b v s = (s9, x9)) :
    Ch P q9 s9 := by
  have e2 := writeRdCnt_within b v s hq cE c_thr c_eng
  rw [eq0] at e2
  exact e2

theorem openBasin_within (b : BasinId) (floor ceil : BitVec 7) (policy : BitVec 2) (thresh : BitVec 13) (age : Byte)
    (s : State) (hq : Ch P q9 s) (c_bas : P .bas = true) (c_ost : P .ost = true) (c_far : P .far = true) :
    Ch P q9 (openBasin b floor ceil policy thresh age s) := by
  unfold openBasin
  repeat' first
    | (with_reducible first
        | intro _ | assumption | apply foldl_within | apply foldlFst_within | apply State_modBas_within
        | (apply takePage_within; case eq0 => assumption))
    | (with_reducible eapply Ch.far c_far; first
        | assumption | apply State_modBas_within | (apply takePage_within; case eq0 => assumption)
        | apply foldl_within)
    | (with_reducible eapply Ch.far c_far; dsimp only; first | (apply takePage_within; case eq0 => assumption))
    | split
    | dsimp only

theorem resettle_within (b : BasinId) (s : State) (hq : Ch P q9 s) (cE : EvOk P) (c_thr : P .thr = true)
    (c_eng : P .eng = true) :
    Ch P q9 (resettle b s) := by
  have c_bas := cE.bas
  have c_ost := cE.ost
  unfold resettle
  repeat' first
    | (with_reducible first
        | intro _ | assumption | apply ite_within | apply State_modBas_within | apply releasePages_within
        | apply retryPosts_within | apply thrEval_within)
    | split
    | dsimp only

theorem closeBasin_within (b : BasinId) (s : State) (hq : Ch P q9 s) (cE : EvOk P) (c_thr : P .thr = true)
    (c_eng : P .eng = true) :
    Ch P q9 (closeBasin b s) := by
  have c_bas := cE.bas
  have c_ost := cE.ost
  have c_far := cE.far
  unfold closeBasin
  repeat' first
    | (with_reducible first
        | intro _ | assumption | apply State_modBas_within | apply freePages_within | apply retryPosts_within)
    | (with_reducible eapply Ch.far c_far; first | assumption | apply State_modBas_within | apply freePages_within | apply retryPosts_within)
    | split
    | dsimp only

theorem closeUnit_within (u : UnitId) (s : State) (hq : Ch P q9 s) (c_units : P .units = true) :
    Ch P q9 (closeUnit u s) := by
  unfold closeUnit
  repeat' first
    | (with_reducible first | intro _ | assumption | apply State_modUnit_within)
    | split
    | dsimp only

theorem discardQueued_within (l : Lch) (s : State) (hq : Ch P q9 s) (c_xing : P .xing = true) :
    Ch P q9 (discardQueued l s) := by
  unfold discardQueued
  repeat' first
    | (with_reducible first | intro _ | assumption | apply ite_within)
    | (with_reducible eapply Ch.xing c_xing; first | assumption | apply ite_within)
    | split
    | dsimp only

theorem closeChannel_within (l : Lch) (s : State) (hq : Ch P q9 s) (cE : EvOk P) (c_units : P .units = true)
    (c_xing : P .xing = true) (c_lmap : P .lmap = true) (c_spw : P .spw = true) :
    Ch P q9 (closeChannel l s) := by
  have c_far := cE.far
  unfold closeChannel
  repeat' first
    | (with_reducible first
        | intro _ | assumption | apply State_modLMap_within | apply closeUnit_within | apply discardQueued_within
        | apply feedPins_within | apply withdraw_within)
    | (with_reducible eapply Ch.far c_far; first
        | assumption | apply State_modLMap_within | apply closeUnit_within | apply discardQueued_within
        | apply feedPins_within | apply withdraw_within)
    | split
    | dsimp only

theorem closeProgram_within (p : ProgId) (s : State) (hq : Ch P q9 s) (c_thr : P .thr = true) (c_eng : P .eng = true)
    (c_prog : P .prog = true) (c_frm : P .frm = true) (c_lmap : P .lmap = true) (c_ost : P .ost = true)
    (c_spw : P .spw = true) (c_far : P .far = true) :
    Ch P q9 (closeProgram p s) := by
  unfold closeProgram
  repeat' first
    | (with_reducible first
        | intro _ | assumption | apply ite_within | apply forEach_within | apply State_modProg_within
        | apply forEach_within | apply freeThread_within | apply startFill_within | apply withdraw_within)
    | (with_reducible eapply Ch.lmap c_lmap; eapply Ch.ost c_ost; eapply Ch.frm c_frm; first
        | assumption | apply State_modProg_within | apply forEach_within | apply freeThread_within
        | apply startFill_within | apply withdraw_within | apply ite_within | apply forEach_within)
    | (with_reducible eapply Ch.lmap c_lmap; eapply Ch.ost c_ost; first
        | assumption | apply State_modProg_within | apply forEach_within | apply freeThread_within
        | apply startFill_within | apply withdraw_within | apply ite_within | apply forEach_within)
    | (with_reducible eapply Ch.lmap c_lmap; eapply Ch.frm c_frm; first
        | assumption | apply State_modProg_within | apply forEach_within | apply freeThread_within
        | apply startFill_within | apply withdraw_within | apply ite_within | apply forEach_within)
    | (with_reducible eapply Ch.ost c_ost; eapply Ch.frm c_frm; first
        | assumption | apply State_modProg_within | apply forEach_within | apply freeThread_within
        | apply startFill_within | apply withdraw_within | apply ite_within | apply forEach_within)
    | (with_reducible eapply Ch.lmap c_lmap; first
        | assumption | apply State_modProg_within | apply forEach_within | apply freeThread_within
        | apply startFill_within | apply withdraw_within | apply ite_within | apply forEach_within)
    | (with_reducible eapply Ch.ost c_ost; first
        | assumption | apply State_modProg_within | apply forEach_within | apply freeThread_within
        | apply startFill_within | apply withdraw_within | apply ite_within | apply forEach_within)
    | (with_reducible eapply Ch.frm c_frm; first
        | assumption | apply State_modProg_within | apply forEach_within | apply freeThread_within
        | apply startFill_within | apply withdraw_within | apply ite_within | apply forEach_within)
    | split
    | dsimp only

theorem pushEntry_within (e : Entry) (s : State) (hq : Ch P q9 s) (c_rcd : P .rcd = true) :
    Ch P q9 (pushEntry e s) := by
  unfold pushEntry
  repeat' first
    | (with_reducible first | intro _ | assumption | apply ite_within)
    | (with_reducible eapply Ch.rcd c_rcd; first | assumption | apply ite_within)
    | split
    | dsimp only

theorem loseEntry_within (e : Entry) (s : State) (hq : Ch P q9 s) (c_rcd : P .rcd = true) :
    Ch P q9 (loseEntry e s) := by
  unfold loseEntry
  repeat' first
    | (with_reducible first | intro _ | assumption | apply ite_within)
    | (with_reducible eapply Ch.rcd c_rcd; first | assumption | apply ite_within)
    | split
    | dsimp only

theorem setStep_within (step : Byte) (s : State) (hq : Ch P q9 s) (c_ps : P .ps = true) (c_rcd : P .rcd = true) :
    Ch P q9 (setStep step s) := by
  unfold setStep
  repeat' first
    | (with_reducible first | intro _ | assumption | apply ite_within)
    | (with_reducible eapply Ch.ps c_ps; eapply Ch.rcd c_rcd; first | assumption | apply ite_within)
    | split
    | dsimp only

theorem noEpoch_within (s : State) (hq : Ch P q9 s) (c_rcd : P .rcd = true) (c_irq : P .irq = true)
    (c_hlt : P .hlt = true) :
    Ch P q9 (noEpoch s) := by
  unfold noEpoch
  repeat' first
    | (with_reducible first | intro _ | assumption | apply setCause_within)
    | (with_reducible eapply Ch.rcd c_rcd; first | assumption | apply setCause_within)
    | split
    | dsimp only

theorem startEpoch_within (cause : Byte) (follow : List Entry) (s : State) (hq : Ch P q9 s) (c_nv : P .nv = true)
    (c_rcd : P .rcd = true) (c_irq : P .irq = true) (c_hlt : P .hlt = true) :
    Ch P q9 (startEpoch cause follow s) := by
  unfold startEpoch
  repeat' first
    | (with_reducible first | intro _ | assumption | apply ite_within | apply noEpoch_within)
    | (with_reducible eapply Ch.nv c_nv; eapply Ch.rcd c_rcd; first | assumption | apply noEpoch_within | apply ite_within)
    | (with_reducible eapply Ch.rcd c_rcd; first | assumption | apply noEpoch_within | apply ite_within)
    | split
    | dsimp only

theorem putEntry_within (e : Entry) (s : State) (hq : Ch P q9 s) (c_nv : P .nv = true) (c_rcd : P .rcd = true)
    (c_irq : P .irq = true) (c_hlt : P .hlt = true) :
    Ch P q9 (putEntry e s) := by
  unfold putEntry
  repeat' first
    | (with_reducible first | intro _ | assumption | apply ite_within | apply pushEntry_within | apply startEpoch_within)
    | split
    | dsimp only

theorem rateDouble_within (s : State) (hq : Ch P q9 s) (c_nv : P .nv = true) (c_ps : P .ps = true)
    (c_rcd : P .rcd = true) (c_irq : P .irq = true) (c_hlt : P .hlt = true) :
    Ch P q9 (rateDouble s) := by
  unfold rateDouble
  repeat' first
    | (with_reducible first
        | intro _ | assumption | apply ite_within | apply loseEntry_within | apply putEntry_within
        | apply setStep_within)
    | split
    | dsimp only

theorem queueLoss_within (s : State) (hq : Ch P q9 s) (c_rcd : P .rcd = true) :
    Ch P q9 (queueLoss s) := by
  unfold queueLoss
  repeat' first
    | (with_reducible first | intro _ | assumption | apply ite_within | apply pushEntry_within)
    | (with_reducible eapply Ch.rcd c_rcd; first | assumption | apply pushEntry_within | apply ite_within)
    | split
    | dsimp only

theorem parkLoss_within (s : State) (hq : Ch P q9 s) (c_ps : P .ps = true) (c_rcd : P .rcd = true) :
    Ch P q9 (parkLoss s) := by
  unfold parkLoss
  repeat' first
    | (with_reducible first | intro _ | assumption | apply ite_within | apply pushEntry_within)
    | (with_reducible eapply Ch.ps c_ps; first | assumption | apply pushEntry_within | apply ite_within)
    | split
    | dsimp only

theorem probeLoss_within (s : State) (hq : Ch P q9 s) (c_prb : P .prb = true) (c_ps : P .ps = true)
    (c_rcd : P .rcd = true) :
    Ch P q9 (probeLoss s) := by
  unfold probeLoss
  repeat' first
    | (with_reducible first | intro _ | assumption | apply ite_within | apply pushEntry_within)
    | (with_reducible eapply Ch.prb c_prb; eapply Ch.ps c_ps; first | assumption | apply pushEntry_within | apply ite_within)
    | split
    | dsimp only

theorem stateLoss_within (s : State) (hq : Ch P q9 s) (c_prb : P .prb = true) (c_ps : P .ps = true)
    (c_rcd : P .rcd = true) :
    Ch P q9 (stateLoss s) := by
  unfold stateLoss
  repeat' first
    | (with_reducible first
        | intro _ | assumption | apply parkLoss_within | apply probeLoss_within | apply queueLoss_within)
    | split
    | dsimp only

theorem tryLoss_within (loss : State → State) (s : State) (hq : Ch P q9 s)
    (k_loss : ∀ x, Ch P q9 x → Ch P q9 (loss x)) (c_nv : P .nv = true) (c_ps : P .ps = true) (c_rcd : P .rcd = true)
    (c_irq : P .irq = true) (c_hlt : P .hlt = true) :
    Ch P q9 (tryLoss loss s) := by
  unfold tryLoss
  repeat' first
    | (with_reducible first | intro _ | assumption | apply ite_within | apply k_loss | apply rateDouble_within)
    | split
    | dsimp only

theorem queueEntry_within (e : Entry) (s : State) (hq : Ch P q9 s) (c_nv : P .nv = true) (c_prb : P .prb = true)
    (c_ps : P .ps = true) (c_rcd : P .rcd = true) (c_irq : P .irq = true) (c_hlt : P .hlt = true) :
    Ch P q9 ((queueEntry e s).1) := by
  unfold queueEntry
  repeat' first
    | (with_reducible first
        | intro _ | assumption | apply ite_within | apply iteFst_within | apply loseEntry_within
        | apply pushEntry_within | apply rateDouble_within | apply startEpoch_within | apply stateLoss_within)
    | split
    | dsimp only

theorem queueEntry_within' (e : Entry) (s : State) {s9 : State} {x9 : _} (hq : Ch P q9 s) (c_nv : P .nv = true)
    (c_prb : P .prb = true) (c_ps : P .ps = true) (c_rcd : P .rcd = true) (c_irq : P .irq = true)
    (c_hlt : P .hlt = true) (eq0 : queueEntry e s = (s9, x9)) :
    Ch P q9 s9 := by
  have e2 := queueEntry_within e s hq c_nv c_prb c_ps c_rcd c_irq c_hlt
  rw [eq0] at e2
  exact e2

theorem record_within (e : Entry) (s : State) (hq : Ch P q9 s) (c_nv : P .nv = true) (c_prb : P .prb = true)
    (c_ps : P .ps = true) (c_rcd : P .rcd = true) (c_irq : P .irq = true) (c_hlt : P .hlt = true) :
    Ch P q9 ((record e s).1) := by
  unfold record
  repeat' first
    | (with_reducible first
        | intro _ | assumption | apply ite_within | apply iteFst_within | apply queueEntry_within
        | (apply queueEntry_within'; case eq0 => assumption) | apply startEpoch_within)
    | (with_reducible eapply Ch.rcd c_rcd; first
        | assumption | apply queueEntry_within | (apply queueEntry_within'; case eq0 => assumption)
        | apply startEpoch_within | apply ite_within)
    | (with_reducible eapply Ch.rcd c_rcd; dsimp only; first | (apply queueEntry_within'; case eq0 => assumption))
    | split
    | dsimp only

theorem record_within' (e : Entry) (s : State) {s9 : State} {x9 : _} (hq : Ch P q9 s) (c_nv : P .nv = true)
    (c_prb : P .prb = true) (c_ps : P .ps = true) (c_rcd : P .rcd = true) (c_irq : P .irq = true)
    (c_hlt : P .hlt = true) (eq0 : record e s = (s9, x9)) :
    Ch P q9 s9 := by
  have e2 := record_within e s hq c_nv c_prb c_ps c_rcd c_irq c_hlt
  rw [eq0] at e2
  exact e2

theorem log_within (e : Entry) (s : State) (hq : Ch P q9 s) (c_nv : P .nv = true) (c_prb : P .prb = true)
    (c_ps : P .ps = true) (c_rcd : P .rcd = true) (c_irq : P .irq = true) (c_hlt : P .hlt = true) :
    Ch P q9 (log e s) := by
  unfold log
  repeat' first
    | (with_reducible first
        | intro _ | assumption | apply record_within | (apply record_within'; case eq0 => assumption))
    | split
    | dsimp only

theorem writeDue_within (s : State) (hq : Ch P q9 s) (c_nv : P .nv = true) (c_prb : P .prb = true)
    (c_ps : P .ps = true) (c_rcd : P .rcd = true) (c_irq : P .irq = true) (c_hlt : P .hlt = true) :
    Ch P q9 (writeDue s) := by
  unfold writeDue
  repeat' first
    | (with_reducible first
        | intro _ | assumption | apply ite_within | apply forEach_within | apply forEach_within | apply log_within)
    | (with_reducible eapply Ch.rcd c_rcd; first
        | assumption | apply forEach_within | apply log_within | apply ite_within | apply forEach_within)
    | split
    | dsimp only

theorem logTime_within (e : Entry) (s : State) (hq : Ch P q9 s) (c_nv : P .nv = true) (c_prb : P .prb = true)
    (c_ps : P .ps = true) (c_rcd : P .rcd = true) (c_irq : P .irq = true) (c_hlt : P .hlt = true) :
    Ch P q9 (logTime e s) := by
  unfold logTime
  repeat' first
    | (with_reducible first | intro _ | assumption | apply ite_within | apply log_within)
    | (with_reducible eapply Ch.rcd c_rcd; first | assumption | apply log_within | apply ite_within)
    | split
    | dsimp only

theorem shiftDt_within (d : W64) (s : State) (hq : Ch P q9 s) (c_tb : P .tb = true) (c_units : P .units = true)
    (c_arm : P .arm = true) (c_link : P .link = true) (c_har : P .har = true) (c_bas : P .bas = true)
    (c_ost : P .ost = true) (c_spw : P .spw = true) (c_gt : P .gt = true) (c_conv : P .conv = true)
    (c_ps : P .ps = true) (c_host : P .host = true) (c_far : P .far = true) (c_hlt : P .hlt = true)
    (c_dbg : P .dbg = true) :
    Ch P q9 (shiftDt d s) := by
  unfold shiftDt
  repeat' first
    | (with_reducible first | intro _ | assumption)
    | (with_reducible eapply Ch.tb c_tb; eapply Ch.units c_units; eapply Ch.arm c_arm; eapply Ch.link c_link; eapply Ch.har c_har; eapply Ch.bas c_bas; eapply Ch.ost c_ost; eapply Ch.spw c_spw; eapply Ch.gt c_gt; eapply Ch.conv c_conv; eapply Ch.ps c_ps; eapply Ch.host c_host; eapply Ch.far c_far; eapply Ch.hlt c_hlt; eapply Ch.dbg c_dbg; assumption)
    | split
    | dsimp only

theorem epochZero_within (s : State) (hq : Ch P q9 s) (c_tb : P .tb = true) (c_rsv : P .rsv = true)
    (c_nv : P .nv = true) (c_units : P .units = true) (c_arm : P .arm = true) (c_link : P .link = true)
    (c_har : P .har = true) (c_bas : P .bas = true) (c_ost : P .ost = true) (c_spw : P .spw = true)
    (c_gt : P .gt = true) (c_conv : P .conv = true) (c_prb : P .prb = true) (c_ps : P .ps = true)
    (c_rcd : P .rcd = true) (c_host : P .host = true) (c_irq : P .irq = true) (c_far : P .far = true)
    (c_hlt : P .hlt = true) (c_dbg : P .dbg = true) :
    Ch P q9 (epochZero s) := by
  unfold epochZero
  repeat' first
    | (with_reducible first
        | intro _ | assumption | apply ite_within | apply forEach_within | apply forEach_within
        | apply latchPair_within | apply log_within | apply loseEntry_within | apply pulse_within
        | apply pushEntry_within | apply rateDouble_within | apply shiftDt_within | apply stateLoss_within)
    | (with_reducible eapply Ch.tb c_tb; eapply Ch.rsv c_rsv; eapply Ch.rcd c_rcd; first
        | assumption | apply forEach_within | apply latchPair_within | apply log_within | apply loseEntry_within
        | apply pulse_within | apply pushEntry_within | apply rateDouble_within | apply shiftDt_within
        | apply stateLoss_within | apply ite_within | apply forEach_within)
    | (with_reducible eapply Ch.tb c_tb; eapply Ch.rsv c_rsv; first
        | assumption | apply forEach_within | apply latchPair_within | apply log_within | apply loseEntry_within
        | apply pulse_within | apply pushEntry_within | apply rateDouble_within | apply shiftDt_within
        | apply stateLoss_within | apply ite_within | apply forEach_within)
    | (with_reducible eapply Ch.rcd c_rcd; first
        | assumption | apply forEach_within | apply latchPair_within | apply log_within | apply loseEntry_within
        | apply pulse_within | apply pushEntry_within | apply rateDouble_within | apply shiftDt_within
        | apply stateLoss_within | apply ite_within | apply forEach_within)
    | split
    | dsimp only

theorem epochNow_within (cause : Byte) (follow : List Entry) (s : State) (hq : Ch P q9 s) (c_tb : P .tb = true)
    (c_rsv : P .rsv = true) (c_nv : P .nv = true) (c_units : P .units = true) (c_arm : P .arm = true)
    (c_link : P .link = true) (c_har : P .har = true) (c_bas : P .bas = true) (c_ost : P .ost = true)
    (c_spw : P .spw = true) (c_gt : P .gt = true) (c_conv : P .conv = true) (c_prb : P .prb = true)
    (c_ps : P .ps = true) (c_rcd : P .rcd = true) (c_host : P .host = true) (c_irq : P .irq = true)
    (c_far : P .far = true) (c_hlt : P .hlt = true) (c_dbg : P .dbg = true) :
    Ch P q9 (epochNow cause follow s) := by
  unfold epochNow
  repeat' first
    | (with_reducible first
        | intro _ | assumption | apply ite_within | apply epochZero_within | apply latchPair_within
        | apply shiftDt_within | apply startEpoch_within)
    | (with_reducible eapply Ch.tb c_tb; first
        | assumption | apply epochZero_within | apply latchPair_within | apply shiftDt_within
        | apply startEpoch_within | apply ite_within)
    | split
    | dsimp only

theorem beginSpan_within (s : State) (hq : Ch P q9 s) (c_tb : P .tb = true) :
    Ch P q9 (beginSpan s) := by
  unfold beginSpan
  repeat' first
    | (with_reducible first | intro _ | assumption)
    | (with_reducible eapply Ch.tb c_tb; assumption)
    | split
    | dsimp only

theorem addUnc_within (ticks : Nat) (s : State) (hq : Ch P q9 s) (c_tb : P .tb = true) :
    Ch P q9 (addUnc ticks s) := by
  unfold addUnc
  repeat' first
    | (with_reducible first | intro _ | assumption | apply ite_within)
    | (with_reducible eapply Ch.tb c_tb; first | assumption | apply ite_within)
    | split
    | dsimp only

theorem timeSource_within (src : Byte) (dt : W64) (s : State) (hq : Ch P q9 s) (c_tb : P .tb = true)
    (c_nv : P .nv = true) (c_prb : P .prb = true) (c_ps : P .ps = true) (c_rcd : P .rcd = true)
    (c_irq : P .irq = true) (c_hlt : P .hlt = true) :
    Ch P q9 (timeSource src dt s) := by
  unfold timeSource
  repeat' first
    | (with_reducible first | intro _ | assumption | apply logTime_within)
    | (with_reducible eapply Ch.tb c_tb; first | assumption | apply logTime_within)
    | split
    | dsimp only

theorem note_within (sub : Byte) (value : W32) (flags : W16) (s : State) (hq : Ch P q9 s) (c_nv : P .nv = true)
    (c_prb : P .prb = true) (c_ps : P .ps = true) (c_rcd : P .rcd = true) (c_irq : P .irq = true)
    (c_hlt : P .hlt = true) :
    Ch P q9 ((note sub value flags s).1) := by
  unfold note
  repeat' first
    | (with_reducible first
        | intro _ | assumption | apply iteFst_within | apply record_within
        | (apply record_within'; case eq0 => assumption))
    | split
    | dsimp only

theorem note_within' (sub : Byte) (value : W32) (flags : W16) (s : State) {s9 : State} {x9 : _} (hq : Ch P q9 s)
    (c_nv : P .nv = true) (c_prb : P .prb = true) (c_ps : P .ps = true) (c_rcd : P .rcd = true)
    (c_irq : P .irq = true) (c_hlt : P .hlt = true) (eq0 : note sub value flags s = (s9, x9)) :
    Ch P q9 s9 := by
  have e2 := note_within sub value flags s hq c_nv c_prb c_ps c_rcd c_irq c_hlt
  rw [eq0] at e2
  exact e2

theorem rateRestore_within (s : State) (hq : Ch P q9 s) (c_nv : P .nv = true) (c_prb : P .prb = true)
    (c_ps : P .ps = true) (c_rcd : P .rcd = true) (c_irq : P .irq = true) (c_hlt : P .hlt = true) :
    Ch P q9 (rateRestore s) := by
  unfold rateRestore
  repeat' first
    | (with_reducible first | intro _ | assumption | apply ite_within | apply log_within | apply setStep_within)
    | (with_reducible eapply Ch.ps c_ps; first | assumption | apply log_within | apply setStep_within | apply ite_within)
    | split
    | dsimp only

theorem event_within (t : Instant) (cond : State → Bool) (f : State → State) (s : State) {s9 : State} (hq : Ch P q9 s)
    (k_f : ∀ x, Ch P q9 x → Ch P q9 (f x)) (c_tb : P .tb = true) (eq0 : event t cond f s = .next s9) :
    Ch P q9 s9 := by
  unfold event at eq0
  have e1 := Host.Outcome.next.inj eq0
  rw [← e1]
  repeat' first
    | dsimp only [GRes.all_ok, GRes.all_jump, GRes.all_trap, GRes.all_stop, Ans.all_reply, Ans.all_later, Ans.all_waits]
    | (with_reducible first
        | intro _ | assumption | exact True.intro | apply ite_within | apply k_f | apply advanceTo_within)
    | split
    | dsimp only

theorem execCtrlWrite_within (u : UnitId) (v : W32) (s : State) {s9 : State} (hq : Ch P q9 s)
    (c_units : P .units = true) (eq0 : execCtrlWrite u v s = .next s9) :
    Ch P q9 s9 := by
  unfold execCtrlWrite at eq0
  have e1 := Host.Outcome.next.inj eq0
  rw [← e1]
  repeat' first
    | dsimp only [GRes.all_ok, GRes.all_jump, GRes.all_trap, GRes.all_stop, Ans.all_reply, Ans.all_later, Ans.all_waits]
    | (with_reducible first | intro _ | assumption | exact True.intro | apply writeCtrl_within)
    | split
    | dsimp only

theorem execChannelEnable_within (t : Instant) (u : UnitId) (v : W32) (s : State) {s9 : State} (hq : Ch P q9 s)
    (c_tb : P .tb = true) (c_units : P .units = true) (eq0 : execChannelEnable t u v s = .next s9) :
    Ch P q9 s9 := by
  unfold execChannelEnable at eq0
  have e1 := Host.Outcome.next.inj eq0
  rw [← e1]
  repeat' first
    | dsimp only [GRes.all_ok, GRes.all_jump, GRes.all_trap, GRes.all_stop, Ans.all_reply, Ans.all_later, Ans.all_waits]
    | (with_reducible first | intro _ | assumption | exact True.intro | apply advanceTo_within | apply writeCtrl_within)
    | split
    | dsimp only

theorem execChannelDisable_within (u : UnitId) (v : W32) (s : State) {s9 : State} (hq : Ch P q9 s)
    (c_units : P .units = true) (eq0 : execChannelDisable u v s = .next s9) :
    Ch P q9 s9 := by
  unfold execChannelDisable at eq0
  have e1 := Host.Outcome.next.inj eq0
  rw [← e1]
  repeat' first
    | dsimp only [GRes.all_ok, GRes.all_jump, GRes.all_trap, GRes.all_stop, Ans.all_reply, Ans.all_later, Ans.all_waits]
    | (with_reducible first | intro _ | assumption | exact True.intro | apply writeCtrl_within)
    | split
    | dsimp only

theorem execCmpLoWrite_within (u : UnitId) (which : Fin 4) (v : W32) (s : State) {s9 : State} (hq : Ch P q9 s)
    (c_units : P .units = true) (eq0 : execCmpLoWrite u which v s = .next s9) :
    Ch P q9 s9 := by
  unfold execCmpLoWrite at eq0
  have e1 := Host.Outcome.next.inj eq0
  rw [← e1]
  repeat' first
    | dsimp only [GRes.all_ok, GRes.all_jump, GRes.all_trap, GRes.all_stop, Ans.all_reply, Ans.all_later, Ans.all_waits]
    | (with_reducible first | intro _ | assumption | exact True.intro | apply State_modUnit_within)
    | split
    | dsimp only

theorem execCmpHiWrite_within (u : UnitId) (b : Bool) (v : W16) (s : State) {s9 : State} (hq : Ch P q9 s)
    (c_units : P .units = true) (eq0 : execCmpHiWrite u b v s = .next s9) :
    Ch P q9 s9 := by
  unfold execCmpHiWrite at eq0
  have e1 := Host.Outcome.next.inj eq0
  rw [← e1]
  repeat' first
    | dsimp only [GRes.all_ok, GRes.all_jump, GRes.all_trap, GRes.all_stop, Ans.all_reply, Ans.all_later, Ans.all_waits]
    | (with_reducible first | intro _ | assumption | exact True.intro | apply ite_within | apply State_modUnit_within)
    | split
    | dsimp only

theorem becomeEffective_within (u : UnitId) (b : Bool) (s : State) (hq : Ch P q9 s) (cE : EvOk P)
    (c_units : P .units = true) (c_xing : P .xing = true) (c_link : P .link = true) (c_har : P .har = true) :
    Ch P q9 (becomeEffective u b s) := by
  unfold becomeEffective
  repeat' first
    | (with_reducible first
        | intro _ | assumption | apply ite_within | apply State_modUnit_within | apply fireFree_within)
    | split
    | dsimp only

theorem execCompareEffective_within (t : Instant) (u : UnitId) (b : Bool) (s : State) {s9 : State} (hq : Ch P q9 s)
    (cE : EvOk P) (c_tb : P .tb = true) (c_units : P .units = true) (c_xing : P .xing = true)
    (c_link : P .link = true) (c_har : P .har = true) (eq0 : execCompareEffective t u b s = .next s9) :
    Ch P q9 s9 := by
  unfold execCompareEffective at eq0
  try dsimp only at eq0
  repeat' first | (apply event_within; case eq0 => assumption) | split at eq0 | (injection eq0 with eq0; subst eq0) | cases eq0
  all_goals repeat' first
    | dsimp only [GRes.all_ok, GRes.all_jump, GRes.all_trap, GRes.all_stop, Ans.all_reply, Ans.all_later, Ans.all_waits]
    | (with_reducible first | intro _ | assumption | exact True.intro | apply becomeEffective_within)
    | split
    | dsimp only

theorem localMatch_within (u : UnitId) (b down : Bool) (x : EvTime) (s : State) (hq : Ch P q9 s) (cE : EvOk P)
    (c_units : P .units = true) (c_xing : P .xing = true) (c_link : P .link = true) (c_har : P .har = true) :
    Ch P q9 (localMatch u b down x s) := by
  unfold localMatch
  repeat' first
    | (with_reducible first | intro _ | assumption | apply State_modUnit_within | apply matchAt_within)
    | split
    | dsimp only

theorem topPoint_within (u : UnitId) (s : State) (hq : Ch P q9 s) (c_units : P .units = true) :
    Ch P q9 (topPoint u s) := by
  unfold topPoint
  repeat' first
    | (with_reducible first | intro _ | assumption | apply ite_within | apply State_modUnit_within)
    | split
    | dsimp only

theorem earlyBoundary_within (u : UnitId) (s : State) (hq : Ch P q9 s) (cE : EvOk P) (c_units : P .units = true)
    (c_xing : P .xing = true) (c_link : P .link = true) (c_har : P .har = true) :
    Ch P q9 (earlyBoundary u s) := by
  unfold earlyBoundary
  repeat' first
    | (with_reducible first | intro _ | assumption | apply State_modUnit_within | apply applyAction_within)
    | split
    | dsimp only

theorem boundary_within (u : UnitId) (s : State) (hq : Ch P q9 s) (cE : EvOk P) (c_units : P .units = true)
    (c_xing : P .xing = true) (c_link : P .link = true) (c_har : P .har = true) :
    Ch P q9 (boundary u s) := by
  unfold boundary
  repeat' first
    | (with_reducible first
        | intro _ | assumption | apply ite_within | apply State_modUnit_within | apply applyAction_within
        | apply notify_within)
    | split
    | dsimp only

theorem applyEvent_within (u : UnitId) (e : UnitEv) (s : State) (hq : Ch P q9 s) (cE : EvOk P)
    (c_units : P .units = true) (c_xing : P .xing = true) (c_link : P .link = true) (c_har : P .har = true) :
    Ch P q9 (applyEvent u e s) := by
  unfold applyEvent
  repeat' first
    | (with_reducible first
        | intro _ | assumption | apply boundary_within | apply earlyBoundary_within | apply fireFree_within
        | apply localMatch_within | apply topPoint_within)
    | split
    | dsimp only

theorem runEvents_within (u : UnitId) (last : UnitEv → Bool) (n : Nat) (s : State) (hq : Ch P q9 s) (cE : EvOk P)
    (c_units : P .units = true) (c_xing : P .xing = true) (c_link : P .link = true) (c_har : P .har = true) :
    Ch P q9 (runEvents u last n s) := by
  induction n generalizing s with
  | zero => exact hq
  | succ n ih =>
    unfold runEvents
    split
    · exact hq
    · split
      · apply applyEvent_within <;> assumption
      · apply ih; apply applyEvent_within <;> assumption

theorem unitEvent_within (t : Instant) (u : UnitId) (last : UnitEv → Bool) (s : State) {s9 : State} (hq : Ch P q9 s)
    (cE : EvOk P) (c_tb : P .tb = true) (c_units : P .units = true) (c_xing : P .xing = true)
    (c_link : P .link = true) (c_har : P .har = true) (eq0 : unitEvent t u last s = .next s9) :
    Ch P q9 s9 := by
  unfold unitEvent at eq0
  try dsimp only at eq0
  repeat' first | (apply event_within; case eq0 => assumption) | split at eq0 | (injection eq0 with eq0; subst eq0) | cases eq0
  all_goals repeat' first
    | dsimp only [GRes.all_ok, GRes.all_jump, GRes.all_trap, GRes.all_stop, Ans.all_reply, Ans.all_later, Ans.all_waits]
    | (with_reducible first | intro _ | assumption | exact True.intro | apply runEvents_within)
    | split
    | dsimp only

theorem execCompareMatch_within (t : Instant) (u : UnitId) (b : Bool) (s : State) {s9 : State} (hq : Ch P q9 s)
    (cE : EvOk P) (c_tb : P .tb = true) (c_units : P .units = true) (c_xing : P .xing = true)
    (c_link : P .link = true) (c_har : P .har = true) (eq0 : execCompareMatch t u b s = .next s9) :
    Ch P q9 s9 := by
  unfold execCompareMatch at eq0
  try dsimp only at eq0
  repeat' first | (apply unitEvent_within; case eq0 => assumption) | split at eq0 | (injection eq0 with eq0; subst eq0) | cases eq0
  all_goals repeat' first
    | dsimp only [GRes.all_ok, GRes.all_jump, GRes.all_trap, GRes.all_stop, Ans.all_reply, Ans.all_later, Ans.all_waits]
    | (with_reducible first | intro _ | assumption | exact True.intro)
    | split
    | dsimp only

theorem execLocalMatch_within (t : Instant) (u : UnitId) (b : Bool) (down : Bool) (s : State) {s9 : State}
    (hq : Ch P q9 s) (cE : EvOk P) (c_tb : P .tb = true) (c_units : P .units = true) (c_xing : P .xing = true)
    (c_link : P .link = true) (c_har : P .har = true) (eq0 : execLocalMatch t u b down s = .next s9) :
    Ch P q9 s9 := by
  unfold execLocalMatch at eq0
  try dsimp only at eq0
  repeat' first | (apply unitEvent_within; case eq0 => assumption) | split at eq0 | (injection eq0 with eq0; subst eq0) | cases eq0
  all_goals repeat' first
    | dsimp only [GRes.all_ok, GRes.all_jump, GRes.all_trap, GRes.all_stop, Ans.all_reply, Ans.all_later, Ans.all_waits]
    | (with_reducible first | intro _ | assumption | exact True.intro)
    | split
    | dsimp only

theorem execPeriodBoundary_within (t : Instant) (u : UnitId) (s : State) {s9 : State} (hq : Ch P q9 s) (cE : EvOk P)
    (c_tb : P .tb = true) (c_units : P .units = true) (c_xing : P .xing = true) (c_link : P .link = true)
    (c_har : P .har = true) (eq0 : execPeriodBoundary t u s = .next s9) :
    Ch P q9 s9 := by
  unfold execPeriodBoundary at eq0
  try dsimp only at eq0
  repeat' first | (apply unitEvent_within; case eq0 => assumption) | split at eq0 | (injection eq0 with eq0; subst eq0) | cases eq0
  all_goals repeat' first
    | dsimp only [GRes.all_ok, GRes.all_jump, GRes.all_trap, GRes.all_stop, Ans.all_reply, Ans.all_later, Ans.all_waits]
    | (with_reducible first | intro _ | assumption | exact True.intro)
    | split
    | dsimp only

theorem execShadowWrite_within (u : UnitId) (which : Fin 3) (v : W32) (s : State) {s9 : State} (hq : Ch P q9 s)
    (c_units : P .units = true) (eq0 : execShadowWrite u which v s = .next s9) :
    Ch P q9 s9 := by
  unfold execShadowWrite at eq0
  have e1 := Host.Outcome.next.inj eq0
  rw [← e1]
  repeat' first
    | dsimp only [GRes.all_ok, GRes.all_jump, GRes.all_trap, GRes.all_stop, Ans.all_reply, Ans.all_later, Ans.all_waits]
    | (with_reducible first | intro _ | assumption | exact True.intro | apply State_modUnit_within)
    | split
    | dsimp only

theorem execDisarmA_within (u : UnitId) (s : State) {s9 : State} (hq : Ch P q9 s) (c_units : P .units = true)
    (eq0 : execDisarmA u s = .next s9) :
    Ch P q9 s9 := by
  unfold execDisarmA at eq0
  have e1 := Host.Outcome.next.inj eq0
  rw [← e1]
  repeat' first
    | dsimp only [GRes.all_ok, GRes.all_jump, GRes.all_trap, GRes.all_stop, Ans.all_reply, Ans.all_later, Ans.all_waits]
    | (with_reducible first | intro _ | assumption | exact True.intro | apply State_modUnit_within)
    | split
    | dsimp only

theorem execDisarmB_within (u : UnitId) (s : State) {s9 : State} (hq : Ch P q9 s) (c_units : P .units = true)
    (eq0 : execDisarmB u s = .next s9) :
    Ch P q9 s9 := by
  unfold execDisarmB at eq0
  have e1 := Host.Outcome.next.inj eq0
  rw [← e1]
  repeat' first
    | dsimp only [GRes.all_ok, GRes.all_jump, GRes.all_trap, GRes.all_stop, Ans.all_reply, Ans.all_later, Ans.all_waits]
    | (with_reducible first | intro _ | assumption | exact True.intro | apply State_modUnit_within)
    | split
    | dsimp only

theorem execForceHigh_within (u : UnitId) (s : State) {s9 : State} (hq : Ch P q9 s) (cE : EvOk P)
    (c_units : P .units = true) (c_xing : P .xing = true) (c_link : P .link = true) (c_har : P .har = true)
    (eq0 : execForceHigh u s = .next s9) :
    Ch P q9 s9 := by
  unfold execForceHigh at eq0
  have e1 := Host.Outcome.next.inj eq0
  rw [← e1]
  repeat' first
    | dsimp only [GRes.all_ok, GRes.all_jump, GRes.all_trap, GRes.all_stop, Ans.all_reply, Ans.all_later, Ans.all_waits]
    | (with_reducible first | intro _ | assumption | exact True.intro | apply force_within)
    | split
    | dsimp only

theorem execForceLow_within (u : UnitId) (s : State) {s9 : State} (hq : Ch P q9 s) (cE : EvOk P)
    (c_units : P .units = true) (c_xing : P .xing = true) (c_link : P .link = true) (c_har : P .har = true)
    (eq0 : execForceLow u s = .next s9) :
    Ch P q9 s9 := by
  unfold execForceLow at eq0
  have e1 := Host.Outcome.next.inj eq0
  rw [← e1]
  repeat' first
    | dsimp only [GRes.all_ok, GRes.all_jump, GRes.all_trap, GRes.all_stop, Ans.all_reply, Ans.all_later, Ans.all_waits]
    | (with_reducible first | intro _ | assumption | exact True.intro | apply force_within)
    | split
    | dsimp only

theorem execForceSafe_within (u : UnitId) (s : State) {s9 : State} (hq : Ch P q9 s) (cE : EvOk P)
    (c_units : P .units = true) (c_xing : P .xing = true) (c_link : P .link = true) (c_har : P .har = true)
    (eq0 : execForceSafe u s = .next s9) :
    Ch P q9 s9 := by
  unfold execForceSafe at eq0
  have e1 := Host.Outcome.next.inj eq0
  rw [← e1]
  repeat' first
    | dsimp only [GRes.all_ok, GRes.all_jump, GRes.all_trap, GRes.all_stop, Ans.all_reply, Ans.all_later, Ans.all_waits]
    | (with_reducible first | intro _ | assumption | exact True.intro | apply force_within)
    | split
    | dsimp only

theorem execInputEdge_within (t : Instant) (u : UnitId) (level z : Bool) (s : State) {s9 : State} (hq : Ch P q9 s)
    (cE : EvOk P) (c_tb : P .tb = true) (c_units : P .units = true) (c_pad : P .pad = true) (c_padZ : P .padZ = true)
    (c_psn : P .psn = true) (c_xing : P .xing = true) (eq0 : execInputEdge t u level z s = .next s9) :
    Ch P q9 s9 := by
  unfold execInputEdge at eq0
  have e1 := Host.Outcome.next.inj eq0
  rw [← e1]
  repeat' first
    | dsimp only [GRes.all_ok, GRes.all_jump, GRes.all_trap, GRes.all_stop, Ans.all_reply, Ans.all_later, Ans.all_waits]
    | (with_reducible first
        | intro _ | assumption | exact True.intro | apply ite_within | apply advanceTo_within
        | apply boardLevel_within | apply inputEdge_within)
    | split
    | dsimp only

theorem execFilterAccept_within (t : Instant) (u : UnitId) (s : State) {s9 : State} (hq : Ch P q9 s) (cE : EvOk P)
    (c_tb : P .tb = true) (c_units : P .units = true) (c_xing : P .xing = true)
    (eq0 : execFilterAccept t u s = .next s9) :
    Ch P q9 s9 := by
  unfold execFilterAccept at eq0
  try dsimp only at eq0
  repeat' first | (apply event_within; case eq0 => assumption) | split at eq0 | (injection eq0 with eq0; subst eq0) | cases eq0
  all_goals repeat' first
    | dsimp only [GRes.all_ok, GRes.all_jump, GRes.all_trap, GRes.all_stop, Ans.all_reply, Ans.all_later, Ans.all_waits]
    | (with_reducible first | intro _ | assumption | exact True.intro | apply acceptEdge_within)
    | split
    | dsimp only

end Sys2Proof.Machine
end

