-- ==== Sys2Proof/Laws/PartsPower.lean ====
section
/-! SUPPORT. For each function of the model, the parts of the state it may change: MusterOps, Motion, ProbeOps, TideOps,
PowerOps, Timebase, Power, HealthOps, IrqOps, BusOps, Bus. -/

namespace Sys2Proof.Machine

open Sys2Proof.Claims

set_option maxRecDepth 4096

variable {P : Part → Bool} {q9 : State}

theorem wdtService_within (s : State) (hq : Ch P q9 s) (c_far : P .far = true) :
    Ch P q9 (wdtService s) := by
  unfold wdtService
  repeat' first
    | (with_reducible first | intro _ | assumption | apply ite_within)
    | (with_reducible eapply Ch.far c_far; first | assumption | apply ite_within)
    | split
    | dsimp only

theorem rearm_within (n : Fin 2) (s : State) (hq : Ch P q9 s) (c_units : P .units = true) (c_har : P .har = true)
    (c_gt : P .gt = true) (c_far : P .far = true) :
    Ch P q9 (rearm n s) := by
  unfold rearm
  repeat' first
    | (with_reducible first
        | intro _ | assumption | apply ite_within | apply forEach_within | apply State_modGt_within
        | apply adoptCh_within | apply adoptHar_within | apply forEach_within | apply resumeHarness_within
        | apply writeCtrl_within)
    | split
    | dsimp only

theorem mismatch_within (cls : Byte) (n : Nat) (s : State) (hq : Ch P q9 s) (cE : EvOk P) :
    Ch P q9 (mismatch cls n s) := by
  have c_irq := cE.irq
  unfold mismatch
  repeat' first
    | (with_reducible first | intro _ | assumption | apply postB63_within | apply pulse_within)
    | split
    | dsimp only

theorem musterCh_within (l : Lch) (s : State) (hq : Ch P q9 s) (cE : EvOk P) (c_units : P .units = true)
    (c_xing : P .xing = true) (c_link : P .link = true) (c_har : P .har = true) (c_lmap : P .lmap = true)
    (c_spw : P .spw = true) :
    Ch P q9 (musterCh l s) := by
  have c_far := cE.far
  unfold musterCh
  repeat' first
    | (with_reducible first
        | intro _ | assumption | apply ite_within | apply adoptCh_within | apply closeChannel_within
        | apply mismatch_within | apply safeChannel_within)
    | split
    | dsimp only

theorem musterHar_within (h : HarnessId) (s : State) (hq : Ch P q9 s) (cE : EvOk P) (c_units : P .units = true)
    (c_xing : P .xing = true) (c_link : P .link = true) (c_har : P .har = true) (c_spw : P .spw = true) :
    Ch P q9 (musterHar h s) := by
  have c_far := cE.far
  unfold musterHar
  repeat' first
    | (with_reducible first
        | intro _ | assumption | apply ite_within | apply adoptHar_within | apply closeHarness_within
        | apply mismatch_within | apply safeHarness_within)
    | split
    | dsimp only

theorem musterThr_within (t : Tid) (s : State) (hq : Ch P q9 s) (cE : EvOk P) (c_thr : P .thr = true)
    (c_eng : P .eng = true) (c_frm : P .frm = true) (c_spw : P .spw = true) :
    Ch P q9 (musterThr t s) := by
  have c_far := cE.far
  unfold musterThr
  repeat' first
    | (with_reducible first
        | intro _ | assumption | apply ite_within | apply freeThread_within | apply mismatch_within
        | apply startFill_within | apply withdraw_within)
    | (with_reducible eapply Ch.far c_far; first
        | assumption | apply freeThread_within | apply mismatch_within | apply startFill_within
        | apply withdraw_within | apply ite_within)
    | split
    | dsimp only

theorem musterBas_within (b : BasinId) (s : State) (hq : Ch P q9 s) (cE : EvOk P) (c_prog : P .prog = true) :
    Ch P q9 (musterBas b s) := by
  have c_far := cE.far
  unfold musterBas
  repeat' first
    | (with_reducible first | intro _ | assumption | apply ite_within | apply mismatch_within)
    | (with_reducible eapply Ch.prog c_prog; eapply Ch.far c_far; first | assumption | apply mismatch_within | apply ite_within)
    | (with_reducible eapply Ch.far c_far; first | assumption | apply mismatch_within | apply ite_within)
    | split
    | dsimp only

theorem tripSafe_within (s : State) (hq : Ch P q9 s) (cE : EvOk P) (c_units : P .units = true)
    (c_xing : P .xing = true) (c_link : P .link = true) (c_har : P .har = true) :
    Ch P q9 (tripSafe s) := by
  have c_far := cE.far
  unfold tripSafe
  repeat' first
    | (with_reducible first
        | intro _ | assumption | apply forEach_within | apply adoptMembers_within | apply forEach_within
        | apply safePower_within)
    | split
    | dsimp only

theorem hwdReport_within (inj : Bool) (s : State) (hq : Ch P q9 s) (cE : EvOk P) (c_units : P .units = true)
    (c_xing : P .xing = true) (c_link : P .link = true) (c_har : P .har = true) :
    Ch P q9 (hwdReport inj s) := by
  unfold hwdReport
  repeat' first
    | (with_reducible first | intro _ | assumption | apply ite_within | apply health_within | apply tripSafe_within)
    | split
    | dsimp only

theorem hwdOwed_within (s : State) (hq : Ch P q9 s) (cE : EvOk P) (c_units : P .units = true)
    (c_xing : P .xing = true) (c_link : P .link = true) (c_har : P .har = true) (c_host : P .host = true) :
    Ch P q9 (hwdOwed s) := by
  unfold hwdOwed
  repeat' first
    | (with_reducible first | intro _ | assumption | apply hwdReport_within)
    | (with_reducible eapply Ch.host c_host; first | assumption | apply hwdReport_within)
    | split
    | dsimp only

theorem muster_within (s : State) (hq : Ch P q9 s) (cE : EvOk P) (c_nv : P .nv = true) (c_units : P .units = true)
    (c_xing : P .xing = true) (c_link : P .link = true) (c_har : P .har = true) (c_thr : P .thr = true)
    (c_eng : P .eng = true) (c_prog : P .prog = true) (c_frm : P .frm = true) (c_lmap : P .lmap = true)
    (c_spw : P .spw = true) (c_gt : P .gt = true) (c_prb : P .prb = true) (c_ps : P .ps = true)
    (c_rcd : P .rcd = true) (c_host : P .host = true) :
    Ch P q9 (muster s) := by
  have c_irq := cE.irq
  have c_far := cE.far
  have c_hlt := cE.hlt
  unfold muster
  repeat' first
    | (with_reducible first
        | intro _ | assumption | apply forEach_within | apply forEach_within | apply hwdOwed_within
        | apply musterBas_within | apply musterCh_within | apply musterHar_within | apply musterThr_within
        | apply rearm_within | apply wdtService_within | apply writeDue_within)
    | (with_reducible eapply Ch.far c_far; eapply Ch.host c_host; first
        | assumption | apply forEach_within | apply hwdOwed_within | apply musterBas_within | apply musterCh_within
        | apply musterHar_within | apply musterThr_within | apply rearm_within | apply wdtService_within
        | apply writeDue_within | apply forEach_within)
    | (with_reducible eapply Ch.far c_far; first
        | assumption | apply forEach_within | apply hwdOwed_within | apply musterBas_within | apply musterCh_within
        | apply musterHar_within | apply musterThr_within | apply rearm_within | apply wdtService_within
        | apply writeDue_within | apply forEach_within)
    | (with_reducible eapply Ch.host c_host; first
        | assumption | apply forEach_within | apply hwdOwed_within | apply musterBas_within | apply musterCh_within
        | apply musterHar_within | apply musterThr_within | apply rearm_within | apply wdtService_within
        | apply writeDue_within | apply forEach_within)
    | split
    | dsimp only

theorem cfgFinish_within (s : State) (hq : Ch P q9 s) (c_link : P .link = true) (c_host : P .host = true) :
    Ch P q9 (cfgFinish s) := by
  unfold cfgFinish
  repeat' first
    | (with_reducible first | intro _ | assumption | apply ite_within | apply writeReply_within)
    | (with_reducible eapply Ch.link c_link; first | assumption | apply writeReply_within | apply ite_within)
    | split
    | dsimp only

theorem cfgStep_within (lost : Bool) (s : State) (hq : Ch P q9 s) (c_link : P .link = true)
    (c_host : P .host = true) :
    Ch P q9 (cfgStep lost s) := by
  unfold cfgStep
  repeat' first
    | (with_reducible first | intro _ | assumption | apply cfgFinish_within)
    | (with_reducible eapply Ch.link c_link; first | assumption | apply cfgFinish_within)
    | split
    | dsimp only

theorem execMuster_within (t : Instant) (s : State) {s9 : State} (hq : Ch P q9 s) (cE : EvOk P) (c_tb : P .tb = true)
    (c_nv : P .nv = true) (c_units : P .units = true) (c_xing : P .xing = true) (c_link : P .link = true)
    (c_har : P .har = true) (c_thr : P .thr = true) (c_eng : P .eng = true) (c_prog : P .prog = true)
    (c_frm : P .frm = true) (c_lmap : P .lmap = true) (c_spw : P .spw = true) (c_gt : P .gt = true)
    (c_prb : P .prb = true) (c_ps : P .ps = true) (c_rcd : P .rcd = true) (c_host : P .host = true)
    (eq0 : execMuster t s = .next s9) :
    Ch P q9 s9 := by
  unfold execMuster at eq0
  try dsimp only at eq0
  repeat' first | (apply event_within; case eq0 => assumption) | split at eq0 | (injection eq0 with eq0; subst eq0) | cases eq0
  all_goals repeat' first
    | dsimp only [GRes.all_ok, GRes.all_jump, GRes.all_trap, GRes.all_stop, Ans.all_reply, Ans.all_later, Ans.all_waits]
    | (with_reducible first | intro _ | assumption | exact True.intro | apply muster_within)
    | split
    | dsimp only

theorem floatPhases_within (h : HarnessId) (s : State) (hq : Ch P q9 s) (c_units : P .units = true)
    (c_link : P .link = true) (c_har : P .har = true) :
    Ch P q9 (floatPhases h s) := by
  unfold floatPhases
  repeat' first
    | (with_reducible first | intro _ | assumption | apply phaseHarness_within)
    | split
    | dsimp only

theorem progTimer_within (h : HarnessId) (t : Option EvTime) (s : State) (hq : Ch P q9 s) (c_thr : P .thr = true) :
    Ch P q9 (progTimer h t s) := by
  unfold progTimer
  repeat' first
    | (with_reducible first | intro _ | assumption | apply State_modThr_within)
    | split
    | dsimp only

theorem leaveStage_within (h : HarnessId) (s : State) (hq : Ch P q9 s) (c_units : P .units = true)
    (c_link : P .link = true) (c_har : P .har = true) (c_thr : P .thr = true) :
    Ch P q9 (leaveStage h s) := by
  unfold leaveStage
  repeat' first
    | (with_reducible first | intro _ | assumption | apply floatPhases_within | apply progTimer_within)
    | split
    | dsimp only

theorem beginCatch_within (h : HarnessId) (s : State) (hq : Ch P q9 s) (c_units : P .units = true)
    (c_link : P .link = true) (c_har : P .har = true) (c_thr : P .thr = true) :
    Ch P q9 (beginCatch h s) := by
  unfold beginCatch
  repeat' first
    | (with_reducible first | intro _ | assumption | apply State_modMot_within | apply leaveStage_within)
    | split
    | dsimp only

theorem failStart_within (h : HarnessId) (reason status : Byte) (s : State) (hq : Ch P q9 s) (cE : EvOk P)
    (c_units : P .units = true) (c_link : P .link = true) (c_har : P .har = true) (c_thr : P .thr = true)
    (c_host : P .host = true) :
    Ch P q9 (failStart h reason status s) := by
  unfold failStart
  repeat' first
    | (with_reducible first
        | intro _ | assumption | apply State_modMot_within | apply answerStart_within | apply leaveStage_within
        | apply postMotion_within)
    | split
    | dsimp only

theorem enterRun_within (h : HarnessId) (ev : Byte) (speed : W32) (s : State) (hq : Ch P q9 s) (cE : EvOk P)
    (c_har : P .har = true) (c_host : P .host = true) :
    Ch P q9 (enterRun h ev speed s) := by
  unfold enterRun
  repeat' first
    | (with_reducible first
        | intro _ | assumption | apply State_modMot_within | apply answerStart_within | apply postMotion_within)
    | split
    | dsimp only

theorem driveDuty_within (h : HarnessId) (s : State) (hq : Ch P q9 s) (cE : EvOk P) (c_units : P .units = true)
    (c_xing : P .xing = true) (c_link : P .link = true) (c_har : P .har = true) (c_lmap : P .lmap = true) :
    Ch P q9 (driveDuty h s) := by
  unfold driveDuty
  repeat' first
    | (with_reducible first
        | intro _ | assumption | apply ite_within | apply forEach_within | apply chanOp_within | apply forEach_within)
    | split
    | dsimp only

theorem setDuty_within (h : HarnessId) (d : Nat) (s : State) (hq : Ch P q9 s) (cE : EvOk P)
    (c_units : P .units = true) (c_xing : P .xing = true) (c_link : P .link = true) (c_har : P .har = true)
    (c_lmap : P .lmap = true) :
    Ch P q9 (setDuty h d s) := by
  unfold setDuty
  repeat' first
    | (with_reducible first | intro _ | assumption | apply State_modMot_within | apply driveDuty_within)
    | split
    | dsimp only

theorem beginAlign_within (h : HarnessId) (s : State) (hq : Ch P q9 s) (cE : EvOk P) (c_units : P .units = true)
    (c_xing : P .xing = true) (c_link : P .link = true) (c_har : P .har = true) (c_lmap : P .lmap = true) :
    Ch P q9 (beginAlign h s) := by
  unfold beginAlign
  repeat' first
    | (with_reducible first
        | intro _ | assumption | apply State_modMot_within | apply phaseHarness_within | apply setDuty_within)
    | split
    | dsimp only

theorem beginBrake_within (h : HarnessId) (stop : Bool) (s : State) (hq : Ch P q9 s) (c_units : P .units = true)
    (c_link : P .link = true) (c_har : P .har = true) (c_thr : P .thr = true) :
    Ch P q9 (beginBrake h stop s) := by
  unfold beginBrake
  repeat' first
    | (with_reducible first
        | intro _ | assumption | apply State_modMot_within | apply phaseHarness_within | apply progTimer_within)
    | split
    | dsimp only

theorem stopped_within (h : HarnessId) (mode : Byte) (s : State) (hq : Ch P q9 s) (cE : EvOk P)
    (c_units : P .units = true) (c_link : P .link = true) (c_har : P .har = true) (c_thr : P .thr = true) :
    Ch P q9 (stopped h mode s) := by
  unfold stopped
  repeat' first
    | (with_reducible first
        | intro _ | assumption | apply State_modMot_within | apply leaveStage_within | apply postMotion_within)
    | split
    | dsimp only

theorem commutate_within (h : HarnessId) (c : BitVec 3) (s : State) (hq : Ch P q9 s) (c_units : P .units = true)
    (c_link : P .link = true) (c_har : P .har = true) :
    Ch P q9 (commutate h c s) := by
  unfold commutate
  repeat' first
    | (with_reducible first | intro _ | assumption | apply State_modMot_within | apply phaseHarness_within)
    | split
    | dsimp only

theorem cycleDuty_within (h : HarnessId) (s : State) (hq : Ch P q9 s) (cE : EvOk P) (c_units : P .units = true)
    (c_xing : P .xing = true) (c_link : P .link = true) (c_har : P .har = true) (c_lmap : P .lmap = true) :
    Ch P q9 (cycleDuty h s) := by
  unfold cycleDuty
  repeat' first
    | (with_reducible first
        | intro _ | assumption | apply ite_within | apply State_modMot_within | apply driveDuty_within)
    | split
    | dsimp only

theorem lockOn_within (h : HarnessId) (phase : Nat) (rising : Bool) (ev : Byte) (speed : W32) (s : State)
    (hq : Ch P q9 s) (cE : EvOk P) (c_units : P .units = true) (c_xing : P .xing = true) (c_link : P .link = true)
    (c_har : P .har = true) (c_thr : P .thr = true) (c_lmap : P .lmap = true) (c_host : P .host = true) :
    Ch P q9 (lockOn h phase rising ev speed s) := by
  unfold lockOn
  repeat' first
    | (with_reducible first
        | intro _ | assumption | apply ite_within | apply State_modMot_within | apply commutate_within
        | apply enterRun_within | apply progTimer_within | apply setDuty_within)
    | split
    | dsimp only

theorem bemfCrossing_within (h : HarnessId) (phase : Nat) (rising : Bool) (stamp : EvTime) (s : State)
    (hq : Ch P q9 s) (cE : EvOk P) (c_units : P .units = true) (c_xing : P .xing = true) (c_link : P .link = true)
    (c_har : P .har = true) (c_thr : P .thr = true) (c_lmap : P .lmap = true) (c_host : P .host = true) :
    Ch P q9 (bemfCrossing h phase rising stamp s) := by
  unfold bemfCrossing
  repeat' first
    | (with_reducible first | intro _ | assumption | apply ite_within | apply State_modMot_within | apply lockOn_within)
    | split
    | dsimp only

theorem commuted_within (h : HarnessId) (s : State) (hq : Ch P q9 s) (cE : EvOk P) (c_units : P .units = true)
    (c_xing : P .xing = true) (c_link : P .link = true) (c_har : P .har = true) (c_lmap : P .lmap = true) :
    Ch P q9 (commuted h s) := by
  unfold commuted
  repeat' first
    | (with_reducible first
        | intro _ | assumption | apply ite_within | apply State_modMot_within | apply cycleDuty_within)
    | split
    | dsimp only

theorem commutationMiss_within (h : HarnessId) (s : State) (hq : Ch P q9 s) (cE : EvOk P) (c_units : P .units = true)
    (c_xing : P .xing = true) (c_link : P .link = true) (c_har : P .har = true) (c_thr : P .thr = true)
    (c_lmap : P .lmap = true) :
    Ch P q9 (commutationMiss h s) := by
  unfold commutationMiss
  repeat' first
    | (with_reducible first
        | intro _ | assumption | apply ite_within | apply State_modMot_within | apply commutate_within
        | apply cycleDuty_within | apply leaveStage_within | apply postMotion_within)
    | split
    | dsimp only

theorem rampStep_within (h : HarnessId) (s : State) (hq : Ch P q9 s) (c_units : P .units = true)
    (c_link : P .link = true) (c_har : P .har = true) (c_thr : P .thr = true) :
    Ch P q9 (rampStep h s) := by
  unfold rampStep
  repeat' first
    | (with_reducible first | intro _ | assumption | apply commutate_within | apply progTimer_within)
    | split
    | dsimp only

theorem bridgeTimer_within (h : HarnessId) (s : State) (hq : Ch P q9 s) (cE : EvOk P) (c_units : P .units = true)
    (c_xing : P .xing = true) (c_link : P .link = true) (c_har : P .har = true) (c_thr : P .thr = true)
    (c_lmap : P .lmap = true) :
    Ch P q9 (bridgeTimer h s) := by
  unfold bridgeTimer
  repeat' first
    | (with_reducible first
        | intro _ | assumption | apply ite_within | apply commutationMiss_within | apply rampStep_within)
    | split
    | dsimp only

theorem execCatchWindowEnd_within (t : Instant) (h : HarnessId) (s : State) {s9 : State} (hq : Ch P q9 s)
    (cE : EvOk P) (c_tb : P .tb = true) (c_units : P .units = true) (c_xing : P .xing = true)
    (c_link : P .link = true) (c_har : P .har = true) (c_thr : P .thr = true) (c_lmap : P .lmap = true)
    (eq0 : execCatchWindowEnd t h s = .next s9) :
    Ch P q9 s9 := by
  unfold execCatchWindowEnd at eq0
  try dsimp only at eq0
  repeat' first | (apply event_within; case eq0 => assumption) | split at eq0 | (injection eq0 with eq0; subst eq0) | cases eq0
  all_goals repeat' first
    | dsimp only [GRes.all_ok, GRes.all_jump, GRes.all_trap, GRes.all_stop, Ans.all_reply, Ans.all_later, Ans.all_waits]
    | (with_reducible first
        | intro _ | assumption | exact True.intro | apply ite_within | apply State_modMot_within
        | apply beginAlign_within | apply beginBrake_within | apply postMotion_within)
    | split
    | dsimp only

theorem execAlignEnd_within (t : Instant) (h : HarnessId) (s : State) {s9 : State} (hq : Ch P q9 s) (cE : EvOk P)
    (c_tb : P .tb = true) (c_units : P .units = true) (c_xing : P .xing = true) (c_link : P .link = true)
    (c_har : P .har = true) (c_thr : P .thr = true) (c_lmap : P .lmap = true) (eq0 : execAlignEnd t h s = .next s9) :
    Ch P q9 s9 := by
  unfold execAlignEnd at eq0
  try dsimp only at eq0
  repeat' first | (apply event_within; case eq0 => assumption) | split at eq0 | (injection eq0 with eq0; subst eq0) | cases eq0
  all_goals repeat' first
    | dsimp only [GRes.all_ok, GRes.all_jump, GRes.all_trap, GRes.all_stop, Ans.all_reply, Ans.all_later, Ans.all_waits]
    | (with_reducible first
        | intro _ | assumption | exact True.intro | apply State_modMot_within | apply rampStep_within
        | apply setDuty_within)
    | split
    | dsimp only

theorem execNoSyncTimeout_within (t : Instant) (h : HarnessId) (s : State) {s9 : State} (hq : Ch P q9 s) (cE : EvOk P)
    (c_tb : P .tb = true) (c_units : P .units = true) (c_link : P .link = true) (c_har : P .har = true)
    (c_thr : P .thr = true) (c_host : P .host = true) (eq0 : execNoSyncTimeout t h s = .next s9) :
    Ch P q9 s9 := by
  unfold execNoSyncTimeout at eq0
  try dsimp only at eq0
  repeat' first | (apply event_within; case eq0 => assumption) | split at eq0 | (injection eq0 with eq0; subst eq0) | cases eq0
  all_goals repeat' first
    | dsimp only [GRes.all_ok, GRes.all_jump, GRes.all_trap, GRes.all_stop, Ans.all_reply, Ans.all_later, Ans.all_waits]
    | (with_reducible first | intro _ | assumption | exact True.intro | apply failStart_within)
    | split
    | dsimp only

theorem execCommutationBlankingEnd_within (t : Instant) (h : HarnessId) (s : State) {s9 : State} (hq : Ch P q9 s)
    (c_tb : P .tb = true) (c_har : P .har = true) (c_thr : P .thr = true) (c_spw : P .spw = true)
    (c_hlt : P .hlt = true) (eq0 : execCommutationBlankingEnd t h s = .next s9) :
    Ch P q9 s9 := by
  unfold execCommutationBlankingEnd at eq0
  try dsimp only at eq0
  repeat' first | (apply event_within; case eq0 => assumption) | split at eq0 | (injection eq0 with eq0; subst eq0) | cases eq0
  all_goals repeat' first
    | dsimp only [GRes.all_ok, GRes.all_jump, GRes.all_trap, GRes.all_stop, Ans.all_reply, Ans.all_later, Ans.all_waits]
    | (with_reducible first
        | intro _ | assumption | exact True.intro | apply State_modMot_within | apply progTimer_within
        | apply spwWrite_within | (apply spwWrite_within'; case eq0 => assumption))
    | split
    | dsimp only

theorem execBrakePeek_within (t : Instant) (h : HarnessId) (s : State) {s9 : State} (hq : Ch P q9 s) (cE : EvOk P)
    (c_tb : P .tb = true) (c_units : P .units = true) (c_xing : P .xing = true) (c_link : P .link = true)
    (c_har : P .har = true) (c_thr : P .thr = true) (c_lmap : P .lmap = true) (eq0 : execBrakePeek t h s = .next s9) :
    Ch P q9 s9 := by
  unfold execBrakePeek at eq0
  try dsimp only at eq0
  repeat' first | (apply event_within; case eq0 => assumption) | split at eq0 | (injection eq0 with eq0; subst eq0) | cases eq0
  all_goals repeat' first
    | dsimp only [GRes.all_ok, GRes.all_jump, GRes.all_trap, GRes.all_stop, Ans.all_reply, Ans.all_later, Ans.all_waits]
    | (with_reducible first
        | intro _ | assumption | exact True.intro | apply ite_within | apply State_modMot_within
        | apply beginAlign_within | apply floatPhases_within | apply phaseHarness_within | apply stopped_within)
    | split
    | dsimp only

theorem execBrakeTimeout_within (t : Instant) (h : HarnessId) (s : State) {s9 : State} (hq : Ch P q9 s) (cE : EvOk P)
    (c_tb : P .tb = true) (c_units : P .units = true) (c_link : P .link = true) (c_har : P .har = true)
    (c_thr : P .thr = true) (c_host : P .host = true) (eq0 : execBrakeTimeout t h s = .next s9) :
    Ch P q9 s9 := by
  unfold execBrakeTimeout at eq0
  try dsimp only at eq0
  repeat' first | (apply event_within; case eq0 => assumption) | split at eq0 | (injection eq0 with eq0; subst eq0) | cases eq0
  all_goals repeat' first
    | dsimp only [GRes.all_ok, GRes.all_jump, GRes.all_trap, GRes.all_stop, Ans.all_reply, Ans.all_later, Ans.all_waits]
    | (with_reducible first
        | intro _ | assumption | exact True.intro | apply ite_within | apply failStart_within | apply stopped_within)
    | split
    | dsimp only

theorem axisDone_within (h : HarnessId) (reason : Byte) (s : State) (hq : Ch P q9 s) (cE : EvOk P)
    (c_har : P .har = true) (c_thr : P .thr = true) :
    Ch P q9 (axisDone h reason s) := by
  unfold axisDone
  repeat' first
    | (with_reducible first
        | intro _ | assumption | apply State_modMot_within | apply postMotion_within | apply progTimer_within)
    | split
    | dsimp only

theorem armStep_within (h : HarnessId) (base least : EvTime) (s : State) (hq : Ch P q9 s) (cE : EvOk P)
    (c_units : P .units = true) (c_xing : P .xing = true) (c_link : P .link = true) (c_har : P .har = true)
    (c_thr : P .thr = true) (c_lmap : P .lmap = true) :
    Ch P q9 (armStep h base least s) := by
  unfold armStep
  repeat' first
    | (with_reducible first
        | intro _ | assumption | apply ite_within | apply State_modMot_within | apply chanOp_within
        | apply progTimer_within)
    | split
    | dsimp only

theorem turnAxis_within (h : HarnessId) (s : State) (hq : Ch P q9 s) (cE : EvOk P) (c_units : P .units = true)
    (c_xing : P .xing = true) (c_link : P .link = true) (c_har : P .har = true) (c_thr : P .thr = true)
    (c_lmap : P .lmap = true) :
    Ch P q9 (turnAxis h s) := by
  unfold turnAxis
  repeat' first
    | (with_reducible first | intro _ | assumption | apply ite_within | apply armStep_within | apply chanOp_within)
    | split
    | dsimp only

theorem axisStep_within (h : HarnessId) (s : State) (hq : Ch P q9 s) (cE : EvOk P) (c_units : P .units = true)
    (c_xing : P .xing = true) (c_link : P .link = true) (c_har : P .har = true) (c_thr : P .thr = true)
    (c_lmap : P .lmap = true) :
    Ch P q9 (axisStep h s) := by
  unfold axisStep
  repeat' first
    | (with_reducible first
        | intro _ | assumption | apply ite_within | apply cond_within | apply State_modMot_within
        | apply armStep_within | apply axisDone_within | apply postMotion_within | apply turnAxis_within)
    | split
    | dsimp only

theorem execAxisStepCounted_within (t : Instant) (h : HarnessId) (s : State) {s9 : State} (hq : Ch P q9 s)
    (cE : EvOk P) (c_tb : P .tb = true) (c_units : P .units = true) (c_xing : P .xing = true)
    (c_link : P .link = true) (c_har : P .har = true) (c_thr : P .thr = true) (c_lmap : P .lmap = true)
    (eq0 : execAxisStepCounted t h s = .next s9) :
    Ch P q9 s9 := by
  unfold execAxisStepCounted at eq0
  try dsimp only at eq0
  repeat' first | (apply event_within; case eq0 => assumption) | split at eq0 | (injection eq0 with eq0; subst eq0) | cases eq0
  all_goals repeat' first
    | dsimp only [GRes.all_ok, GRes.all_jump, GRes.all_trap, GRes.all_stop, Ans.all_reply, Ans.all_later, Ans.all_waits]
    | (with_reducible first | intro _ | assumption | exact True.intro | apply axisStep_within)
    | split
    | dsimp only

theorem motionRestart_within (h : HarnessId) (s : State) (hq : Ch P q9 s) (cE : EvOk P) (c_units : P .units = true)
    (c_link : P .link = true) (c_har : P .har = true) (c_thr : P .thr = true) :
    Ch P q9 (motionRestart h s) := by
  unfold motionRestart
  repeat' first
    | (with_reducible first
        | intro _ | assumption | apply ite_within | apply State_modMot_within | apply beginCatch_within
        | apply postMotion_within)
    | split
    | dsimp only

theorem overwrite_within (p : Fin 16) (s : State) (hq : Ch P q9 s) (c_prb : P .prb = true) (c_ps : P .ps = true) :
    Ch P q9 (overwrite p s) := by
  unfold overwrite
  repeat' first
    | (with_reducible first | intro _ | assumption | apply ite_within | apply State_modPrb_within)
    | (with_reducible eapply Ch.ps c_ps; first | assumption | apply State_modPrb_within | apply ite_within)
    | split
    | dsimp only

theorem slotEnd_within (c : Fin 2) (s : State) (hq : Ch P q9 s) (cE : EvOk P) (c_xing : P .xing = true)
    (c_conv : P .conv = true) (c_prb : P .prb = true) (c_ps : P .ps = true) :
    Ch P q9 (slotEnd c s) := by
  unfold slotEnd
  repeat' first
    | (with_reducible first
        | intro _ | assumption | apply ite_within | apply State_modConv_within | apply State_modPrb_within
        | apply overwrite_within | apply pushEvent_within)
    | split
    | dsimp only

theorem refFault_within (c : Fin 2) (s : State) (hq : Ch P q9 s) (c_prb : P .prb = true) :
    Ch P q9 (refFault c s) := by
  unfold refFault
  repeat' first
    | (with_reducible first
        | intro _ | assumption | apply forEach_within | apply State_modPrb_within | apply forEach_within)
    | split
    | dsimp only

theorem dischargeEnd_within (c : Fin 2) (t : Nat) (ended : Bool) (s : State) (hq : Ch P q9 s) (cE : EvOk P)
    (c_xing : P .xing = true) (c_conv : P .conv = true) (c_prb : P .prb = true) (c_ps : P .ps = true) :
    Ch P q9 (dischargeEnd c t ended s) := by
  unfold dischargeEnd
  repeat' first
    | (with_reducible first
        | intro _ | assumption | apply ite_within | apply State_modConv_within | apply refFault_within
        | apply slotEnd_within)
    | split
    | dsimp only

theorem startConv_within (c : Fin 2) (s : State) (hq : Ch P q9 s) (c_conv : P .conv = true) (c_prb : P .prb = true)
    (c_ps : P .ps = true) :
    Ch P q9 (startConv c s) := by
  unfold startConv
  repeat' first
    | (with_reducible first
        | intro _ | assumption | apply ite_within | apply forEach_within | apply State_modConv_within
        | apply State_modPrb_within | apply forEach_within | apply overwrite_within)
    | split
    | dsimp only

theorem statedLoss_within (s : State) (hq : Ch P q9 s) (c_nv : P .nv = true) (c_prb : P .prb = true)
    (c_ps : P .ps = true) (c_rcd : P .rcd = true) (c_irq : P .irq = true) (c_hlt : P .hlt = true) :
    Ch P q9 (statedLoss s) := by
  unfold statedLoss
  repeat' first
    | (with_reducible first | intro _ | assumption | apply ite_within | apply probeLoss_within | apply tryLoss_within)
    | (with_reducible eapply Ch.prb c_prb; eapply Ch.ps c_ps; first | assumption | apply probeLoss_within | apply tryLoss_within | apply ite_within)
    | split
    | dsimp only

theorem takeResult_within (p : Fin 16) (s : State) (hq : Ch P q9 s) (c_nv : P .nv = true) (c_prb : P .prb = true)
    (c_ps : P .ps = true) (c_rcd : P .rcd = true) (c_irq : P .irq = true) (c_hlt : P .hlt = true) :
    Ch P q9 (takeResult p s) := by
  unfold takeResult
  repeat' first
    | (with_reducible first
        | intro _ | assumption | apply ite_within | apply cond_within | apply State_modPrb_within | apply log_within
        | apply statedLoss_within)
    | split
    | dsimp only

theorem applyBlock_within (c : Fin 2) (b : ConvSched) (topen tshort : W32) (s : State) (hq : Ch P q9 s)
    (c_conv : P .conv = true) :
    Ch P q9 (applyBlock c b topen tshort s) := by
  unfold applyBlock
  repeat' first
    | (with_reducible first | intro _ | assumption | apply ite_within | apply State_modConv_within)
    | split
    | dsimp only

theorem applySched_within (k : Sched) (s : State) (hq : Ch P q9 s) (c_conv : P .conv = true) :
    Ch P q9 (applySched k s) := by
  unfold applySched
  repeat' first
    | (with_reducible first | intro _ | assumption | apply applyBlock_within)
    | split
    | dsimp only

theorem startRun_within (s : State) (hq : Ch P q9 s) (c_conv : P .conv = true) (c_prb : P .prb = true)
    (c_ps : P .ps = true) :
    Ch P q9 (startRun s) := by
  unfold startRun
  repeat' first
    | (with_reducible first | intro _ | assumption | apply ite_within | apply startConv_within)
    | split
    | dsimp only

theorem settleSched_within (s : State) (hq : Ch P q9 s) (c_conv : P .conv = true) (c_ps : P .ps = true) :
    Ch P q9 (settleSched s) := by
  unfold settleSched
  repeat' first
    | (with_reducible first | intro _ | assumption | apply ite_within | apply applySched_within)
    | (with_reducible eapply Ch.ps c_ps; first | assumption | apply applySched_within | apply ite_within)
    | split
    | dsimp only

theorem parkReturn_within (s : State) (hq : Ch P q9 s) (c_far : P .far = true) :
    Ch P q9 (parkReturn s) := by
  unfold parkReturn
  repeat' first
    | (with_reducible first | intro _ | assumption | apply ite_within)
    | (with_reducible eapply Ch.far c_far; first | assumption | apply ite_within)
    | split
    | dsimp only

theorem loadSched_within (k : Sched) (s : State) (hq : Ch P q9 s) (c_conv : P .conv = true) (c_ps : P .ps = true)
    (c_rcd : P .rcd = true) :
    Ch P q9 (loadSched k s) := by
  unfold loadSched
  repeat' first
    | (with_reducible first | intro _ | assumption | apply setStep_within | apply settleSched_within)
    | (with_reducible eapply Ch.ps c_ps; first | assumption | apply setStep_within | apply settleSched_within)
    | split
    | dsimp only

theorem storeMeans_within (s : State) (hq : Ch P q9 s) (c_rsv : P .rsv = true) :
    Ch P q9 (storeMeans s) := by
  unfold storeMeans
  repeat' first
    | (with_reducible first | intro _ | assumption | apply ite_within)
    | (with_reducible eapply Ch.rsv c_rsv; first | assumption | apply ite_within)
    | split
    | dsimp only

theorem abortSleep_within (s : State) (hq : Ch P q9 s) (c_rsv : P .rsv = true) (c_ps : P .ps = true)
    (c_irq : P .irq = true) (c_far : P .far = true) (c_pwr : P .pwr = true) :
    Ch P q9 (abortSleep s) := by
  unfold abortSleep
  repeat' first
    | (with_reducible first | intro _ | assumption)
    | (with_reducible eapply Ch.rsv c_rsv; eapply Ch.ps c_ps; eapply Ch.irq c_irq; eapply Ch.far c_far; eapply Ch.pwr c_pwr; assumption)
    | split
    | dsimp only

theorem setLatch_within (i : Nat) (s : State) (hq : Ch P q9 s) (c_rsv : P .rsv = true) (c_ps : P .ps = true)
    (c_irq : P .irq = true) (c_far : P .far = true) (c_pwr : P .pwr = true) :
    Ch P q9 (setLatch i s) := by
  unfold setLatch
  repeat' first
    | (with_reducible first | intro _ | assumption | apply ite_within | apply abortSleep_within)
    | (with_reducible eapply Ch.rsv c_rsv; eapply Ch.pwr c_pwr; first | assumption | apply abortSleep_within | apply ite_within)
    | (with_reducible eapply Ch.rsv c_rsv; first | assumption | apply abortSleep_within | apply ite_within)
    | (with_reducible eapply Ch.pwr c_pwr; first | assumption | apply abortSleep_within | apply ite_within)
    | split
    | dsimp only

theorem checkAlarm_within (s : State) (hq : Ch P q9 s) (c_rsv : P .rsv = true) (c_ps : P .ps = true)
    (c_irq : P .irq = true) (c_far : P .far = true) (c_pwr : P .pwr = true) :
    Ch P q9 (checkAlarm s) := by
  unfold checkAlarm
  repeat' first
    | (with_reducible first | intro _ | assumption | apply ite_within | apply pulse_within | apply setLatch_within)
    | (with_reducible eapply Ch.rsv c_rsv; eapply Ch.ps c_ps; first | assumption | apply pulse_within | apply setLatch_within | apply ite_within)
    | (with_reducible eapply Ch.rsv c_rsv; first | assumption | apply pulse_within | apply setLatch_within | apply ite_within)
    | (with_reducible eapply Ch.ps c_ps; first | assumption | apply pulse_within | apply setLatch_within | apply ite_within)
    | split
    | dsimp only

theorem closeSpan_within (s : State) (hq : Ch P q9 s) (c_tb : P .tb = true) :
    Ch P q9 (closeSpan s) := by
  unfold closeSpan
  repeat' first
    | (with_reducible first | intro _ | assumption | apply addUnc_within | apply beginSpan_within)
    | split
    | dsimp only

theorem clearL2_within (s : State) (hq : Ch P q9 s) (cE : EvOk P) (c_units : P .units = true)
    (c_xing : P .xing = true) (c_link : P .link = true) (c_har : P .har = true) (c_thr : P .thr = true)
    (c_eng : P .eng = true) (c_spw : P .spw = true) (c_rcd : P .rcd = true) :
    Ch P q9 (clearL2 s) := by
  have c_ost := cE.ost
  have c_irq := cE.irq
  have c_far := cE.far
  have c_hlt := cE.hlt
  unfold clearL2
  repeat' first
    | (with_reducible first
        | intro _ | assumption | apply forEach_within | apply State_modSpw_within | apply forEach_within
        | apply safeHarness_within)
    | (with_reducible eapply Ch.link c_link; eapply Ch.har c_har; eapply Ch.thr c_thr; eapply Ch.eng c_eng; eapply Ch.ost c_ost; eapply Ch.rcd c_rcd; eapply Ch.irq c_irq; eapply Ch.far c_far; eapply Ch.hlt c_hlt; first
        | assumption | apply State_modSpw_within | apply forEach_within | apply safeHarness_within
        | apply forEach_within)
    | split
    | dsimp only

theorem gatherOpen_within (s : State) (hq : Ch P q9 s) (c_tb : P .tb = true) :
    Ch P q9 (gatherOpen s) := by
  unfold gatherOpen
  repeat' first
    | (with_reducible first | intro _ | assumption | apply ite_within | apply addUnc_within)
    | split
    | dsimp only

theorem clearL1_within (s : State) (hq : Ch P q9 s) (cR : RsOk P) :
    Ch P q9 (clearL1 s) := by
  have c_tb := cR.tb
  have c_rsv := cR.rsv
  have c_fsh := cR.fsh
  have c_units := cR.units
  have c_tio := cR.tio
  have c_xing := cR.xing
  have c_arm := cR.arm
  have c_link := cR.link
  have c_har := cR.har
  have c_thr := cR.thr
  have c_eng := cR.eng
  have c_prog := cR.prog
  have c_frm := cR.frm
  have c_bas := cR.bas
  have c_bmem := cR.bmem
  have c_lmap := cR.lmap
  have c_ost := cR.ost
  have c_spw := cR.spw
  have c_gt := cR.gt
  have c_conv := cR.conv
  have c_prb := cR.prb
  have c_ps := cR.ps
  have c_rcd := cR.rcd
  have c_host := cR.host
  have c_irq := cR.irq
  have c_far := cR.far
  have c_hlt := cR.hlt
  have c_pwr := cR.pwr
  have c_dbg := cR.dbg
  unfold clearL1
  repeat' first
    | (with_reducible first | intro _ | assumption | apply gatherOpen_within)
    | (with_reducible eapply Ch.tb c_tb; eapply Ch.rsv c_rsv; eapply Ch.fsh c_fsh; eapply Ch.units c_units; eapply Ch.tio c_tio; eapply Ch.xing c_xing; eapply Ch.arm c_arm; eapply Ch.link c_link; eapply Ch.har c_har; eapply Ch.thr c_thr; eapply Ch.eng c_eng; eapply Ch.prog c_prog; eapply Ch.frm c_frm; eapply Ch.bas c_bas; eapply Ch.bmem c_bmem; eapply Ch.lmap c_lmap; eapply Ch.ost c_ost; eapply Ch.spw c_spw; eapply Ch.gt c_gt; eapply Ch.conv c_conv; eapply Ch.prb c_prb; eapply Ch.ps c_ps; eapply Ch.rcd c_rcd; eapply Ch.host c_host; eapply Ch.irq c_irq; eapply Ch.far c_far; eapply Ch.hlt c_hlt; eapply Ch.pwr c_pwr; eapply Ch.dbg c_dbg; first | assumption | apply gatherOpen_within)
    | split
    | dsimp only

theorem clearL0_within (s : State) (hq : Ch P q9 s) (cR : RsOk P) :
    Ch P q9 (clearL0 s) := by
  have c_tb := cR.tb
  have c_eng := cR.eng
  have c_far := cR.far
  have c_pwr := cR.pwr
  have c_dbg := cR.dbg
  unfold clearL0
  repeat' first
    | (with_reducible first | intro _ | assumption | apply clearL1_within)
    | (with_reducible eapply Ch.tb c_tb; eapply Ch.eng c_eng; eapply Ch.far c_far; eapply Ch.pwr c_pwr; eapply Ch.dbg c_dbg; first | assumption | apply clearL1_within)
    | split
    | dsimp only

theorem countFail_within (s : State) (hq : Ch P q9 s) (c_rsv : P .rsv = true) :
    Ch P q9 (countFail s) := by
  unfold countFail
  repeat' first
    | (with_reducible first | intro _ | assumption | apply ite_within)
    | (with_reducible eapply Ch.rsv c_rsv; first | assumption | apply ite_within)
    | split
    | dsimp only

theorem assertReset_within (r : RstSrc) (s : State) (hq : Ch P q9 s) (cR : RsOk P) :
    Ch P q9 (assertReset r s) := by
  have cE := cR.toEvOk
  have c_rsv := cR.rsv
  have c_units := cR.units
  have c_xing := cR.xing
  have c_link := cR.link
  have c_har := cR.har
  have c_thr := cR.thr
  have c_eng := cR.eng
  have c_spw := cR.spw
  have c_rcd := cR.rcd
  have c_pwr := cR.pwr
  unfold assertReset
  repeat' first
    | (with_reducible first
        | intro _ | assumption | apply ite_within | apply clearL0_within | apply clearL1_within | apply clearL2_within
        | apply countFail_within)
    | (with_reducible eapply Ch.pwr c_pwr; first
        | assumption | apply clearL0_within | apply clearL1_within | apply clearL2_within | apply countFail_within
        | apply ite_within)
    | split
    | dsimp only

theorem calReport_within (bad : List (Nat × Nat)) (s : State) (hq : Ch P q9 s) (cE : EvOk P) :
    Ch P q9 (calReport bad s) := by
  have c_irq := cE.irq
  have c_hlt := cE.hlt
  unfold calReport
  repeat' first
    | (with_reducible first
        | intro _ | assumption | apply ite_within | apply forEach_within | apply forEach_within | apply health_within
        | apply pulse_within | apply setCause_within)
    | split
    | dsimp only

theorem nvBad_within (area : Fin 4) (off : W32) (s : State) (hq : Ch P q9 s) (cE : EvOk P) :
    Ch P q9 (nvBad area off s) := by
  have c_irq := cE.irq
  have c_hlt := cE.hlt
  unfold nvBad
  repeat' first
    | (with_reducible first | intro _ | assumption | apply health_within | apply pulse_within | apply setCause_within)
    | split
    | dsimp only

theorem nvReport_within (s : State) (hq : Ch P q9 s) (cE : EvOk P) :
    Ch P q9 (nvReport s) := by
  unfold nvReport
  repeat' first
    | (with_reducible first | intro _ | assumption | apply nvBad_within)
    | split
    | dsimp only

theorem routeIrq_within (gateH : Bool) (s : State) (hq : Ch P q9 s) (c_irq : P .irq = true) :
    Ch P q9 (routeIrq gateH s) := by
  unfold routeIrq
  repeat' first
    | (with_reducible first | intro _ | assumption)
    | (with_reducible eapply Ch.irq c_irq; assumption)
    | split
    | dsimp only

theorem startPatch_within (p : W16 × Nat × List Byte) (s : State) (hq : Ch P q9 s) (c_far : P .far = true) :
    Ch P q9 (startPatch p s) := by
  unfold startPatch
  repeat' first
    | (with_reducible first | intro _ | assumption)
    | (with_reducible eapply Ch.far c_far; assumption)
    | split
    | dsimp only

theorem flashPatch_within (s : State) (hq : Ch P q9 s) (c_far : P .far = true) :
    Ch P q9 (flashPatch s) := by
  unfold flashPatch
  repeat' first
    | (with_reducible first | intro _ | assumption | apply ite_within | apply startPatch_within)
    | (with_reducible eapply Ch.far c_far; first | assumption | apply startPatch_within | apply ite_within)
    | split
    | dsimp only

theorem noteChange_within (start : W64) (s : State) (hq : Ch P q9 s) (c_tb : P .tb = true) (c_irq : P .irq = true) :
    Ch P q9 (noteChange start s) := by
  unfold noteChange
  repeat' first
    | (with_reducible first | intro _ | assumption | apply ite_within | apply pulse_within)
    | (with_reducible eapply Ch.tb c_tb; first | assumption | apply pulse_within | apply ite_within)
    | split
    | dsimp only

theorem missedWakes_within (s : State) (hq : Ch P q9 s) (c_nv : P .nv = true) (c_ps : P .ps = true)
    (c_rcd : P .rcd = true) (c_irq : P .irq = true) (c_hlt : P .hlt = true) :
    Ch P q9 (missedWakes s) := by
  unfold missedWakes
  repeat' first
    | (with_reducible first | intro _ | assumption | apply ite_within | apply parkLoss_within | apply tryLoss_within)
    | (with_reducible eapply Ch.ps c_ps; first | assumption | apply parkLoss_within | apply tryLoss_within | apply ite_within)
    | split
    | dsimp only

theorem restartRefresh_within (s : State) (hq : Ch P q9 s) (c_tb : P .tb = true) :
    Ch P q9 (restartRefresh s) := by
  unfold restartRefresh
  repeat' first
    | (with_reducible first | intro _ | assumption)
    | (with_reducible eapply Ch.tb c_tb; assumption)
    | split
    | dsimp only

theorem bootGap_within (src : Byte) (s : State) (hq : Ch P q9 s) (c_tb : P .tb = true) (c_nv : P .nv = true)
    (c_prb : P .prb = true) (c_ps : P .ps = true) (c_rcd : P .rcd = true) (c_irq : P .irq = true)
    (c_hlt : P .hlt = true) :
    Ch P q9 (bootGap src s) := by
  unfold bootGap
  repeat' first
    | (with_reducible first
        | intro _ | assumption | apply forEach_within | apply forEach_within | apply log_within
        | apply missedWakes_within | apply noteChange_within | apply restartRefresh_within | apply writeDue_within)
    | split
    | dsimp only

theorem applyTrim_within (s : State) (hq : Ch P q9 s) (c_rsv : P .rsv = true) :
    Ch P q9 (applyTrim s) := by
  unfold applyTrim
  repeat' first
    | (with_reducible first | intro _ | assumption)
    | (with_reducible eapply Ch.rsv c_rsv; assumption)
    | split
    | dsimp only

theorem bootEpoch_within (cause : Byte) (follow : List Entry) (s : State) (hq : Ch P q9 s) (c_tb : P .tb = true)
    (c_rsv : P .rsv = true) (c_nv : P .nv = true) (c_units : P .units = true) (c_arm : P .arm = true)
    (c_link : P .link = true) (c_har : P .har = true) (c_bas : P .bas = true) (c_ost : P .ost = true)
    (c_spw : P .spw = true) (c_gt : P .gt = true) (c_conv : P .conv = true) (c_prb : P .prb = true)
    (c_ps : P .ps = true) (c_rcd : P .rcd = true) (c_host : P .host = true) (c_irq : P .irq = true)
    (c_far : P .far = true) (c_hlt : P .hlt = true) (c_dbg : P .dbg = true) :
    Ch P q9 (bootEpoch cause follow s) := by
  unfold bootEpoch
  repeat' first
    | (with_reducible first | intro _ | assumption | apply epochNow_within | apply restartRefresh_within)
    | (with_reducible eapply Ch.rcd c_rcd; first | assumption | apply epochNow_within | apply restartRefresh_within)
    | split
    | dsimp only

theorem bootTime_within (s : State) (hq : Ch P q9 s) (c_tb : P .tb = true) (c_rsv : P .rsv = true)
    (c_nv : P .nv = true) (c_units : P .units = true) (c_arm : P .arm = true) (c_link : P .link = true)
    (c_har : P .har = true) (c_bas : P .bas = true) (c_ost : P .ost = true) (c_spw : P .spw = true)
    (c_gt : P .gt = true) (c_conv : P .conv = true) (c_prb : P .prb = true) (c_ps : P .ps = true)
    (c_rcd : P .rcd = true) (c_host : P .host = true) (c_irq : P .irq = true) (c_far : P .far = true)
    (c_hlt : P .hlt = true) (c_dbg : P .dbg = true) :
    Ch P q9 (bootTime s) := by
  unfold bootTime
  repeat' first
    | (with_reducible first | intro _ | assumption | apply ite_within | apply bootEpoch_within | apply bootGap_within)
    | (with_reducible eapply Ch.rsv c_rsv; eapply Ch.tb c_tb; eapply Ch.rcd c_rcd; eapply Ch.ps c_ps; first | assumption | apply bootEpoch_within | apply bootGap_within | apply ite_within)
    | (with_reducible eapply Ch.rsv c_rsv; eapply Ch.rcd c_rcd; eapply Ch.tb c_tb; eapply Ch.ps c_ps; first | assumption | apply bootEpoch_within | apply bootGap_within | apply ite_within)
    | (with_reducible eapply Ch.rsv c_rsv; eapply Ch.tb c_tb; eapply Ch.rcd c_rcd; first | assumption | apply bootEpoch_within | apply bootGap_within | apply ite_within)
    | (with_reducible eapply Ch.rsv c_rsv; eapply Ch.rcd c_rcd; eapply Ch.tb c_tb; first | assumption | apply bootEpoch_within | apply bootGap_within | apply ite_within)
    | (with_reducible eapply Ch.tb c_tb; eapply Ch.rcd c_rcd; eapply Ch.ps c_ps; first | assumption | apply bootEpoch_within | apply bootGap_within | apply ite_within)
    | (with_reducible eapply Ch.rcd c_rcd; eapply Ch.ps c_ps; eapply Ch.tb c_tb; first | assumption | apply bootEpoch_within | apply bootGap_within | apply ite_within)
    | (with_reducible eapply Ch.rsv c_rsv; eapply Ch.rcd c_rcd; first | assumption | apply bootEpoch_within | apply bootGap_within | apply ite_within)
    | (with_reducible eapply Ch.tb c_tb; eapply Ch.rcd c_rcd; first | assumption | apply bootEpoch_within | apply bootGap_within | apply ite_within)
    | (with_reducible eapply Ch.rcd c_rcd; eapply Ch.ps c_ps; first | assumption | apply bootEpoch_within | apply bootGap_within | apply ite_within)
    | (with_reducible eapply Ch.ps c_ps; eapply Ch.tb c_tb; first | assumption | apply bootEpoch_within | apply bootGap_within | apply ite_within)
    | (with_reducible eapply Ch.rsv c_rsv; first | assumption | apply bootEpoch_within | apply bootGap_within | apply ite_within)
    | (with_reducible eapply Ch.rcd c_rcd; first | assumption | apply bootEpoch_within | apply bootGap_within | apply ite_within)
    | (with_reducible eapply Ch.ps c_ps; first | assumption | apply bootEpoch_within | apply bootGap_within | apply ite_within)
    | (with_reducible eapply Ch.tb c_tb; first | assumption | apply bootEpoch_within | apply bootGap_within | apply ite_within)
    | split
    | dsimp only

theorem restoreMarks_within (s : State) (hq : Ch P q9 s) (c_units : P .units = true) (c_eng : P .eng = true)
    (c_conv : P .conv = true) :
    Ch P q9 (restoreMarks s) := by
  unfold restoreMarks
  repeat' first
    | (with_reducible first | intro _ | assumption | apply ite_within)
    | (with_reducible eapply Ch.units c_units; eapply Ch.eng c_eng; eapply Ch.conv c_conv; first | assumption | apply ite_within)
    | split
    | dsimp only

theorem bootTapsAll_within (s : State) (hq : Ch P q9 s) (c_units : P .units = true) (c_far : P .far = true) :
    Ch P q9 (bootTapsAll s) := by
  unfold bootTapsAll
  repeat' first
    | (with_reducible first | intro _ | assumption)
    | (with_reducible eapply Ch.units c_units; eapply Ch.far c_far; assumption)
    | split
    | dsimp only

theorem bootCauses_within (s : State) (hq : Ch P q9 s) (c_irq : P .irq = true) (c_hlt : P .hlt = true) :
    Ch P q9 (bootCauses s) := by
  unfold bootCauses
  repeat' first
    | (with_reducible first | intro _ | assumption | apply ite_within | apply setCause_within)
    | split
    | dsimp only

theorem wakeLogic_within (park : Bool) (s : State) (hq : Ch P q9 s) (c_rsv : P .rsv = true) (c_conv : P .conv = true)
    (c_prb : P .prb = true) (c_ps : P .ps = true) (c_irq : P .irq = true) (c_far : P .far = true) :
    Ch P q9 (wakeLogic park s) := by
  unfold wakeLogic
  repeat' first
    | (with_reducible first | intro _ | assumption | apply ite_within | apply parkReturn_within | apply startRun_within)
    | (with_reducible eapply Ch.rsv c_rsv; eapply Ch.ps c_ps; eapply Ch.irq c_irq; first | assumption | apply parkReturn_within | apply startRun_within | apply ite_within)
    | (with_reducible eapply Ch.rsv c_rsv; eapply Ch.ps c_ps; first | assumption | apply parkReturn_within | apply startRun_within | apply ite_within)
    | (with_reducible eapply Ch.ps c_ps; eapply Ch.irq c_irq; first | assumption | apply parkReturn_within | apply startRun_within | apply ite_within)
    | split
    | dsimp only

theorem finishWake_within (s : State) (hq : Ch P q9 s) (c_tb : P .tb = true) (c_rsv : P .rsv = true)
    (c_nv : P .nv = true) (c_conv : P .conv = true) (c_prb : P .prb = true) (c_ps : P .ps = true)
    (c_rcd : P .rcd = true) (c_irq : P .irq = true) (c_far : P .far = true) (c_hlt : P .hlt = true) :
    Ch P q9 (finishWake s) := by
  unfold finishWake
  repeat' first
    | (with_reducible first
        | intro _ | assumption | apply ite_within | apply forEach_within | apply applyTrim_within
        | apply forEach_within | apply log_within | apply restartRefresh_within | apply wakeLogic_within
        | apply writeDue_within)
    | (with_reducible eapply Ch.tb c_tb; eapply Ch.rsv c_rsv; first
        | assumption | apply applyTrim_within | apply forEach_within | apply log_within | apply restartRefresh_within
        | apply wakeLogic_within | apply writeDue_within | apply ite_within | apply forEach_within)
    | (with_reducible eapply Ch.tb c_tb; first
        | assumption | apply applyTrim_within | apply forEach_within | apply log_within | apply restartRefresh_within
        | apply wakeLogic_within | apply writeDue_within | apply ite_within | apply forEach_within)
    | (with_reducible eapply Ch.rsv c_rsv; first
        | assumption | apply applyTrim_within | apply forEach_within | apply log_within | apply restartRefresh_within
        | apply wakeLogic_within | apply writeDue_within | apply ite_within | apply forEach_within)
    | split
    | dsimp only

theorem completeBoot_within (s : State) (hq : Ch P q9 s) (cE : EvOk P) (c_tb : P .tb = true) (c_rsv : P .rsv = true)
    (c_nv : P .nv = true) (c_units : P .units = true) (c_xing : P .xing = true) (c_link : P .link = true)
    (c_har : P .har = true) (c_thr : P .thr = true) (c_eng : P .eng = true) (c_prog : P .prog = true)
    (c_frm : P .frm = true) (c_lmap : P .lmap = true) (c_spw : P .spw = true) (c_gt : P .gt = true)
    (c_conv : P .conv = true) (c_prb : P .prb = true) (c_ps : P .ps = true) (c_rcd : P .rcd = true)
    (c_host : P .host = true) (c_pwr : P .pwr = true) :
    Ch P q9 (completeBoot s) := by
  have c_irq := cE.irq
  have c_far := cE.far
  unfold completeBoot
  repeat' first
    | (with_reducible first | intro _ | assumption | apply ite_within | apply muster_within | apply wakeLogic_within)
    | (with_reducible eapply Ch.tb c_tb; eapply Ch.rsv c_rsv; eapply Ch.far c_far; eapply Ch.pwr c_pwr; first | assumption | apply muster_within | apply wakeLogic_within | apply ite_within)
    | split
    | dsimp only

theorem resetHalt_within (s : State) (hq : Ch P q9 s) (c_far : P .far = true) :
    Ch P q9 (resetHalt s) := by
  unfold resetHalt
  repeat' first
    | (with_reducible first | intro _ | assumption | apply ite_within | apply stopWdt_within)
    | (with_reducible eapply Ch.far c_far; first | assumption | apply stopWdt_within | apply ite_within)
    | split
    | dsimp only

theorem finishBoot_within (s : State) (hq : Ch P q9 s) (cE : EvOk P) (c_tb : P .tb = true) (c_rsv : P .rsv = true)
    (c_nv : P .nv = true) (c_units : P .units = true) (c_xing : P .xing = true) (c_link : P .link = true)
    (c_har : P .har = true) (c_thr : P .thr = true) (c_eng : P .eng = true) (c_prog : P .prog = true)
    (c_frm : P .frm = true) (c_lmap : P .lmap = true) (c_spw : P .spw = true) (c_gt : P .gt = true)
    (c_conv : P .conv = true) (c_prb : P .prb = true) (c_ps : P .ps = true) (c_rcd : P .rcd = true)
    (c_host : P .host = true) (c_pwr : P .pwr = true) :
    Ch P q9 (finishBoot s) := by
  have c_far := cE.far
  unfold finishBoot
  repeat' first
    | (with_reducible first
        | intro _ | assumption | apply ite_within | apply completeBoot_within | apply resetHalt_within)
    | (with_reducible eapply Ch.pwr c_pwr; first | assumption | apply completeBoot_within | apply resetHalt_within | apply ite_within)
    | split
    | dsimp only

theorem bootStep2_within (tide : TideCnt) (xtalOk : Bool) (s : State) (hq : Ch P q9 s) (c_tb : P .tb = true)
    (c_rsv : P .rsv = true) (c_ps : P .ps = true) (c_irq : P .irq = true) (c_far : P .far = true)
    (c_pwr : P .pwr = true) :
    Ch P q9 (bootStep2 tide xtalOk s) := by
  unfold bootStep2
  repeat' first
    | (with_reducible first | intro _ | assumption | apply ite_within | apply checkAlarm_within | apply tideTo_within)
    | (with_reducible eapply Ch.tb c_tb; eapply Ch.rsv c_rsv; eapply Ch.pwr c_pwr; first | assumption | apply checkAlarm_within | apply tideTo_within | apply ite_within)
    | split
    | dsimp only

theorem bootStep5_within (s : State) (hq : Ch P q9 s) (c_fsh : P .fsh = true) (c_cal : P .cal = true)
    (c_units : P .units = true) (c_conv : P .conv = true) (c_far : P .far = true) :
    Ch P q9 (bootStep5 s) := by
  unfold bootStep5
  repeat' first
    | (with_reducible first | intro _ | assumption | apply bootTapsAll_within)
    | (with_reducible eapply Ch.fsh c_fsh; eapply Ch.cal c_cal; eapply Ch.conv c_conv; first | assumption | apply bootTapsAll_within)
    | split
    | dsimp only

theorem bootRoot_within (s : State) (hq : Ch P q9 s) (c_tb : P .tb = true) (c_nv : P .nv = true)
    (c_prb : P .prb = true) (c_ps : P .ps = true) (c_rcd : P .rcd = true) (c_irq : P .irq = true)
    (c_hlt : P .hlt = true) :
    Ch P q9 (bootRoot s) := by
  unfold bootRoot
  repeat' first
    | (with_reducible first | intro _ | assumption | apply ite_within | apply beginSpan_within | apply log_within)
    | (with_reducible eapply Ch.tb c_tb; first | assumption | apply beginSpan_within | apply log_within | apply ite_within)
    | split
    | dsimp only

theorem bootStep6_within (calBad : List (Nat × Nat)) (s : State) (hq : Ch P q9 s) (cE : EvOk P) (c_tb : P .tb = true)
    (c_rsv : P .rsv = true) (c_nv : P .nv = true) (c_units : P .units = true) (c_arm : P .arm = true)
    (c_link : P .link = true) (c_har : P .har = true) (c_eng : P .eng = true) (c_spw : P .spw = true)
    (c_gt : P .gt = true) (c_conv : P .conv = true) (c_prb : P .prb = true) (c_ps : P .ps = true)
    (c_rcd : P .rcd = true) (c_host : P .host = true) (c_dbg : P .dbg = true) :
    Ch P q9 (bootStep6 calBad s) := by
  have c_bas := cE.bas
  have c_ost := cE.ost
  have c_irq := cE.irq
  have c_far := cE.far
  have c_hlt := cE.hlt
  unfold bootStep6
  repeat' first
    | (with_reducible first
        | intro _ | assumption | apply ite_within | apply applySched_within | apply applyTrim_within
        | apply bootCauses_within | apply bootRoot_within | apply bootTime_within | apply calReport_within
        | apply nvReport_within | apply openBasin_within | apply restoreMarks_within | apply routeIrq_within)
    | (with_reducible eapply Ch.far c_far; first
        | assumption | apply applySched_within | apply applyTrim_within | apply bootCauses_within
        | apply bootRoot_within | apply bootTime_within | apply calReport_within | apply nvReport_within
        | apply openBasin_within | apply restoreMarks_within | apply routeIrq_within | apply ite_within)
    | split
    | dsimp only

theorem bootStep7_within (s : State) (hq : Ch P q9 s) (cE : EvOk P) (c_tb : P .tb = true) (c_rsv : P .rsv = true)
    (c_nv : P .nv = true) (c_units : P .units = true) (c_xing : P .xing = true) (c_link : P .link = true)
    (c_har : P .har = true) (c_thr : P .thr = true) (c_eng : P .eng = true) (c_prog : P .prog = true)
    (c_frm : P .frm = true) (c_lmap : P .lmap = true) (c_spw : P .spw = true) (c_gt : P .gt = true)
    (c_conv : P .conv = true) (c_prb : P .prb = true) (c_ps : P .ps = true) (c_rcd : P .rcd = true)
    (c_host : P .host = true) (c_pwr : P .pwr = true) :
    Ch P q9 (bootStep7 s) := by
  have c_far := cE.far
  unfold bootStep7
  repeat' first
    | (with_reducible first
        | intro _ | assumption | apply ite_within | apply finishBoot_within | apply flashPatch_within)
    | (with_reducible eapply Ch.pwr c_pwr; first | assumption | apply finishBoot_within | apply flashPatch_within | apply ite_within)
    | split
    | dsimp only

theorem boot_within (tide : TideCnt) (xtalOk : Bool) (s : State) (hq : Ch P q9 s) (cE : EvOk P) (c_tb : P .tb = true)
    (c_rsv : P .rsv = true) (c_nv : P .nv = true) (c_fsh : P .fsh = true) (c_cal : P .cal = true)
    (c_units : P .units = true) (c_xing : P .xing = true) (c_arm : P .arm = true) (c_link : P .link = true)
    (c_har : P .har = true) (c_thr : P .thr = true) (c_eng : P .eng = true) (c_prog : P .prog = true)
    (c_frm : P .frm = true) (c_lmap : P .lmap = true) (c_spw : P .spw = true) (c_gt : P .gt = true)
    (c_conv : P .conv = true) (c_prb : P .prb = true) (c_ps : P .ps = true) (c_rcd : P .rcd = true)
    (c_host : P .host = true) (c_pwr : P .pwr = true) (c_dbg : P .dbg = true) :
    Ch P q9 (boot tide xtalOk s) := by
  have c_irq := cE.irq
  have c_far := cE.far
  unfold boot
  repeat' first
    | (with_reducible first
        | intro _ | assumption | apply bootStep2_within | apply bootStep5_within | apply bootStep6_within
        | apply bootStep7_within)
    | split
    | dsimp only

theorem replaceThreads_within (p : ProgId) (s : State) (hq : Ch P q9 s) (cE : EvOk P) (c_thr : P .thr = true)
    (c_eng : P .eng = true) (c_frm : P .frm = true) (c_spw : P .spw = true) :
    Ch P q9 (replaceThreads p s) := by
  have c_far := cE.far
  unfold replaceThreads
  repeat' first
    | (with_reducible first
        | intro _ | assumption | apply ite_within | apply forEach_within | apply forEach_within
        | (apply placeThread_within; case eq0 => assumption) | apply startThread_within)
    | split
    | dsimp only

theorem abortTaken_within (s : State) (hq : Ch P q9 s) (c_host : P .host = true) :
    Ch P q9 (abortTaken s) := by
  unfold abortTaken
  repeat' first
    | (with_reducible first
        | intro _ | assumption | apply forEach_within | apply forEach_within | apply writeReply_within)
    | split
    | dsimp only

theorem completeRestart_within (s : State) (hq : Ch P q9 s) (cE : EvOk P) (c_tb : P .tb = true)
    (c_rsv : P .rsv = true) (c_nv : P .nv = true) (c_units : P .units = true) (c_xing : P .xing = true)
    (c_link : P .link = true) (c_har : P .har = true) (c_thr : P .thr = true) (c_eng : P .eng = true)
    (c_prog : P .prog = true) (c_frm : P .frm = true) (c_lmap : P .lmap = true) (c_spw : P .spw = true)
    (c_gt : P .gt = true) (c_conv : P .conv = true) (c_prb : P .prb = true) (c_ps : P .ps = true)
    (c_rcd : P .rcd = true) (c_host : P .host = true) (c_pwr : P .pwr = true) :
    Ch P q9 (completeRestart s) := by
  have c_irq := cE.irq
  have c_far := cE.far
  have c_hlt := cE.hlt
  unfold completeRestart
  repeat' first
    | (with_reducible first
        | intro _ | assumption | apply forEach_within | apply abortTaken_within | apply finishWake_within
        | apply forEach_within | apply motionRestart_within | apply muster_within | apply replaceThreads_within
        | apply storeMeans_within)
    | (with_reducible eapply Ch.pwr c_pwr; eapply Ch.rcd c_rcd; eapply Ch.far c_far; first
        | assumption | apply abortTaken_within | apply finishWake_within | apply forEach_within
        | apply motionRestart_within | apply muster_within | apply replaceThreads_within | apply storeMeans_within
        | apply forEach_within)
    | (with_reducible eapply Ch.pwr c_pwr; eapply Ch.rcd c_rcd; first
        | assumption | apply abortTaken_within | apply finishWake_within | apply forEach_within
        | apply motionRestart_within | apply muster_within | apply replaceThreads_within | apply storeMeans_within
        | apply forEach_within)
    | (with_reducible eapply Ch.pwr c_pwr; eapply Ch.far c_far; first
        | assumption | apply abortTaken_within | apply finishWake_within | apply forEach_within
        | apply motionRestart_within | apply muster_within | apply replaceThreads_within | apply storeMeans_within
        | apply forEach_within)
    | (with_reducible eapply Ch.rcd c_rcd; eapply Ch.far c_far; first
        | assumption | apply abortTaken_within | apply finishWake_within | apply forEach_within
        | apply motionRestart_within | apply muster_within | apply replaceThreads_within | apply storeMeans_within
        | apply forEach_within)
    | (with_reducible eapply Ch.pwr c_pwr; first
        | assumption | apply abortTaken_within | apply finishWake_within | apply forEach_within
        | apply motionRestart_within | apply muster_within | apply replaceThreads_within | apply storeMeans_within
        | apply forEach_within)
    | (with_reducible eapply Ch.rcd c_rcd; first
        | assumption | apply abortTaken_within | apply finishWake_within | apply forEach_within
        | apply motionRestart_within | apply muster_within | apply replaceThreads_within | apply storeMeans_within
        | apply forEach_within)
    | (with_reducible eapply Ch.far c_far; first
        | assumption | apply abortTaken_within | apply finishWake_within | apply forEach_within
        | apply motionRestart_within | apply muster_within | apply replaceThreads_within | apply storeMeans_within
        | apply forEach_within)
    | split
    | dsimp only

theorem restart_within (s : State) (hq : Ch P q9 s) (cE : EvOk P) (c_tb : P .tb = true) (c_rsv : P .rsv = true)
    (c_nv : P .nv = true) (c_units : P .units = true) (c_xing : P .xing = true) (c_link : P .link = true)
    (c_har : P .har = true) (c_thr : P .thr = true) (c_eng : P .eng = true) (c_prog : P .prog = true)
    (c_frm : P .frm = true) (c_lmap : P .lmap = true) (c_spw : P .spw = true) (c_gt : P .gt = true)
    (c_conv : P .conv = true) (c_prb : P .prb = true) (c_ps : P .ps = true) (c_rcd : P .rcd = true)
    (c_host : P .host = true) (c_pwr : P .pwr = true) (c_dbg : P .dbg = true) :
    Ch P q9 (restart s) := by
  have c_far := cE.far
  unfold restart
  repeat' first
    | (with_reducible first
        | intro _ | assumption | apply ite_within | apply completeRestart_within | apply countLate_within
        | apply resetHalt_within | apply restartRefresh_within)
    | (with_reducible eapply Ch.pwr c_pwr; eapply Ch.dbg c_dbg; first
        | assumption | apply completeRestart_within | apply countLate_within | apply resetHalt_within
        | apply restartRefresh_within | apply ite_within)
    | (with_reducible eapply Ch.pwr c_pwr; first
        | assumption | apply completeRestart_within | apply countLate_within | apply resetHalt_within
        | apply restartRefresh_within | apply ite_within)
    | (with_reducible eapply Ch.dbg c_dbg; first
        | assumption | apply completeRestart_within | apply countLate_within | apply resetHalt_within
        | apply restartRefresh_within | apply ite_within)
    | split
    | dsimp only

theorem rootEdge_within (s : State) (hq : Ch P q9 s) (c_tb : P .tb = true) :
    Ch P q9 (rootEdge s) := by
  unfold rootEdge
  repeat' first
    | (with_reducible first | intro _ | assumption | apply ite_within)
    | (with_reducible eapply Ch.tb c_tb; first | assumption | apply ite_within)
    | split
    | dsimp only

theorem execSpreadTakesEffect_within (t : Instant) (s : State) {s9 : State} (hq : Ch P q9 s) (c_tb : P .tb = true)
    (eq0 : execSpreadTakesEffect t s = .next s9) :
    Ch P q9 s9 := by
  unfold execSpreadTakesEffect at eq0
  try dsimp only at eq0
  repeat' first | (apply event_within; case eq0 => assumption) | split at eq0 | (injection eq0 with eq0; subst eq0) | cases eq0
  all_goals repeat' first
    | dsimp only [GRes.all_ok, GRes.all_jump, GRes.all_trap, GRes.all_stop, Ans.all_reply, Ans.all_later, Ans.all_waits]
    | (with_reducible first | intro _ | assumption | exact True.intro)
    | (with_reducible eapply Ch.tb c_tb; assumption)
    | split
    | dsimp only

theorem coarseApply_within (u : UnitId) (e : UnitEv) (s : State) (hq : Ch P q9 s) (cE : EvOk P)
    (c_units : P .units = true) (c_xing : P .xing = true) (c_link : P .link = true) (c_har : P .har = true) :
    Ch P q9 (coarseApply u e s) := by
  unfold coarseApply
  repeat' first
    | (with_reducible first
        | intro _ | assumption | apply State_modUnit_within | apply boundary_within | apply matchAt_within
        | apply topPoint_within)
    | split
    | dsimp only

theorem coarseSample_within (u : UnitId) (s : State) (hq : Ch P q9 s) (cE : EvOk P) (c_units : P .units = true)
    (c_xing : P .xing = true) :
    Ch P q9 (coarseSample u s) := by
  unfold coarseSample
  repeat' first
    | (with_reducible first
        | intro _ | assumption | apply ite_within | apply State_modUnit_within | apply acceptEdge_within)
    | split
    | dsimp only

theorem coarseRun_within (u : UnitId) (n : Nat) (s : State) (hq : Ch P q9 s) (cE : EvOk P) (c_units : P .units = true)
    (c_xing : P .xing = true) (c_link : P .link = true) (c_har : P .har = true) :
    Ch P q9 (coarseRun u n s) := by
  induction n generalizing s with
  | zero => exact hq
  | succ n ih =>
    unfold coarseRun
    split
    · exact hq
    · apply ih; apply coarseApply_within <;> assumption

theorem coarseUnit_within (u : UnitId) (s : State) (hq : Ch P q9 s) (cE : EvOk P) (c_units : P .units = true)
    (c_xing : P .xing = true) (c_link : P .link = true) (c_har : P .har = true) :
    Ch P q9 (coarseUnit u s) := by
  unfold coarseUnit
  repeat' first
    | (with_reducible first
        | intro _ | assumption | apply ite_within | apply State_modUnit_within | apply coarseRun_within
        | apply coarseSample_within | apply settleOutput_within)
    | split
    | dsimp only

theorem coarseEdges_within (k : Nat) (s : State) (hq : Ch P q9 s) (cE : EvOk P) (c_tb : P .tb = true)
    (c_rsv : P .rsv = true) (c_units : P .units = true) (c_xing : P .xing = true) (c_link : P .link = true)
    (c_har : P .har = true) (c_ps : P .ps = true) (c_pwr : P .pwr = true) :
    Ch P q9 (coarseEdges k s) := by
  have c_irq := cE.irq
  have c_far := cE.far
  unfold coarseEdges
  repeat' first
    | (with_reducible first
        | intro _ | assumption | apply forEach_within | apply checkAlarm_within | apply coarseUnit_within
        | apply forEach_within)
    | (with_reducible eapply Ch.tb c_tb; eapply Ch.rsv c_rsv; first
        | assumption | apply checkAlarm_within | apply coarseUnit_within | apply forEach_within | apply forEach_within)
    | split
    | dsimp only

theorem tidePass_within (k : TideCnt) (s : State) (hq : Ch P q9 s) (cE : EvOk P) (c_tb : P .tb = true)
    (c_rsv : P .rsv = true) (c_units : P .units = true) (c_xing : P .xing = true) (c_link : P .link = true)
    (c_har : P .har = true) (c_ps : P .ps = true) (c_pwr : P .pwr = true) :
    Ch P q9 (tidePass k s) := by
  unfold tidePass
  repeat' first
    | (with_reducible first | intro _ | assumption | apply ite_within | apply coarseEdges_within | apply tideTo_within)
    | split
    | dsimp only

theorem execTideAlarm_within (t : Instant) (tide : TideCnt) (s : State) {s9 : State} (hq : Ch P q9 s) (cE : EvOk P)
    (c_tb : P .tb = true) (c_rsv : P .rsv = true) (c_units : P .units = true) (c_xing : P .xing = true)
    (c_link : P .link = true) (c_har : P .har = true) (c_ps : P .ps = true) (c_pwr : P .pwr = true)
    (eq0 : execTideAlarm t tide s = .next s9) :
    Ch P q9 s9 := by
  have c_irq := cE.irq
  have c_far := cE.far
  unfold execTideAlarm at eq0
  have e1 := Host.Outcome.next.inj eq0
  rw [← e1]
  repeat' first
    | dsimp only [GRes.all_ok, GRes.all_jump, GRes.all_trap, GRes.all_stop, Ans.all_reply, Ans.all_later, Ans.all_waits]
    | (with_reducible first
        | intro _ | assumption | exact True.intro | apply advanceTo_within | apply checkAlarm_within
        | apply tidePass_within)
    | split
    | dsimp only

theorem writeTalarm_within (hi : Bool) (v : W32) (s : State) (hq : Ch P q9 s) (c_rsv : P .rsv = true)
    (c_ps : P .ps = true) (c_irq : P .irq = true) (c_far : P .far = true) (c_pwr : P .pwr = true) :
    Ch P q9 (writeTalarm hi v s) := by
  unfold writeTalarm
  repeat' first
    | (with_reducible first | intro _ | assumption | apply ite_within | apply checkAlarm_within)
    | (with_reducible eapply Ch.rsv c_rsv; first | assumption | apply checkAlarm_within | apply ite_within)
    | split
    | dsimp only

theorem execTalarmWrite_within (hi : Bool) (v : W32) (s : State) {s9 : State} (hq : Ch P q9 s) (c_rsv : P .rsv = true)
    (c_ps : P .ps = true) (c_irq : P .irq = true) (c_far : P .far = true) (c_pwr : P .pwr = true)
    (eq0 : execTalarmWrite hi v s = .next s9) :
    Ch P q9 s9 := by
  unfold execTalarmWrite at eq0
  have e1 := Host.Outcome.next.inj eq0
  rw [← e1]
  repeat' first
    | dsimp only [GRes.all_ok, GRes.all_jump, GRes.all_trap, GRes.all_stop, Ans.all_reply, Ans.all_later, Ans.all_waits]
    | (with_reducible first | intro _ | assumption | exact True.intro | apply writeTalarm_within)
    | split
    | dsimp only

theorem trcWindow_within (s : State) (hq : Ch P q9 s) (cE : EvOk P) (c_tb : P .tb = true) (c_rsv : P .rsv = true)
    (c_units : P .units = true) (c_xing : P .xing = true) (c_link : P .link = true) (c_har : P .har = true)
    (c_ps : P .ps = true) (c_pwr : P .pwr = true) :
    Ch P q9 (trcWindow s) := by
  have c_irq := cE.irq
  have c_far := cE.far
  unfold trcWindow
  repeat' first
    | (with_reducible first
        | intro _ | assumption | apply ite_within | apply checkAlarm_within | apply coarseEdges_within)
    | (with_reducible eapply Ch.rsv c_rsv; eapply Ch.tb c_tb; first | assumption | apply checkAlarm_within | apply coarseEdges_within | apply ite_within)
    | (with_reducible eapply Ch.rsv c_rsv; first | assumption | apply checkAlarm_within | apply coarseEdges_within | apply ite_within)
    | (with_reducible eapply Ch.tb c_tb; first | assumption | apply checkAlarm_within | apply coarseEdges_within | apply ite_within)
    | split
    | dsimp only

theorem crystalStop_within (s : State) (hq : Ch P q9 s) (cE : EvOk P) (c_tb : P .tb = true) (c_rsv : P .rsv = true)
    (c_nv : P .nv = true) (c_units : P .units = true) (c_xing : P .xing = true) (c_link : P .link = true)
    (c_har : P .har = true) (c_prb : P .prb = true) (c_ps : P .ps = true) (c_rcd : P .rcd = true)
    (c_pwr : P .pwr = true) :
    Ch P q9 (crystalStop s) := by
  have c_irq := cE.irq
  have c_hlt := cE.hlt
  unfold crystalStop
  repeat' first
    | (with_reducible first
        | intro _ | assumption | apply ite_within | apply closeSpan_within | apply pulse_within
        | apply timeSource_within | apply trcWindow_within)
    | (with_reducible eapply Ch.tb c_tb; eapply Ch.rsv c_rsv; first
        | assumption | apply closeSpan_within | apply pulse_within | apply timeSource_within | apply trcWindow_within
        | apply ite_within)
    | (with_reducible eapply Ch.tb c_tb; first
        | assumption | apply closeSpan_within | apply pulse_within | apply timeSource_within | apply trcWindow_within
        | apply ite_within)
    | (with_reducible eapply Ch.rsv c_rsv; first
        | assumption | apply closeSpan_within | apply pulse_within | apply timeSource_within | apply trcWindow_within
        | apply ite_within)
    | split
    | dsimp only

theorem execTideCrystalStop_within (t : Instant) (tide : TideCnt) (s : State) {s9 : State} (hq : Ch P q9 s)
    (cE : EvOk P) (c_tb : P .tb = true) (c_rsv : P .rsv = true) (c_nv : P .nv = true) (c_units : P .units = true)
    (c_xing : P .xing = true) (c_link : P .link = true) (c_har : P .har = true) (c_prb : P .prb = true)
    (c_ps : P .ps = true) (c_rcd : P .rcd = true) (c_pwr : P .pwr = true)
    (eq0 : execTideCrystalStop t tide s = .next s9) :
    Ch P q9 s9 := by
  unfold execTideCrystalStop at eq0
  have e1 := Host.Outcome.next.inj eq0
  rw [← e1]
  repeat' first
    | dsimp only [GRes.all_ok, GRes.all_jump, GRes.all_trap, GRes.all_stop, Ans.all_reply, Ans.all_later, Ans.all_waits]
    | (with_reducible first
        | intro _ | assumption | exact True.intro | apply advanceTo_within | apply crystalStop_within
        | apply tidePass_within)
    | split
    | dsimp only

theorem crystalMeasured_within (e : Int) (s : State) (hq : Ch P q9 s) (cE : EvOk P) (c_tb : P .tb = true)
    (c_rsv : P .rsv = true) (c_nv : P .nv = true) (c_units : P .units = true) (c_xing : P .xing = true)
    (c_link : P .link = true) (c_har : P .har = true) (c_prb : P .prb = true) (c_ps : P .ps = true)
    (c_rcd : P .rcd = true) (c_pwr : P .pwr = true) :
    Ch P q9 (crystalMeasured e s) := by
  unfold crystalMeasured
  repeat' first
    | (with_reducible first | intro _ | assumption | apply ite_within | apply crystalStop_within)
    | (with_reducible eapply Ch.tb c_tb; first | assumption | apply crystalStop_within | apply ite_within)
    | split
    | dsimp only

theorem execTideErrorMeasurement_within (t : Instant) (trc : Bool) (dtTicks : W64) (s : State) {s9 : State}
    (hq : Ch P q9 s) (cE : EvOk P) (c_tb : P .tb = true) (c_rsv : P .rsv = true) (c_nv : P .nv = true)
    (c_units : P .units = true) (c_xing : P .xing = true) (c_link : P .link = true) (c_har : P .har = true)
    (c_prb : P .prb = true) (c_ps : P .ps = true) (c_rcd : P .rcd = true) (c_pwr : P .pwr = true)
    (eq0 : execTideErrorMeasurement t trc dtTicks s = .next s9) :
    Ch P q9 s9 := by
  unfold execTideErrorMeasurement at eq0
  try dsimp only at eq0
  repeat' first | (apply event_within; case eq0 => assumption) | split at eq0 | (injection eq0 with eq0; subst eq0) | cases eq0
  all_goals repeat' first
    | dsimp only [GRes.all_ok, GRes.all_jump, GRes.all_trap, GRes.all_stop, Ans.all_reply, Ans.all_later, Ans.all_waits]
    | (with_reducible first
        | intro _ | assumption | exact True.intro | apply ite_within | apply crystalMeasured_within
        | apply storeMeans_within)
    | (with_reducible eapply Ch.tb c_tb; first | assumption | apply crystalMeasured_within | apply storeMeans_within | apply ite_within)
    | split
    | dsimp only

theorem execTidePairRefresh_within (t : Instant) (tide : TideCnt) (s : State) {s9 : State} (hq : Ch P q9 s)
    (cE : EvOk P) (c_tb : P .tb = true) (c_rsv : P .rsv = true) (c_units : P .units = true) (c_xing : P .xing = true)
    (c_link : P .link = true) (c_har : P .har = true) (c_ps : P .ps = true) (c_rcd : P .rcd = true)
    (c_pwr : P .pwr = true) (eq0 : execTidePairRefresh t tide s = .next s9) :
    Ch P q9 s9 := by
  unfold execTidePairRefresh at eq0
  try dsimp only at eq0
  repeat' first | split at eq0 | (injection eq0 with eq0; subst eq0) | cases eq0
  all_goals repeat' first
    | dsimp only [GRes.all_ok, GRes.all_jump, GRes.all_trap, GRes.all_stop, Ans.all_reply, Ans.all_later, Ans.all_waits]
    | (with_reducible first
        | intro _ | assumption | exact True.intro | apply ite_within | apply advanceTo_within | apply latchPair_within
        | apply tidePass_within)
    | (with_reducible eapply Ch.tb c_tb; first
        | assumption | apply advanceTo_within | apply latchPair_within | apply tidePass_within | apply ite_within)
    | split
    | dsimp only

theorem execTideReturnToCrystal_within (t : Instant) (tide : TideCnt) (s : State) {s9 : State} (hq : Ch P q9 s)
    (cE : EvOk P) (c_tb : P .tb = true) (c_rsv : P .rsv = true) (c_nv : P .nv = true) (c_units : P .units = true)
    (c_xing : P .xing = true) (c_link : P .link = true) (c_har : P .har = true) (c_prb : P .prb = true)
    (c_ps : P .ps = true) (c_rcd : P .rcd = true) (c_pwr : P .pwr = true)
    (eq0 : execTideReturnToCrystal t tide s = .next s9) :
    Ch P q9 s9 := by
  have c_irq := cE.irq
  have c_hlt := cE.hlt
  unfold execTideReturnToCrystal at eq0
  try dsimp only at eq0
  repeat' first | (apply event_within; case eq0 => assumption) | split at eq0 | (injection eq0 with eq0; subst eq0) | cases eq0
  all_goals repeat' first
    | dsimp only [GRes.all_ok, GRes.all_jump, GRes.all_trap, GRes.all_stop, Ans.all_reply, Ans.all_later, Ans.all_waits]
    | (with_reducible first
        | intro _ | assumption | exact True.intro | apply ite_within | apply closeSpan_within | apply pulse_within
        | apply tidePass_within | apply timeSource_within)
    | (with_reducible eapply Ch.rsv c_rsv; first
        | assumption | apply closeSpan_within | apply pulse_within | apply tidePass_within | apply timeSource_within
        | apply ite_within)
    | split
    | dsimp only

theorem execTrcFail_within (t : Instant) (s : State) {s9 : State} (hq : Ch P q9 s) (c_tb : P .tb = true)
    (c_rsv : P .rsv = true) (eq0 : execTrcFail t s = .next s9) :
    Ch P q9 s9 := by
  unfold execTrcFail at eq0
  try dsimp only at eq0
  repeat' first | split at eq0 | (injection eq0 with eq0; subst eq0) | cases eq0
  all_goals repeat' first
    | dsimp only [GRes.all_ok, GRes.all_jump, GRes.all_trap, GRes.all_stop, Ans.all_reply, Ans.all_later, Ans.all_waits]
    | (with_reducible first | intro _ | assumption | exact True.intro | apply advanceTo_within)
    | (with_reducible eapply Ch.rsv c_rsv; first | assumption | apply advanceTo_within)
    | split
    | dsimp only

theorem startCoarse_within (s : State) (hq : Ch P q9 s) (c_tb : P .tb = true) (c_pwr : P .pwr = true) :
    Ch P q9 (startCoarse s) := by
  unfold startCoarse
  repeat' first
    | (with_reducible first | intro _ | assumption | apply ite_within | apply beginSpan_within)
    | (with_reducible eapply Ch.tb c_tb; eapply Ch.pwr c_pwr; first | assumption | apply beginSpan_within | apply ite_within)
    | (with_reducible eapply Ch.tb c_tb; first | assumption | apply beginSpan_within | apply ite_within)
    | split
    | dsimp only

theorem raiseClk_within (s : State) (hq : Ch P q9 s) (cR : RsOk P) :
    Ch P q9 (raiseClk s) := by
  unfold raiseClk
  repeat' first
    | (with_reducible first | intro _ | assumption | apply ite_within | apply assertReset_within)
    | split
    | dsimp only

theorem xtalLost_within (s : State) (hq : Ch P q9 s) (cR : RsOk P) :
    Ch P q9 (xtalLost s) := by
  have c_tb := cR.tb
  have c_pwr := cR.pwr
  unfold xtalLost
  repeat' first
    | (with_reducible first | intro _ | assumption | apply ite_within | apply raiseClk_within | apply startCoarse_within)
    | (with_reducible eapply Ch.tb c_tb; eapply Ch.pwr c_pwr; first | assumption | apply raiseClk_within | apply startCoarse_within | apply ite_within)
    | (with_reducible eapply Ch.tb c_tb; first | assumption | apply raiseClk_within | apply startCoarse_within | apply ite_within)
    | (with_reducible eapply Ch.pwr c_pwr; first | assumption | apply raiseClk_within | apply startCoarse_within | apply ite_within)
    | split
    | dsimp only

theorem execXtalFail_within (t : Instant) (s : State) {s9 : State} (hq : Ch P q9 s) (cR : RsOk P)
    (eq0 : execXtalFail t s = .next s9) :
    Ch P q9 s9 := by
  have c_tb := cR.tb
  unfold execXtalFail at eq0
  try dsimp only at eq0
  repeat' first | (apply event_within; case eq0 => assumption) | split at eq0 | (injection eq0 with eq0; subst eq0) | cases eq0
  all_goals repeat' first
    | dsimp only [GRes.all_ok, GRes.all_jump, GRes.all_trap, GRes.all_stop, Ans.all_reply, Ans.all_later, Ans.all_waits]
    | (with_reducible first | intro _ | assumption | exact True.intro | apply xtalLost_within)
    | split
    | dsimp only

theorem execPllRelocked_within (t : Instant) (tide : TideCnt) (s : State) {s9 : State} (hq : Ch P q9 s) (cE : EvOk P)
    (c_tb : P .tb = true) (c_rsv : P .rsv = true) (c_nv : P .nv = true) (c_units : P .units = true)
    (c_xing : P .xing = true) (c_link : P .link = true) (c_har : P .har = true) (c_prb : P .prb = true)
    (c_ps : P .ps = true) (c_rcd : P .rcd = true) (c_pwr : P .pwr = true)
    (eq0 : execPllRelocked t tide s = .next s9) :
    Ch P q9 s9 := by
  have c_irq := cE.irq
  have c_hlt := cE.hlt
  unfold execPllRelocked at eq0
  have e1 := Host.Outcome.next.inj eq0
  rw [← e1]
  repeat' first
    | dsimp only [GRes.all_ok, GRes.all_jump, GRes.all_trap, GRes.all_stop, Ans.all_reply, Ans.all_later, Ans.all_waits]
    | (with_reducible first
        | intro _ | assumption | exact True.intro | apply ite_within | apply advanceTo_within | apply closeSpan_within
        | apply tidePass_within | apply timeSource_within)
    | (with_reducible eapply Ch.tb c_tb; first
        | assumption | apply advanceTo_within | apply closeSpan_within | apply tidePass_within
        | apply timeSource_within | apply ite_within)
    | split
    | dsimp only

theorem execDisciplineWindow_within (t : Instant) (m : W32) (s : State) {s9 : State} (hq : Ch P q9 s)
    (c_tb : P .tb = true) (eq0 : execDisciplineWindow t m s = .next s9) :
    Ch P q9 s9 := by
  unfold execDisciplineWindow at eq0
  have e1 := Host.Outcome.next.inj eq0
  rw [← e1]
  repeat' first
    | dsimp only [GRes.all_ok, GRes.all_jump, GRes.all_trap, GRes.all_stop, Ans.all_reply, Ans.all_later, Ans.all_waits]
    | (with_reducible first | intro _ | assumption | exact True.intro | apply ite_within | apply advanceTo_within)
    | (with_reducible eapply Ch.tb c_tb; first | assumption | apply advanceTo_within | apply ite_within)
    | split
    | dsimp only

theorem execXtalRestore_within (t : Instant) (s : State) {s9 : State} (hq : Ch P q9 s) (c_tb : P .tb = true)
    (c_nv : P .nv = true) (c_prb : P .prb = true) (c_ps : P .ps = true) (c_rcd : P .rcd = true)
    (c_irq : P .irq = true) (c_hlt : P .hlt = true) (eq0 : execXtalRestore t s = .next s9) :
    Ch P q9 s9 := by
  unfold execXtalRestore at eq0
  try dsimp only at eq0
  repeat' first | (apply event_within; case eq0 => assumption) | split at eq0 | (injection eq0 with eq0; subst eq0) | cases eq0
  all_goals repeat' first
    | dsimp only [GRes.all_ok, GRes.all_jump, GRes.all_trap, GRes.all_stop, Ans.all_reply, Ans.all_later, Ans.all_waits]
    | (with_reducible first | intro _ | assumption | exact True.intro | apply closeSpan_within | apply timeSource_within)
    | (with_reducible eapply Ch.tb c_tb; first | assumption | apply closeSpan_within | apply timeSource_within)
    | split
    | dsimp only

theorem execPllUnlock_within (t : Instant) (s : State) {s9 : State} (hq : Ch P q9 s) (cR : RsOk P)
    (eq0 : execPllUnlock t s = .next s9) :
    Ch P q9 s9 := by
  have c_tb := cR.tb
  have c_pwr := cR.pwr
  unfold execPllUnlock at eq0
  try dsimp only at eq0
  repeat' first | (apply event_within; case eq0 => assumption) | split at eq0 | (injection eq0 with eq0; subst eq0) | cases eq0
  all_goals repeat' first
    | dsimp only [GRes.all_ok, GRes.all_jump, GRes.all_trap, GRes.all_stop, Ans.all_reply, Ans.all_later, Ans.all_waits]
    | (with_reducible first
        | intro _ | assumption | exact True.intro | apply ite_within | apply startCoarse_within
        | apply xtalLost_within)
    | (with_reducible eapply Ch.tb c_tb; first | assumption | apply startCoarse_within | apply xtalLost_within | apply ite_within)
    | split
    | dsimp only

theorem execPllUnlockTimeout_within (t : Instant) (s : State) {s9 : State} (hq : Ch P q9 s) (cR : RsOk P)
    (eq0 : execPllUnlockTimeout t s = .next s9) :
    Ch P q9 s9 := by
  have c_tb := cR.tb
  unfold execPllUnlockTimeout at eq0
  try dsimp only at eq0
  repeat' first | (apply event_within; case eq0 => assumption) | split at eq0 | (injection eq0 with eq0; subst eq0) | cases eq0
  all_goals repeat' first
    | dsimp only [GRes.all_ok, GRes.all_jump, GRes.all_trap, GRes.all_stop, Ans.all_reply, Ans.all_later, Ans.all_waits]
    | (with_reducible first | intro _ | assumption | exact True.intro | apply raiseClk_within)
    | split
    | dsimp only

theorem execCoarseTideEdge_within (pads padZ : BitVec 40) (s : State) {s9 : State} (hq : Ch P q9 s) (cE : EvOk P)
    (c_tb : P .tb = true) (c_rsv : P .rsv = true) (c_units : P .units = true) (c_pad : P .pad = true)
    (c_padZ : P .padZ = true) (c_xing : P .xing = true) (c_link : P .link = true) (c_har : P .har = true)
    (c_ps : P .ps = true) (c_pwr : P .pwr = true) (eq0 : execCoarseTideEdge pads padZ s = .next s9) :
    Ch P q9 s9 := by
  have c_irq := cE.irq
  have c_far := cE.far
  unfold execCoarseTideEdge at eq0
  have e1 := Host.Outcome.next.inj eq0
  rw [← e1]
  repeat' first
    | dsimp only [GRes.all_ok, GRes.all_jump, GRes.all_trap, GRes.all_stop, Ans.all_reply, Ans.all_later, Ans.all_waits]
    | (with_reducible first
        | intro _ | assumption | exact True.intro | apply ite_within | apply checkAlarm_within
        | apply coarseEdges_within)
    | (with_reducible eapply Ch.pad c_pad; eapply Ch.padZ c_padZ; eapply Ch.rsv c_rsv; first | assumption | apply checkAlarm_within | apply coarseEdges_within | apply ite_within)
    | (with_reducible eapply Ch.pad c_pad; eapply Ch.padZ c_padZ; first | assumption | apply checkAlarm_within | apply coarseEdges_within | apply ite_within)
    | (with_reducible eapply Ch.rsv c_rsv; first | assumption | apply checkAlarm_within | apply coarseEdges_within | apply ite_within)
    | split
    | dsimp only

theorem execEpochZero_within (s : State) {s9 : State} (hq : Ch P q9 s) (c_tb : P .tb = true) (c_rsv : P .rsv = true)
    (c_nv : P .nv = true) (c_units : P .units = true) (c_arm : P .arm = true) (c_link : P .link = true)
    (c_har : P .har = true) (c_bas : P .bas = true) (c_ost : P .ost = true) (c_spw : P .spw = true)
    (c_gt : P .gt = true) (c_conv : P .conv = true) (c_prb : P .prb = true) (c_ps : P .ps = true)
    (c_rcd : P .rcd = true) (c_host : P .host = true) (c_irq : P .irq = true) (c_far : P .far = true)
    (c_hlt : P .hlt = true) (c_dbg : P .dbg = true) (eq0 : execEpochZero s = .next s9) :
    Ch P q9 s9 := by
  unfold execEpochZero at eq0
  have e1 := Host.Outcome.next.inj eq0
  rw [← e1]
  repeat' first
    | dsimp only [GRes.all_ok, GRes.all_jump, GRes.all_trap, GRes.all_stop, Ans.all_reply, Ans.all_later, Ans.all_waits]
    | (with_reducible first
        | intro _ | assumption | exact True.intro | apply ite_within | apply epochZero_within
        | apply writeReply_within)
    | (with_reducible eapply Ch.rcd c_rcd; first | assumption | apply epochZero_within | apply writeReply_within | apply ite_within)
    | split
    | dsimp only

theorem execSleepEntryBegin_within (csnHigh : Bool) (s : State) {s9 : State} (hq : Ch P q9 s) (c_rsv : P .rsv = true)
    (c_pwr : P .pwr = true) (eq0 : execSleepEntryBegin csnHigh s = .next s9) :
    Ch P q9 s9 := by
  unfold execSleepEntryBegin at eq0
  have e1 := Host.Outcome.next.inj eq0
  rw [← e1]
  repeat' first
    | dsimp only [GRes.all_ok, GRes.all_jump, GRes.all_trap, GRes.all_stop, Ans.all_reply, Ans.all_later, Ans.all_waits]
    | (with_reducible first | intro _ | assumption | exact True.intro | apply ite_within)
    | (with_reducible eapply Ch.rsv c_rsv; eapply Ch.pwr c_pwr; first | assumption | apply ite_within)
    | split
    | dsimp only

theorem armPark_within (s : State) (hq : Ch P q9 s) (c_rsv : P .rsv = true) (c_ps : P .ps = true) :
    Ch P q9 (armPark s) := by
  unfold armPark
  repeat' first
    | (with_reducible first | intro _ | assumption | apply ite_within)
    | (with_reducible eapply Ch.rsv c_rsv; eapply Ch.ps c_ps; first | assumption | apply ite_within)
    | split
    | dsimp only

theorem execSleepTideLatch_within (t : Instant) (tide : TideCnt) (s : State) {s9 : State} (hq : Ch P q9 s)
    (cR : RsOk P) (eq0 : execSleepTideLatch t tide s = .next s9) :
    Ch P q9 s9 := by
  have cE := cR.toEvOk
  have c_tb := cR.tb
  have c_rsv := cR.rsv
  have c_units := cR.units
  have c_xing := cR.xing
  have c_link := cR.link
  have c_har := cR.har
  have c_ps := cR.ps
  have c_rcd := cR.rcd
  have c_irq := cR.irq
  have c_far := cR.far
  have c_pwr := cR.pwr
  unfold execSleepTideLatch at eq0
  try dsimp only at eq0
  repeat' first | (apply event_within; case eq0 => assumption) | split at eq0 | (injection eq0 with eq0; subst eq0) | cases eq0
  all_goals repeat' first
    | dsimp only [GRes.all_ok, GRes.all_jump, GRes.all_trap, GRes.all_stop, Ans.all_reply, Ans.all_later, Ans.all_waits]
    | (with_reducible first
        | intro _ | assumption | exact True.intro | apply ite_within | apply armPark_within | apply checkAlarm_within
        | apply clearL0_within | apply closeSpan_within | apply latchPair_within | apply stopWdt_within
        | apply tidePass_within)
    | (with_reducible eapply Ch.ps c_ps; eapply Ch.far c_far; eapply Ch.rsv c_rsv; eapply Ch.pwr c_pwr; eapply Ch.tb c_tb; eapply Ch.link c_link; first
        | assumption | apply armPark_within | apply checkAlarm_within | apply clearL0_within | apply closeSpan_within
        | apply latchPair_within | apply stopWdt_within | apply tidePass_within | apply ite_within)
    | (with_reducible eapply Ch.ps c_ps; eapply Ch.far c_far; eapply Ch.tb c_tb; eapply Ch.link c_link; eapply Ch.pwr c_pwr; first
        | assumption | apply armPark_within | apply checkAlarm_within | apply clearL0_within | apply closeSpan_within
        | apply latchPair_within | apply stopWdt_within | apply tidePass_within | apply ite_within)
    | (with_reducible eapply Ch.ps c_ps; eapply Ch.far c_far; eapply Ch.rsv c_rsv; eapply Ch.pwr c_pwr; first
        | assumption | apply armPark_within | apply checkAlarm_within | apply clearL0_within | apply closeSpan_within
        | apply latchPair_within | apply stopWdt_within | apply tidePass_within | apply ite_within)
    | (with_reducible eapply Ch.rsv c_rsv; eapply Ch.pwr c_pwr; eapply Ch.tb c_tb; eapply Ch.link c_link; first
        | assumption | apply armPark_within | apply checkAlarm_within | apply clearL0_within | apply closeSpan_within
        | apply latchPair_within | apply stopWdt_within | apply tidePass_within | apply ite_within)
    | (with_reducible eapply Ch.tb c_tb; eapply Ch.link c_link; eapply Ch.pwr c_pwr; first
        | assumption | apply armPark_within | apply checkAlarm_within | apply clearL0_within | apply closeSpan_within
        | apply latchPair_within | apply stopWdt_within | apply tidePass_within | apply ite_within)
    | (with_reducible eapply Ch.ps c_ps; eapply Ch.far c_far; first
        | assumption | apply armPark_within | apply checkAlarm_within | apply clearL0_within | apply closeSpan_within
        | apply latchPair_within | apply stopWdt_within | apply tidePass_within | apply ite_within)
    | (with_reducible eapply Ch.rsv c_rsv; eapply Ch.pwr c_pwr; first
        | assumption | apply armPark_within | apply checkAlarm_within | apply clearL0_within | apply closeSpan_within
        | apply latchPair_within | apply stopWdt_within | apply tidePass_within | apply ite_within)
    | split
    | dsimp only

theorem execWakeLatchSet_within (which : Fin 11) (rise : Bool) (s : State) {s9 : State} (hq : Ch P q9 s)
    (c_rsv : P .rsv = true) (c_ps : P .ps = true) (c_irq : P .irq = true) (c_far : P .far = true)
    (c_pwr : P .pwr = true) (eq0 : execWakeLatchSet which rise s = .next s9) :
    Ch P q9 s9 := by
  unfold execWakeLatchSet at eq0
  have e1 := Host.Outcome.next.inj eq0
  rw [← e1]
  repeat' first
    | dsimp only [GRes.all_ok, GRes.all_jump, GRes.all_trap, GRes.all_stop, Ans.all_reply, Ans.all_later, Ans.all_waits]
    | (with_reducible first | intro _ | assumption | exact True.intro | apply ite_within | apply setLatch_within)
    | split
    | dsimp only

theorem execWakePllLock_within (s : State) {s9 : State} (hq : Ch P q9 s) (c_tb : P .tb = true) (c_pwr : P .pwr = true)
    (eq0 : execWakePllLock s = .next s9) :
    Ch P q9 s9 := by
  unfold execWakePllLock at eq0
  have e1 := Host.Outcome.next.inj eq0
  rw [← e1]
  repeat' first
    | dsimp only [GRes.all_ok, GRes.all_jump, GRes.all_trap, GRes.all_stop, Ans.all_reply, Ans.all_later, Ans.all_waits]
    | (with_reducible first | intro _ | assumption | exact True.intro | apply ite_within)
    | (with_reducible eapply Ch.tb c_tb; eapply Ch.pwr c_pwr; first | assumption | apply ite_within)
    | split
    | dsimp only

theorem endWalkUnit_within (u : UnitId) (s : State) (hq : Ch P q9 s) (cE : EvOk P) (c_units : P .units = true)
    (c_xing : P .xing = true) (c_link : P .link = true) (c_har : P .har = true) :
    Ch P q9 (endWalkUnit u s) := by
  unfold endWalkUnit
  repeat' first
    | (with_reducible first
        | intro _ | assumption | apply ite_within | apply State_modUnit_within | apply fireFree_within)
    | split
    | dsimp only

theorem oweGap_within (s : State) (hq : Ch P q9 s) (c_tb : P .tb = true) (c_irq : P .irq = true) :
    Ch P q9 (oweGap s) := by
  unfold oweGap
  repeat' first
    | (with_reducible first | intro _ | assumption | apply noteChange_within)
    | (with_reducible eapply Ch.tb c_tb; first | assumption | apply noteChange_within)
    | split
    | dsimp only

theorem endWalk_within (s : State) (hq : Ch P q9 s) (cE : EvOk P) (c_tb : P .tb = true) (c_nv : P .nv = true)
    (c_units : P .units = true) (c_xing : P .xing = true) (c_link : P .link = true) (c_har : P .har = true)
    (c_prb : P .prb = true) (c_ps : P .ps = true) (c_rcd : P .rcd = true) :
    Ch P q9 (endWalk s) := by
  have c_irq := cE.irq
  have c_hlt := cE.hlt
  unfold endWalk
  repeat' first
    | (with_reducible first
        | intro _ | assumption | apply forEach_within | apply closeSpan_within | apply endWalkUnit_within
        | apply forEach_within | apply logTime_within)
    | (with_reducible eapply Ch.tb c_tb; first
        | assumption | apply closeSpan_within | apply endWalkUnit_within | apply forEach_within | apply logTime_within
        | apply forEach_within)
    | split
    | dsimp only

theorem execWakeReseed_within (tide : TideCnt) (s : State) {s9 : State} (hq : Ch P q9 s) (cE : EvOk P)
    (c_tb : P .tb = true) (c_rsv : P .rsv = true) (c_nv : P .nv = true) (c_units : P .units = true)
    (c_xing : P .xing = true) (c_link : P .link = true) (c_har : P .har = true) (c_prb : P .prb = true)
    (c_ps : P .ps = true) (c_rcd : P .rcd = true) (c_pwr : P .pwr = true) (eq0 : execWakeReseed tide s = .next s9) :
    Ch P q9 s9 := by
  have c_irq := cE.irq
  unfold execWakeReseed at eq0
  have e1 := Host.Outcome.next.inj eq0
  rw [← e1]
  repeat' first
    | dsimp only [GRes.all_ok, GRes.all_jump, GRes.all_trap, GRes.all_stop, Ans.all_reply, Ans.all_later, Ans.all_waits]
    | (with_reducible first
        | intro _ | assumption | exact True.intro | apply ite_within | apply beginSpan_within | apply endWalk_within
        | apply oweGap_within | apply tidePass_within)
    | (with_reducible eapply Ch.tb c_tb; eapply Ch.pwr c_pwr; first
        | assumption | apply beginSpan_within | apply endWalk_within | apply oweGap_within | apply tidePass_within
        | apply ite_within)
    | split
    | dsimp only

theorem execDomainClocksRelease_within (t : Instant) (s : State) {s9 : State} (hq : Ch P q9 s) (cE : EvOk P)
    (c_tb : P .tb = true) (c_rsv : P .rsv = true) (c_nv : P .nv = true) (c_xing : P .xing = true)
    (c_eng : P .eng = true) (c_conv : P .conv = true) (c_prb : P .prb = true) (c_ps : P .ps = true)
    (c_rcd : P .rcd = true) (c_host : P .host = true) (c_pwr : P .pwr = true) (c_dbg : P .dbg = true)
    (eq0 : execDomainClocksRelease t s = .next s9) :
    Ch P q9 s9 := by
  have c_irq := cE.irq
  have c_far := cE.far
  have c_hlt := cE.hlt
  unfold execDomainClocksRelease at eq0
  try dsimp only at eq0
  repeat' first | (apply event_within; case eq0 => assumption) | split at eq0 | (injection eq0 with eq0; subst eq0) | cases eq0
  all_goals repeat' first
    | dsimp only [GRes.all_ok, GRes.all_jump, GRes.all_trap, GRes.all_stop, Ans.all_reply, Ans.all_later, Ans.all_waits]
    | (with_reducible first
        | intro _ | assumption | exact True.intro | apply ite_within | apply countLate_within
        | apply finishWake_within | apply goWdt_within | apply rebaseEngines_within | apply restartRefresh_within
        | apply writeDue_within)
    | (with_reducible eapply Ch.host c_host; eapply Ch.pwr c_pwr; eapply Ch.dbg c_dbg; first
        | assumption | apply countLate_within | apply finishWake_within | apply goWdt_within
        | apply rebaseEngines_within | apply restartRefresh_within | apply writeDue_within | apply ite_within)
    | (with_reducible eapply Ch.host c_host; eapply Ch.pwr c_pwr; first
        | assumption | apply countLate_within | apply finishWake_within | apply goWdt_within
        | apply rebaseEngines_within | apply restartRefresh_within | apply writeDue_within | apply ite_within)
    | (with_reducible eapply Ch.pwr c_pwr; eapply Ch.dbg c_dbg; first
        | assumption | apply countLate_within | apply finishWake_within | apply goWdt_within
        | apply rebaseEngines_within | apply restartRefresh_within | apply writeDue_within | apply ite_within)
    | split
    | dsimp only

theorem execPoReset_within (s : State) {s9 : State} (hq : Ch P q9 s) (cR : RsOk P) (eq0 : execPoReset s = .next s9) :
    Ch P q9 s9 := by
  have c_pwr := cR.pwr
  unfold execPoReset at eq0
  have e1 := Host.Outcome.next.inj eq0
  rw [← e1]
  repeat' first
    | dsimp only [GRes.all_ok, GRes.all_jump, GRes.all_trap, GRes.all_stop, Ans.all_reply, Ans.all_later, Ans.all_waits]
    | (with_reducible first | intro _ | assumption | exact True.intro | apply assertReset_within)
    | (with_reducible eapply Ch.pwr c_pwr; first | assumption | apply assertReset_within)
    | split
    | dsimp only

theorem execBoReset_within (s : State) {s9 : State} (hq : Ch P q9 s) (cR : RsOk P) (eq0 : execBoReset s = .next s9) :
    Ch P q9 s9 := by
  unfold execBoReset at eq0
  have e1 := Host.Outcome.next.inj eq0
  rw [← e1]
  repeat' first
    | dsimp only [GRes.all_ok, GRes.all_jump, GRes.all_trap, GRes.all_stop, Ans.all_reply, Ans.all_later, Ans.all_waits]
    | (with_reducible first | intro _ | assumption | exact True.intro | apply assertReset_within)
    | split
    | dsimp only

theorem execPinReset_within (widthNs : Nat) (s : State) {s9 : State} (hq : Ch P q9 s) (cR : RsOk P)
    (eq0 : execPinReset widthNs s = .next s9) :
    Ch P q9 s9 := by
  have c_far := cR.far
  unfold execPinReset at eq0
  have e1 := Host.Outcome.next.inj eq0
  rw [← e1]
  repeat' first
    | dsimp only [GRes.all_ok, GRes.all_jump, GRes.all_trap, GRes.all_stop, Ans.all_reply, Ans.all_later, Ans.all_waits]
    | (with_reducible first | intro _ | assumption | exact True.intro | apply ite_within | apply assertReset_within)
    | (with_reducible eapply Ch.far c_far; first | assumption | apply assertReset_within | apply ite_within)
    | split
    | dsimp only

theorem execWdgWarning_within (t : Instant) (s : State) {s9 : State} (hq : Ch P q9 s) (cE : EvOk P)
    (c_tb : P .tb = true) (eq0 : execWdgWarning t s = .next s9) :
    Ch P q9 s9 := by
  have c_irq := cE.irq
  have c_far := cE.far
  unfold execWdgWarning at eq0
  try dsimp only at eq0
  repeat' first | (apply event_within; case eq0 => assumption) | split at eq0 | (injection eq0 with eq0; subst eq0) | cases eq0
  all_goals repeat' first
    | dsimp only [GRes.all_ok, GRes.all_jump, GRes.all_trap, GRes.all_stop, Ans.all_reply, Ans.all_later, Ans.all_waits]
    | (with_reducible first | intro _ | assumption | exact True.intro | apply health_within | apply pulse_within)
    | (with_reducible eapply Ch.far c_far; first | assumption | apply health_within | apply pulse_within)
    | split
    | dsimp only

theorem execWdgReset_within (t : Instant) (s : State) {s9 : State} (hq : Ch P q9 s) (cR : RsOk P)
    (eq0 : execWdgReset t s = .next s9) :
    Ch P q9 s9 := by
  have cE := cR.toEvOk
  have c_tb := cR.tb
  unfold execWdgReset at eq0
  try dsimp only at eq0
  repeat' first | (apply event_within; case eq0 => assumption) | split at eq0 | (injection eq0 with eq0; subst eq0) | cases eq0
  all_goals repeat' first
    | dsimp only [GRes.all_ok, GRes.all_jump, GRes.all_trap, GRes.all_stop, Ans.all_reply, Ans.all_later, Ans.all_waits]
    | (with_reducible first | intro _ | assumption | exact True.intro | apply assertReset_within | apply health_within)
    | split
    | dsimp only

theorem execWdtService_within (v : Byte) (s : State) {s9 : State} (hq : Ch P q9 s) (c_far : P .far = true)
    (eq0 : execWdtService v s = .next s9) :
    Ch P q9 s9 := by
  unfold execWdtService at eq0
  have e1 := Host.Outcome.next.inj eq0
  rw [← e1]
  repeat' first
    | dsimp only [GRes.all_ok, GRes.all_jump, GRes.all_trap, GRes.all_stop, Ans.all_reply, Ans.all_later, Ans.all_waits]
    | (with_reducible first | intro _ | assumption | exact True.intro | apply ite_within | apply wdtService_within)
    | split
    | dsimp only

theorem execClkReset_within (s : State) {s9 : State} (hq : Ch P q9 s) (cR : RsOk P)
    (eq0 : execClkReset s = .next s9) :
    Ch P q9 s9 := by
  unfold execClkReset at eq0
  have e1 := Host.Outcome.next.inj eq0
  rw [← e1]
  repeat' first
    | dsimp only [GRes.all_ok, GRes.all_jump, GRes.all_trap, GRes.all_stop, Ans.all_reply, Ans.all_later, Ans.all_waits]
    | (with_reducible first | intro _ | assumption | exact True.intro | apply ite_within | apply assertReset_within)
    | split
    | dsimp only

theorem execLockReset_within (s : State) {s9 : State} (hq : Ch P q9 s) (cR : RsOk P)
    (eq0 : execLockReset s = .next s9) :
    Ch P q9 s9 := by
  unfold execLockReset at eq0
  have e1 := Host.Outcome.next.inj eq0
  rw [← e1]
  repeat' first
    | dsimp only [GRes.all_ok, GRes.all_jump, GRes.all_trap, GRes.all_stop, Ans.all_reply, Ans.all_later, Ans.all_waits]
    | (with_reducible first | intro _ | assumption | exact True.intro | apply assertReset_within)
    | split
    | dsimp only

theorem writeSwrst_within (v : W32) (s : State) (hq : Ch P q9 s) (cR : RsOk P) :
    Ch P q9 (writeSwrst v s) := by
  unfold writeSwrst
  repeat' first
    | (with_reducible first | intro _ | assumption | apply ite_within | apply assertReset_within)
    | split
    | dsimp only

theorem execSwrstWrite_within (v : W32) (s : State) {s9 : State} (hq : Ch P q9 s) (cR : RsOk P)
    (eq0 : execSwrstWrite v s = .next s9) :
    Ch P q9 s9 := by
  unfold execSwrstWrite at eq0
  have e1 := Host.Outcome.next.inj eq0
  rw [← e1]
  repeat' first
    | dsimp only [GRes.all_ok, GRes.all_jump, GRes.all_trap, GRes.all_stop, Ans.all_reply, Ans.all_later, Ans.all_waits]
    | (with_reducible first | intro _ | assumption | exact True.intro | apply writeSwrst_within)
    | split
    | dsimp only

theorem execResetRelease_within (t : Instant) (tide : TideCnt) (xtalOk parity : Bool) (s : State) {s9 : State}
    (hq : Ch P q9 s) (cE : EvOk P) (c_tb : P .tb = true) (c_rsv : P .rsv = true) (c_nv : P .nv = true)
    (c_fsh : P .fsh = true) (c_cal : P .cal = true) (c_units : P .units = true) (c_xing : P .xing = true)
    (c_arm : P .arm = true) (c_link : P .link = true) (c_har : P .har = true) (c_thr : P .thr = true)
    (c_eng : P .eng = true) (c_prog : P .prog = true) (c_frm : P .frm = true) (c_lmap : P .lmap = true)
    (c_spw : P .spw = true) (c_gt : P .gt = true) (c_conv : P .conv = true) (c_prb : P .prb = true)
    (c_ps : P .ps = true) (c_rcd : P .rcd = true) (c_host : P .host = true) (c_pwr : P .pwr = true)
    (c_dbg : P .dbg = true) (eq0 : execResetRelease t tide xtalOk parity s = .next s9) :
    Ch P q9 s9 := by
  unfold execResetRelease at eq0
  have e1 := Host.Outcome.next.inj eq0
  rw [← e1]
  repeat' first
    | dsimp only [GRes.all_ok, GRes.all_jump, GRes.all_trap, GRes.all_stop, Ans.all_reply, Ans.all_later, Ans.all_waits]
    | (with_reducible first
        | intro _ | assumption | exact True.intro | apply ite_within | apply advanceTo_within | apply boot_within
        | apply restart_within)
    | (with_reducible eapply Ch.rsv c_rsv; first
        | assumption | apply advanceTo_within | apply boot_within | apply restart_within | apply ite_within)
    | split
    | dsimp only

theorem execVbatLoss_within (s : State) {s9 : State} (hq : Ch P q9 s) (c_rsv : P .rsv = true) (c_pwr : P .pwr = true)
    (eq0 : execVbatLoss s = .next s9) :
    Ch P q9 s9 := by
  unfold execVbatLoss at eq0
  have e1 := Host.Outcome.next.inj eq0
  rw [← e1]
  repeat' first
    | dsimp only [GRes.all_ok, GRes.all_jump, GRes.all_trap, GRes.all_stop, Ans.all_reply, Ans.all_later, Ans.all_waits]
    | (with_reducible first | intro _ | assumption | exact True.intro)
    | (with_reducible eapply Ch.rsv c_rsv; eapply Ch.pwr c_pwr; assumption)
    | split
    | dsimp only

theorem execVbatReturn_within (s : State) {s9 : State} (hq : Ch P q9 s) (cR : RsOk P)
    (eq0 : execVbatReturn s = .next s9) :
    Ch P q9 s9 := by
  have c_rsv := cR.rsv
  have c_ps := cR.ps
  have c_irq := cR.irq
  have c_far := cR.far
  have c_pwr := cR.pwr
  unfold execVbatReturn at eq0
  have e1 := Host.Outcome.next.inj eq0
  rw [← e1]
  repeat' first
    | dsimp only [GRes.all_ok, GRes.all_jump, GRes.all_trap, GRes.all_stop, Ans.all_reply, Ans.all_later, Ans.all_waits]
    | (with_reducible first
        | intro _ | assumption | exact True.intro | apply ite_within | apply assertReset_within
        | apply setLatch_within)
    | (with_reducible eapply Ch.rsv c_rsv; eapply Ch.pwr c_pwr; first | assumption | apply assertReset_within | apply setLatch_within | apply ite_within)
    | split
    | dsimp only

theorem execReservoirLoss_within (s : State) {s9 : State} (hq : Ch P q9 s) (cR : RsOk P)
    (eq0 : execReservoirLoss s = .next s9) :
    Ch P q9 s9 := by
  have c_tb := cR.tb
  have c_rsv := cR.rsv
  have c_prb := cR.prb
  have c_ps := cR.ps
  have c_rcd := cR.rcd
  have c_hlt := cR.hlt
  have c_pwr := cR.pwr
  unfold execReservoirLoss at eq0
  have e1 := Host.Outcome.next.inj eq0
  rw [← e1]
  repeat' first
    | dsimp only [GRes.all_ok, GRes.all_jump, GRes.all_trap, GRes.all_stop, Ans.all_reply, Ans.all_later, Ans.all_waits]
    | (with_reducible first | intro _ | assumption | exact True.intro | apply ite_within | apply clearL0_within)
    | (with_reducible eapply Ch.tb c_tb; eapply Ch.rsv c_rsv; eapply Ch.prb c_prb; eapply Ch.ps c_ps; eapply Ch.rcd c_rcd; eapply Ch.hlt c_hlt; eapply Ch.pwr c_pwr; first | assumption | apply clearL0_within | apply ite_within)
    | split
    | dsimp only

theorem armApply_within (x : Nat) (w : ArmW) (s : State) (hq : Ch P q9 s) (cE : EvOk P) (c_units : P .units = true)
    (c_xing : P .xing = true) (c_arm : P .arm = true) (c_link : P .link = true) (c_har : P .har = true)
    (c_lmap : P .lmap = true) :
    Ch P q9 (armApply x w s) := by
  unfold armApply
  repeat' first
    | (with_reducible first | intro _ | assumption | apply ite_within | apply actHarness_within | apply chanOp_within)
    | (with_reducible eapply Ch.arm c_arm; first | assumption | apply actHarness_within | apply chanOp_within | apply ite_within)
    | split
    | dsimp only

theorem armHead_within (e : EngineId) (s : State) (hq : Ch P q9 s) (cE : EvOk P) (c_units : P .units = true)
    (c_xing : P .xing = true) (c_arm : P .arm = true) (c_link : P .link = true) (c_har : P .har = true)
    (c_lmap : P .lmap = true) :
    Ch P q9 (armHead e s) := by
  unfold armHead
  repeat' first
    | (with_reducible first | intro _ | assumption | apply ite_within | apply armApply_within)
    | (with_reducible eapply Ch.arm c_arm; first | assumption | apply armApply_within | apply ite_within)
    | split
    | dsimp only

theorem armOut_within (e : EngineId) (s : State) (hq : Ch P q9 s) (cE : EvOk P) (c_units : P .units = true)
    (c_xing : P .xing = true) (c_arm : P .arm = true) (c_link : P .link = true) (c_har : P .har = true)
    (c_lmap : P .lmap = true) :
    Ch P q9 (armOut e s) := by
  unfold armOut
  repeat' first
    | (with_reducible first | intro _ | assumption | apply forEach_within | apply armHead_within | apply forEach_within)
    | split
    | dsimp only

theorem armIn_within (e : EngineId) (w : ArmW) (s : State) {s9 : State} (hq : Ch P q9 s) (cE : EvOk P)
    (c_units : P .units = true) (c_xing : P .xing = true) (c_arm : P .arm = true) (c_link : P .link = true)
    (c_har : P .har = true) (c_lmap : P .lmap = true) (eq0 : armIn e w s = some s9) :
    Ch P q9 s9 := by
  unfold armIn at eq0
  try dsimp only at eq0
  repeat' first | split at eq0 | (with_reducible rw [Option.bind_eq_some_iff] at eq0; obtain ⟨_, _, eq0⟩ := eq0) | (with_reducible rw [Option.map_eq_some_iff] at eq0; obtain ⟨_, _, rfl⟩ := eq0) | cases eq0
  all_goals repeat' first
    | (with_reducible first | intro _ | assumption | apply ite_within | apply armOut_within)
    | (with_reducible eapply Ch.arm c_arm; first | assumption | apply armOut_within | apply ite_within)
    | split
    | dsimp only

theorem armWrite_within (tid : Tid) (w : ArmW) (s : State) (hq : Ch P q9 s) (cE : EvOk P) (c_units : P .units = true)
    (c_xing : P .xing = true) (c_arm : P .arm = true) (c_link : P .link = true) (c_har : P .har = true)
    (c_thr : P .thr = true) (c_lmap : P .lmap = true) :
    Ch P q9 (armWrite tid w s) := by
  unfold armWrite
  repeat' first
    | (with_reducible first
        | intro _ | assumption | apply State_modThr_within | (apply armIn_within; case eq0 => assumption))
    | split
    | dsimp only

theorem armRetry_within (tid : Tid) (s : State) (hq : Ch P q9 s) (cE : EvOk P) (c_units : P .units = true)
    (c_xing : P .xing = true) (c_arm : P .arm = true) (c_link : P .link = true) (c_har : P .har = true)
    (c_thr : P .thr = true) (c_lmap : P .lmap = true) :
    Ch P q9 (armRetry tid s) := by
  unfold armRetry
  repeat' first
    | (with_reducible first
        | intro _ | assumption | apply State_modThr_within | (apply armIn_within; case eq0 => assumption))
    | split
    | dsimp only

theorem armRelease_within (s : State) (hq : Ch P q9 s) (cE : EvOk P) (c_units : P .units = true)
    (c_xing : P .xing = true) (c_arm : P .arm = true) (c_link : P .link = true) (c_har : P .har = true)
    (c_thr : P .thr = true) (c_lmap : P .lmap = true) :
    Ch P q9 (armRelease s) := by
  unfold armRelease
  repeat' first
    | (with_reducible first
        | intro _ | assumption | apply forEach_within | apply armOut_within | apply armRetry_within
        | apply forEach_within)
    | split
    | dsimp only

theorem retireUnit_within (u : UnitId) (chk : BitVec 5) (inj : Bool) (s : State) (hq : Ch P q9 s)
    (c_rsv : P .rsv = true) (c_units : P .units = true) :
    Ch P q9 (retireUnit u chk inj s) := by
  unfold retireUnit
  repeat' first
    | (with_reducible first | intro _ | assumption | apply ite_within | apply State_modUnit_within)
    | (with_reducible eapply Ch.rsv c_rsv; first | assumption | apply State_modUnit_within | apply ite_within)
    | split
    | dsimp only

theorem unitReport_within (u : UnitId) (inj : Bool) (s : State) (hq : Ch P q9 s) (cE : EvOk P) :
    Ch P q9 (unitReport u inj s) := by
  unfold unitReport
  repeat' first
    | (with_reducible first | intro _ | assumption | apply health_within)
    | split
    | dsimp only

theorem postRemap_within (l : Lch) (old new : Byte) (start : EvTime) (len : W32) (s : State) (hq : Ch P q9 s)
    (cE : EvOk P) :
    Ch P q9 (postRemap l old new start len s) := by
  have c_irq := cE.irq
  unfold postRemap
  repeat' first
    | (with_reducible first | intro _ | assumption | apply postB63_within | apply pulse_within)
    | split
    | dsimp only

theorem answerHeld_within (l : Lch) (ok : Bool) (s : State) (hq : Ch P q9 s) (c_host : P .host = true)
    (c_far : P .far = true) :
    Ch P q9 (answerHeld l ok s) := by
  unfold answerHeld
  repeat' first
    | (with_reducible first | intro _ | assumption | apply ite_within | apply writeReply_within)
    | (with_reducible eapply Ch.far c_far; first | assumption | apply writeReply_within | apply ite_within)
    | split
    | dsimp only

theorem retireChannel_within (l : Lch) (old : UnitId) (start : EvTime) (inj : Bool) (s : State) (hq : Ch P q9 s)
    (cE : EvOk P) (c_units : P .units = true) (c_xing : P .xing = true) (c_arm : P .arm = true)
    (c_link : P .link = true) (c_har : P .har = true) (c_thr : P .thr = true) (c_lmap : P .lmap = true)
    (c_spw : P .spw = true) (c_host : P .host = true) :
    Ch P q9 (retireChannel l old start inj s) := by
  have c_irq := cE.irq
  have c_far := cE.far
  have c_hlt := cE.hlt
  unfold retireChannel
  repeat' first
    | (with_reducible first
        | intro _ | assumption | apply State_modLMap_within | apply State_modSpw_within | apply State_modUnit_within
        | apply adoptCh_within | apply answerHeld_within | apply armRelease_within | apply dropEntries_within
        | apply postRemap_within | apply setCause_within | apply unitReport_within)
    | split
    | dsimp only

theorem takeSpare_within (l : Lch) (old : UnitId) (start : EvTime) (inj : Bool) (s : State) (hq : Ch P q9 s)
    (cE : EvOk P) (c_units : P .units = true) (c_xing : P .xing = true) (c_arm : P .arm = true)
    (c_link : P .link = true) (c_har : P .har = true) (c_thr : P .thr = true) (c_lmap : P .lmap = true)
    (c_spw : P .spw = true) (c_host : P .host = true) :
    Ch P q9 (takeSpare l old start inj s) := by
  unfold takeSpare
  repeat' first
    | (with_reducible first
        | intro _ | assumption | apply State_modLMap_within | apply State_modUnit_within | apply retireChannel_within)
    | split
    | dsimp only

theorem failUnit_within (u : UnitId) (chk : BitVec 5) (inj : Bool) (start : EvTime) (s : State) (hq : Ch P q9 s)
    (cE : EvOk P) (c_rsv : P .rsv = true) (c_units : P .units = true) (c_xing : P .xing = true)
    (c_arm : P .arm = true) (c_link : P .link = true) (c_har : P .har = true) (c_thr : P .thr = true)
    (c_lmap : P .lmap = true) (c_spw : P .spw = true) (c_host : P .host = true) :
    Ch P q9 (failUnit u chk inj start s) := by
  unfold failUnit
  repeat' first
    | (with_reducible first
        | intro _ | assumption | apply ite_within | apply State_modLMap_within | apply State_modUnit_within
        | apply outChanged_within | apply retireUnit_within | apply takeSpare_within | apply unitReport_within)
    | split
    | dsimp only

theorem countRemap_within (l : Lch) (s : State) (hq : Ch P q9 s) (c_nv : P .nv = true) :
    Ch P q9 (countRemap l s) := by
  unfold countRemap
  repeat' first
    | (with_reducible first | intro _ | assumption | apply ite_within)
    | (with_reducible eapply Ch.nv c_nv; first | assumption | apply ite_within)
    | split
    | dsimp only

theorem resumeMigration_within (l : Lch) (s : State) (hq : Ch P q9 s) (cE : EvOk P) (c_nv : P .nv = true)
    (c_units : P .units = true) (c_xing : P .xing = true) (c_arm : P .arm = true) (c_link : P .link = true)
    (c_har : P .har = true) (c_thr : P .thr = true) (c_lmap : P .lmap = true) (c_host : P .host = true) :
    Ch P q9 (resumeMigration l s) := by
  have c_far := cE.far
  unfold resumeMigration
  repeat' first
    | (with_reducible first
        | intro _ | assumption | apply forEach_within | apply State_modLMap_within | apply State_modUnit_within
        | apply adoptCh_within | apply answerHeld_within | apply armRelease_within | apply countRemap_within
        | apply forEach_within | apply postRemap_within | apply unitOp_within | apply unitReport_within)
    | split
    | dsimp only

theorem eccCorrect_within (u : UnitId) (inj : Bool) (s : State) (hq : Ch P q9 s) (cE : EvOk P) (c_rsv : P .rsv = true)
    (c_units : P .units = true) (c_xing : P .xing = true) (c_arm : P .arm = true) (c_link : P .link = true)
    (c_har : P .har = true) (c_thr : P .thr = true) (c_lmap : P .lmap = true) (c_spw : P .spw = true)
    (c_host : P .host = true) :
    Ch P q9 (eccCorrect u inj s) := by
  unfold eccCorrect
  repeat' first
    | (with_reducible first
        | intro _ | assumption | apply ite_within | apply State_modUnit_within | apply failUnit_within)
    | split
    | dsimp only

theorem injectUnit_within (u : UnitId) (code : Nat) (s : State) (hq : Ch P q9 s) (cE : EvOk P) (c_rsv : P .rsv = true)
    (c_units : P .units = true) (c_xing : P .xing = true) (c_arm : P .arm = true) (c_link : P .link = true)
    (c_har : P .har = true) (c_thr : P .thr = true) (c_lmap : P .lmap = true) (c_spw : P .spw = true)
    (c_host : P .host = true) :
    Ch P q9 (injectUnit u code s) := by
  unfold injectUnit
  repeat' first
    | (with_reducible first | intro _ | assumption | apply eccCorrect_within | apply failUnit_within)
    | split
    | dsimp only

theorem tapsFail_within (i : Fin 70) (taps : W32) (inj : Bool) (s : State) (hq : Ch P q9 s) (cE : EvOk P)
    (c_rsv : P .rsv = true) (c_units : P .units = true) (c_xing : P .xing = true) (c_arm : P .arm = true)
    (c_link : P .link = true) (c_har : P .har = true) (c_thr : P .thr = true) (c_lmap : P .lmap = true)
    (c_spw : P .spw = true) (c_conv : P .conv = true) (c_host : P .host = true) :
    Ch P q9 (tapsFail i taps inj s) := by
  have c_irq := cE.irq
  have c_hlt := cE.hlt
  unfold tapsFail
  repeat' first
    | (with_reducible first
        | intro _ | assumption | apply ite_within | apply State_modConv_within | apply failUnit_within
        | apply health_within | apply pulse_within | apply setCause_within)
    | (with_reducible eapply Ch.rsv c_rsv; first
        | assumption | apply State_modConv_within | apply failUnit_within | apply health_within | apply pulse_within
        | apply setCause_within | apply ite_within)
    | split
    | dsimp only

theorem mark_within (m : Byte) (w : BitVec 24) (dbl inj : Bool) (s : State) (hq : Ch P q9 s) (c_hlt : P .hlt = true) :
    Ch P q9 (mark m w dbl inj s) := by
  unfold mark
  repeat' first
    | (with_reducible first | intro _ | assumption)
    | (with_reducible eapply Ch.hlt c_hlt; assumption)
    | split
    | dsimp only

theorem corrected_within (m : Byte) (w : BitVec 24) (inj : Bool) (s : State) (hq : Ch P q9 s) (cE : EvOk P) :
    Ch P q9 (corrected m w inj s) := by
  have c_irq := cE.irq
  have c_far := cE.far
  have c_hlt := cE.hlt
  unfold corrected
  repeat' first
    | (with_reducible first
        | intro _ | assumption | apply ite_within | apply foldl_within | apply foldlFst_within | apply choose_within
        | (apply choose_within'; case eq0 => assumption) | apply clearMarks_within | apply health_within
        | apply pulse_within | apply setCause_within)
    | (with_reducible eapply Ch.hlt c_hlt; first
        | assumption | apply choose_within | (apply choose_within'; case eq0 => assumption) | apply clearMarks_within
        | apply health_within | apply pulse_within | apply setCause_within | apply ite_within | apply foldl_within)
    | (with_reducible eapply Ch.hlt c_hlt; dsimp only; first | (apply choose_within'; case eq0 => assumption))
    | split
    | dsimp only

theorem retainedBad_within (w : Nat) (s : State) (hq : Ch P q9 s) (c_rsv : P .rsv = true) (c_ps : P .ps = true)
    (c_rcd : P .rcd = true) (c_far : P .far = true) :
    Ch P q9 (retainedBad w s) := by
  unfold retainedBad
  repeat' first
    | (with_reducible first
        | intro _ | assumption | apply ite_within | apply choose_within
        | (apply choose_within'; case eq0 => assumption))
    | (with_reducible eapply Ch.rcd c_rcd; eapply Ch.ps c_ps; eapply Ch.rsv c_rsv; first
        | assumption | apply choose_within | (apply choose_within'; case eq0 => assumption) | apply ite_within)
    | (with_reducible eapply Ch.rcd c_rcd; eapply Ch.ps c_ps; first
        | assumption | apply choose_within | (apply choose_within'; case eq0 => assumption) | apply ite_within)
    | (with_reducible eapply Ch.rcd c_rcd; eapply Ch.rsv c_rsv; first
        | assumption | apply choose_within | (apply choose_within'; case eq0 => assumption) | apply ite_within)
    | (with_reducible eapply Ch.ps c_ps; eapply Ch.rsv c_rsv; first
        | assumption | apply choose_within | (apply choose_within'; case eq0 => assumption) | apply ite_within)
    | (with_reducible eapply Ch.rcd c_rcd; first
        | assumption | apply choose_within | (apply choose_within'; case eq0 => assumption) | apply ite_within)
    | (with_reducible eapply Ch.ps c_ps; first
        | assumption | apply choose_within | (apply choose_within'; case eq0 => assumption) | apply ite_within)
    | (with_reducible eapply Ch.rsv c_rsv; first
        | assumption | apply choose_within | (apply choose_within'; case eq0 => assumption) | apply ite_within)
    | (with_reducible eapply Ch.rcd c_rcd; eapply Ch.ps c_ps; eapply Ch.rsv c_rsv; dsimp only; first | (apply choose_within'; case eq0 => assumption))
    | (with_reducible eapply Ch.rcd c_rcd; eapply Ch.ps c_ps; dsimp only; first | (apply choose_within'; case eq0 => assumption))
    | (with_reducible eapply Ch.rcd c_rcd; eapply Ch.rsv c_rsv; dsimp only; first | (apply choose_within'; case eq0 => assumption))
    | (with_reducible eapply Ch.ps c_ps; eapply Ch.rsv c_rsv; dsimp only; first | (apply choose_within'; case eq0 => assumption))
    | (with_reducible eapply Ch.rcd c_rcd; dsimp only; first | (apply choose_within'; case eq0 => assumption))
    | (with_reducible eapply Ch.ps c_ps; dsimp only; first | (apply choose_within'; case eq0 => assumption))
    | (with_reducible eapply Ch.rsv c_rsv; dsimp only; first | (apply choose_within'; case eq0 => assumption))
    | split
    | dsimp only

theorem frameBad_within (f : Fin 128) (s : State) (hq : Ch P q9 s) (c_frm : P .frm = true) :
    Ch P q9 (frameBad f s) := by
  unfold frameBad
  repeat' first
    | (with_reducible first | intro _ | assumption | apply ite_within | apply State_modFrm_within)
    | split
    | dsimp only

theorem uncorrectable_within (m : Byte) (w : BitVec 24) (inj : Bool) (s : State) (hq : Ch P q9 s) (cR : RsOk P) :
    Ch P q9 (uncorrectable m w inj s) := by
  have cE := cR.toEvOk
  have c_rsv := cR.rsv
  have c_frm := cR.frm
  have c_spw := cR.spw
  have c_ps := cR.ps
  have c_rcd := cR.rcd
  have c_irq := cR.irq
  have c_far := cR.far
  have c_hlt := cR.hlt
  unfold uncorrectable
  repeat' first
    | (with_reducible first
        | intro _ | assumption | apply ite_within | apply State_modSpw_within | apply assertReset_within
        | apply dropEntries_within | apply frameBad_within | apply health_within | apply pulse_within
        | apply retainedBad_within)
    | (with_reducible eapply Ch.hlt c_hlt; first
        | assumption | apply State_modSpw_within | apply assertReset_within | apply dropEntries_within
        | apply frameBad_within | apply health_within | apply pulse_within | apply retainedBad_within
        | apply ite_within)
    | split
    | dsimp only

theorem readWord_within (m : Byte) (w : BitVec 24) (s : State) (hq : Ch P q9 s) (cR : RsOk P) :
    Ch P q9 (readWord m w s) := by
  have cE := cR.toEvOk
  unfold readWord
  repeat' first
    | (with_reducible first
        | intro _ | assumption | apply ite_within | apply corrected_within | apply uncorrectable_within)
    | split
    | dsimp only

theorem hwdExpire_within (inj : Bool) (s : State) (hq : Ch P q9 s) (cE : EvOk P) (c_units : P .units = true)
    (c_xing : P .xing = true) (c_link : P .link = true) (c_har : P .har = true) (c_host : P .host = true) :
    Ch P q9 (hwdExpire inj s) := by
  unfold hwdExpire
  repeat' first
    | (with_reducible first | intro _ | assumption | apply ite_within | apply hwdReport_within)
    | (with_reducible eapply Ch.host c_host; first | assumption | apply hwdReport_within | apply ite_within)
    | split
    | dsimp only

theorem nvArea_within (area : Nat) (off : W16) (s : State) (hq : Ch P q9 s) (c_nv : P .nv = true) :
    Ch P q9 (nvArea area off s) := by
  unfold nvArea
  repeat' first
    | (with_reducible first | intro _ | assumption)
    | (with_reducible eapply Ch.nv c_nv; assumption)
    | split
    | dsimp only

theorem burst_within (x : Fin 70) (n : Nat) (s : State) (hq : Ch P q9 s) (cE : EvOk P) (c_xing : P .xing = true) :
    Ch P q9 (burst x n s) := by
  unfold burst
  repeat' first
    | (with_reducible first | intro _ | assumption | apply foldl_within | apply foldlFst_within | apply pushEvent_within)
    | split
    | dsimp only

theorem inject_within (cls idx : Nat) (par : W32) (s : State) {s9 : State} (hq : Ch P q9 s) (cR : RsOk P)
    (c_nv : P .nv = true) (eq0 : inject cls idx par s = some s9) :
    Ch P q9 s9 := by
  have cE := cR.toEvOk
  have c_tb := cR.tb
  have c_rsv := cR.rsv
  have c_units := cR.units
  have c_xing := cR.xing
  have c_arm := cR.arm
  have c_link := cR.link
  have c_har := cR.har
  have c_thr := cR.thr
  have c_eng := cR.eng
  have c_frm := cR.frm
  have c_lmap := cR.lmap
  have c_spw := cR.spw
  have c_conv := cR.conv
  have c_prb := cR.prb
  have c_ps := cR.ps
  have c_rcd := cR.rcd
  have c_host := cR.host
  have c_far := cR.far
  have c_hlt := cR.hlt
  have c_pwr := cR.pwr
  unfold inject at eq0
  try dsimp only at eq0
  repeat' first | split at eq0 | (with_reducible rw [Option.bind_eq_some_iff] at eq0; obtain ⟨_, _, eq0⟩ := eq0) | (with_reducible rw [Option.map_eq_some_iff] at eq0; obtain ⟨_, _, rfl⟩ := eq0) | cases eq0
  all_goals repeat' first
    | (with_reducible first
        | intro _ | assumption | apply ite_within | apply State_modPrb_within | apply burst_within
        | apply crystalStop_within | apply faultHarness_within | apply hwdExpire_within | apply injectUnit_within
        | apply mark_within | apply nvArea_within | apply retireEngine_within | apply startCoarse_within
        | apply tapsFail_within | apply xtalLost_within)
    | (with_reducible eapply Ch.far c_far; eapply Ch.hlt c_hlt; eapply Ch.tb c_tb; eapply Ch.rsv c_rsv; eapply Ch.host c_host; first
        | assumption | apply State_modPrb_within | apply burst_within | apply crystalStop_within
        | apply faultHarness_within | apply hwdExpire_within | apply injectUnit_within | apply mark_within
        | apply nvArea_within | apply retireEngine_within | apply startCoarse_within | apply tapsFail_within
        | apply xtalLost_within | apply ite_within)
    | (with_reducible eapply Ch.far c_far; eapply Ch.hlt c_hlt; eapply Ch.tb c_tb; eapply Ch.rsv c_rsv; first
        | assumption | apply State_modPrb_within | apply burst_within | apply crystalStop_within
        | apply faultHarness_within | apply hwdExpire_within | apply injectUnit_within | apply mark_within
        | apply nvArea_within | apply retireEngine_within | apply startCoarse_within | apply tapsFail_within
        | apply xtalLost_within | apply ite_within)
    | (with_reducible eapply Ch.hlt c_hlt; eapply Ch.tb c_tb; eapply Ch.rsv c_rsv; eapply Ch.host c_host; first
        | assumption | apply State_modPrb_within | apply burst_within | apply crystalStop_within
        | apply faultHarness_within | apply hwdExpire_within | apply injectUnit_within | apply mark_within
        | apply nvArea_within | apply retireEngine_within | apply startCoarse_within | apply tapsFail_within
        | apply xtalLost_within | apply ite_within)
    | (with_reducible eapply Ch.far c_far; eapply Ch.hlt c_hlt; eapply Ch.tb c_tb; first
        | assumption | apply State_modPrb_within | apply burst_within | apply crystalStop_within
        | apply faultHarness_within | apply hwdExpire_within | apply injectUnit_within | apply mark_within
        | apply nvArea_within | apply retireEngine_within | apply startCoarse_within | apply tapsFail_within
        | apply xtalLost_within | apply ite_within)
    | (with_reducible eapply Ch.hlt c_hlt; eapply Ch.tb c_tb; eapply Ch.rsv c_rsv; first
        | assumption | apply State_modPrb_within | apply burst_within | apply crystalStop_within
        | apply faultHarness_within | apply hwdExpire_within | apply injectUnit_within | apply mark_within
        | apply nvArea_within | apply retireEngine_within | apply startCoarse_within | apply tapsFail_within
        | apply xtalLost_within | apply ite_within)
    | (with_reducible eapply Ch.tb c_tb; eapply Ch.rsv c_rsv; eapply Ch.host c_host; first
        | assumption | apply State_modPrb_within | apply burst_within | apply crystalStop_within
        | apply faultHarness_within | apply hwdExpire_within | apply injectUnit_within | apply mark_within
        | apply nvArea_within | apply retireEngine_within | apply startCoarse_within | apply tapsFail_within
        | apply xtalLost_within | apply ite_within)
    | (with_reducible eapply Ch.far c_far; eapply Ch.hlt c_hlt; first
        | assumption | apply State_modPrb_within | apply burst_within | apply crystalStop_within
        | apply faultHarness_within | apply hwdExpire_within | apply injectUnit_within | apply mark_within
        | apply nvArea_within | apply retireEngine_within | apply startCoarse_within | apply tapsFail_within
        | apply xtalLost_within | apply ite_within)
    | (with_reducible eapply Ch.hlt c_hlt; eapply Ch.tb c_tb; first
        | assumption | apply State_modPrb_within | apply burst_within | apply crystalStop_within
        | apply faultHarness_within | apply hwdExpire_within | apply injectUnit_within | apply mark_within
        | apply nvArea_within | apply retireEngine_within | apply startCoarse_within | apply tapsFail_within
        | apply xtalLost_within | apply ite_within)
    | (with_reducible eapply Ch.tb c_tb; eapply Ch.rsv c_rsv; first
        | assumption | apply State_modPrb_within | apply burst_within | apply crystalStop_within
        | apply faultHarness_within | apply hwdExpire_within | apply injectUnit_within | apply mark_within
        | apply nvArea_within | apply retireEngine_within | apply startCoarse_within | apply tapsFail_within
        | apply xtalLost_within | apply ite_within)
    | (with_reducible eapply Ch.rsv c_rsv; eapply Ch.host c_host; first
        | assumption | apply State_modPrb_within | apply burst_within | apply crystalStop_within
        | apply faultHarness_within | apply hwdExpire_within | apply injectUnit_within | apply mark_within
        | apply nvArea_within | apply retireEngine_within | apply startCoarse_within | apply tapsFail_within
        | apply xtalLost_within | apply ite_within)
    | (with_reducible eapply Ch.far c_far; first
        | assumption | apply State_modPrb_within | apply burst_within | apply crystalStop_within
        | apply faultHarness_within | apply hwdExpire_within | apply injectUnit_within | apply mark_within
        | apply nvArea_within | apply retireEngine_within | apply startCoarse_within | apply tapsFail_within
        | apply xtalLost_within | apply ite_within)
    | (with_reducible eapply Ch.hlt c_hlt; first
        | assumption | apply State_modPrb_within | apply burst_within | apply crystalStop_within
        | apply faultHarness_within | apply hwdExpire_within | apply injectUnit_within | apply mark_within
        | apply nvArea_within | apply retireEngine_within | apply startCoarse_within | apply tapsFail_within
        | apply xtalLost_within | apply ite_within)
    | (with_reducible eapply Ch.tb c_tb; first
        | assumption | apply State_modPrb_within | apply burst_within | apply crystalStop_within
        | apply faultHarness_within | apply hwdExpire_within | apply injectUnit_within | apply mark_within
        | apply nvArea_within | apply retireEngine_within | apply startCoarse_within | apply tapsFail_within
        | apply xtalLost_within | apply ite_within)
    | (with_reducible eapply Ch.rsv c_rsv; first
        | assumption | apply State_modPrb_within | apply burst_within | apply crystalStop_within
        | apply faultHarness_within | apply hwdExpire_within | apply injectUnit_within | apply mark_within
        | apply nvArea_within | apply retireEngine_within | apply startCoarse_within | apply tapsFail_within
        | apply xtalLost_within | apply ite_within)
    | (with_reducible eapply Ch.host c_host; first
        | assumption | apply State_modPrb_within | apply burst_within | apply crystalStop_within
        | apply faultHarness_within | apply hwdExpire_within | apply injectUnit_within | apply mark_within
        | apply nvArea_within | apply retireEngine_within | apply startCoarse_within | apply tapsFail_within
        | apply xtalLost_within | apply ite_within)
    | split
    | dsimp only

theorem claimF_within (ref : Bool) (s : State) (hq : Ch P q9 s) (c_irq : P .irq = true) :
    Ch P q9 (claimF ref s) := by
  unfold claimF
  repeat' first
    | (with_reducible first | intro _ | assumption | apply ite_within)
    | (with_reducible eapply Ch.irq c_irq; first | assumption | apply ite_within)
    | split
    | dsimp only

theorem claimH_within (ref : Bool) (s : State) (hq : Ch P q9 s) (c_irq : P .irq = true) :
    Ch P q9 (claimH ref s) := by
  unfold claimH
  repeat' first
    | (with_reducible first | intro _ | assumption | apply ite_within)
    | (with_reducible eapply Ch.irq c_irq; first | assumption | apply ite_within)
    | split
    | dsimp only

theorem clearWake_within (i : Nat) (s : State) (hq : Ch P q9 s) (c_rsv : P .rsv = true) :
    Ch P q9 (clearWake i s) := by
  unfold clearWake
  repeat' first
    | (with_reducible first | intro _ | assumption)
    | (with_reducible eapply Ch.rsv c_rsv; assumption)
    | split
    | dsimp only

theorem completeF_within (id : Byte) (s : State) (hq : Ch P q9 s) (c_rsv : P .rsv = true) (c_irq : P .irq = true) :
    Ch P q9 (completeF id s) := by
  unfold completeF
  repeat' first
    | (with_reducible first | intro _ | assumption | apply ite_within | apply clearWake_within)
    | (with_reducible eapply Ch.irq c_irq; first | assumption | apply clearWake_within | apply ite_within)
    | (dsimp only [id]; assumption)
    | split
    | dsimp only

theorem completeH_within (id : Byte) (s : State) (hq : Ch P q9 s) (c_rsv : P .rsv = true) (c_irq : P .irq = true) :
    Ch P q9 (completeH id s) := by
  unfold completeH
  repeat' first
    | (with_reducible first | intro _ | assumption | apply ite_within | apply clearWake_within)
    | (with_reducible eapply Ch.irq c_irq; first | assumption | apply clearWake_within | apply ite_within)
    | (dsimp only [id]; assumption)
    | split
    | dsimp only

theorem writeIrqWord_within (i : Fin 256) (v : W32) (s : State) (hq : Ch P q9 s) (c_irq : P .irq = true) :
    Ch P q9 (writeIrqWord i v s) := by
  unfold writeIrqWord
  repeat' first
    | (with_reducible first | intro _ | assumption | apply ite_within)
    | (with_reducible eapply Ch.irq c_irq; first | assumption | apply ite_within)
    | split
    | dsimp only

theorem unitReadFx_within (u : UnitId) (off : Nat) (s : State) (hq : Ch P q9 s) (c_units : P .units = true) :
    Ch P q9 (unitReadFx u off s) := by
  unfold unitReadFx
  repeat' first
    | (with_reducible first | intro _ | assumption | apply State_modUnit_within)
    | split
    | dsimp only

theorem unitWrite_within (u : UnitId) (off : Nat) (v : W32) (s : State) (hq : Ch P q9 s) (cE : EvOk P)
    (c_rsv : P .rsv = true) (c_units : P .units = true) (c_xing : P .xing = true) (c_arm : P .arm = true)
    (c_link : P .link = true) (c_har : P .har = true) (c_thr : P .thr = true) (c_lmap : P .lmap = true)
    (c_spw : P .spw = true) (c_host : P .host = true) :
    Ch P q9 (unitWrite u off v s) := by
  unfold unitWrite
  repeat' first
    | (with_reducible first
        | intro _ | assumption | apply ite_within | apply State_modUnit_within | apply force_within
        | apply injectUnit_within | apply unitOp_within | apply writeCtrl_within)
    | split
    | dsimp only

theorem harReadFx_within (h : HarnessId) (off : Nat) (s : State) (hq : Ch P q9 s) (c_har : P .har = true) :
    Ch P q9 (harReadFx h off s) := by
  unfold harReadFx
  repeat' first
    | (with_reducible first | intro _ | assumption | apply State_modHar_within)
    | split
    | dsimp only

theorem clearFaults_within (h : HarnessId) (m : W32) (s : State) (hq : Ch P q9 s) (c_har : P .har = true) :
    Ch P q9 (clearFaults h m s) := by
  unfold clearFaults
  repeat' first
    | (with_reducible first | intro _ | assumption | apply ite_within | apply State_modHar_within)
    | split
    | dsimp only

theorem harCfgErr_within (h : HarnessId) (s : State) (hq : Ch P q9 s) (c_har : P .har = true) :
    Ch P q9 (harCfgErr h s) := by
  unfold harCfgErr
  repeat' first
    | (with_reducible first | intro _ | assumption | apply State_modHar_within)
    | split
    | dsimp only

theorem harConfig_within (h : HarnessId) (off : Nat) (v : W32) (s : State) (hq : Ch P q9 s) (c_har : P .har = true) :
    Ch P q9 (harConfig h off v s) := by
  unfold harConfig
  repeat' first
    | (with_reducible first
        | intro _ | assumption | apply ite_within | apply State_modHar_within | apply harCfgErr_within)
    | split
    | dsimp only

theorem harWrite_within (h : HarnessId) (off : Nat) (v : W32) (s : State) (hq : Ch P q9 s) (cE : EvOk P)
    (c_units : P .units = true) (c_xing : P .xing = true) (c_link : P .link = true) (c_har : P .har = true) :
    Ch P q9 (harWrite h off v s) := by
  unfold harWrite
  repeat' first
    | (with_reducible first
        | intro _ | assumption | apply ite_within | apply actHarness_within | apply clearFaults_within
        | apply harConfig_within)
    | (with_reducible eapply Ch.link c_link; first
        | assumption | apply actHarness_within | apply clearFaults_within | apply harConfig_within | apply ite_within)
    | split
    | dsimp only

theorem gtReadFx_within (n : Fin 2) (off : Nat) (s : State) (hq : Ch P q9 s) (c_gt : P .gt = true) :
    Ch P q9 (gtReadFx n off s) := by
  unfold gtReadFx
  repeat' first
    | (with_reducible first | intro _ | assumption | apply State_modGt_within)
    | split
    | dsimp only

theorem gtWrite_within (n : Fin 2) (off : Nat) (v : W32) (s : State) (hq : Ch P q9 s) (cE : EvOk P)
    (c_rsv : P .rsv = true) (c_units : P .units = true) (c_xing : P .xing = true) (c_link : P .link = true)
    (c_har : P .har = true) (c_thr : P .thr = true) (c_eng : P .eng = true) (c_spw : P .spw = true)
    (c_gt : P .gt = true) :
    Ch P q9 (gtWrite n off v s) := by
  unfold gtWrite
  repeat' first
    | (with_reducible first
        | intro _ | assumption | apply ite_within | apply State_modGt_within | apply writeTracker_within)
    | split
    | dsimp only

theorem prbReadFx_within (off : Nat) (s : State) (hq : Ch P q9 s) (c_prb : P .prb = true) :
    Ch P q9 (prbReadFx off s) := by
  unfold prbReadFx
  repeat' first
    | (with_reducible first | intro _ | assumption | apply ite_within | apply State_modPrb_within)
    | split
    | dsimp only

theorem prbWrite_within (off : Nat) (v : W32) (s : State) (hq : Ch P q9 s) (c_conv : P .conv = true)
    (c_prb : P .prb = true) (c_ps : P .ps = true) :
    Ch P q9 (prbWrite off v s) := by
  unfold prbWrite
  repeat' first
    | (with_reducible first
        | intro _ | assumption | apply ite_within | apply State_modConv_within | apply State_modPrb_within
        | apply startConv_within)
    | split
    | dsimp only

theorem spwReadFx_within (off : Nat) (s : State) (hq : Ch P q9 s) (c_spw : P .spw = true) :
    Ch P q9 (spwReadFx off s) := by
  unfold spwReadFx
  repeat' first
    | (with_reducible first | intro _ | assumption | apply State_modSpw_within)
    | split
    | dsimp only

theorem spwWriteReg_within (off : Nat) (v : W32) (s : State) (hq : Ch P q9 s) (c_spw : P .spw = true) :
    Ch P q9 (spwWriteReg off v s) := by
  unfold spwWriteReg
  repeat' first
    | (with_reducible first | intro _ | assumption | apply ite_within | apply State_modSpw_within)
    | split
    | dsimp only

theorem ostReadFx_within (off : Nat) (s : State) (hq : Ch P q9 s) (c_thr : P .thr = true) (c_ost : P .ost = true) :
    Ch P q9 (ostReadFx off s) := by
  unfold ostReadFx
  repeat' first
    | (with_reducible first | intro _ | assumption | apply ite_within | apply State_modThr_within)
    | (with_reducible eapply Ch.ost c_ost; first | assumption | apply State_modThr_within | apply ite_within)
    | split
    | dsimp only

theorem ostWrite_within (off : Nat) (v : W32) (s : State) (hq : Ch P q9 s) (cE : EvOk P) (c_thr : P .thr = true)
    (c_eng : P .eng = true) (c_lmap : P .lmap = true) :
    Ch P q9 (ostWrite off v s) := by
  have c_bas := cE.bas
  have c_ost := cE.ost
  unfold ostWrite
  repeat' first
    | (with_reducible first
        | intro _ | assumption | apply ite_within | apply iteFst_within | apply State_modBas_within
        | apply State_modLMap_within | apply State_modThr_within | apply resettle_within | apply writeRdCnt_within
        | (apply writeRdCnt_within'; case eq0 => assumption))
    | (with_reducible eapply Ch.ost c_ost; first
        | assumption | apply State_modBas_within | apply State_modLMap_within | apply State_modThr_within
        | apply resettle_within | apply writeRdCnt_within | (apply writeRdCnt_within'; case eq0 => assumption)
        | apply ite_within)
    | (with_reducible eapply Ch.ost c_ost; dsimp only; first | (apply writeRdCnt_within'; case eq0 => assumption))
    | split
    | dsimp only

theorem ctxWrite_within (t : Tid) (off : Nat) (v : W32) (s : State) (hq : Ch P q9 s) (c_thr : P .thr = true)
    (c_hlt : P .hlt = true) :
    Ch P q9 (ctxWrite t off v s) := by
  unfold ctxWrite
  repeat' first
    | (with_reducible first
        | intro _ | assumption | apply ite_within | apply State_modThr_within | apply clearMarks_within)
    | split
    | dsimp only

theorem irqReadFx_within (off : Nat) (s : State) (hq : Ch P q9 s) (c_irq : P .irq = true) :
    Ch P q9 (irqReadFx off s) := by
  unfold irqReadFx
  repeat' first
    | (with_reducible first | intro _ | assumption | apply ite_within | apply claimF_within)
    | (with_reducible eapply Ch.irq c_irq; first | assumption | apply claimF_within | apply ite_within)
    | split
    | dsimp only

theorem irqWrite_within (off : Nat) (v : W32) (s : State) (hq : Ch P q9 s) (c_rsv : P .rsv = true)
    (c_irq : P .irq = true) :
    Ch P q9 (irqWrite off v s) := by
  unfold irqWrite
  repeat' first
    | (with_reducible first
        | intro _ | assumption | apply ite_within | apply completeF_within | apply writeIrqWord_within)
    | (with_reducible eapply Ch.irq c_irq; first | assumption | apply completeF_within | apply writeIrqWord_within | apply ite_within)
    | split
    | dsimp only

theorem pwrWrite_within (off : Nat) (v : W32) (s : State) (hq : Ch P q9 s) (cR : RsOk P) :
    Ch P q9 (pwrWrite off v s) := by
  have c_pwr := cR.pwr
  unfold pwrWrite
  repeat' first
    | (with_reducible first | intro _ | assumption | apply writeSwrst_within)
    | (with_reducible eapply Ch.pwr c_pwr; first | assumption | apply writeSwrst_within)
    | split
    | dsimp only

theorem tbReadFx_within (off : Nat) (s : State) (hq : Ch P q9 s) (c_tb : P .tb = true) :
    Ch P q9 (tbReadFx off s) := by
  unfold tbReadFx
  repeat' first
    | (with_reducible first | intro _ | assumption)
    | (with_reducible eapply Ch.tb c_tb; assumption)
    | split
    | dsimp only

theorem writeSsc_within (v : BitVec 2) (s : State) (hq : Ch P q9 s) (c_tb : P .tb = true) :
    Ch P q9 (writeSsc v s) := by
  unfold writeSsc
  repeat' first
    | (with_reducible first | intro _ | assumption | apply ite_within)
    | (with_reducible eapply Ch.tb c_tb; first | assumption | apply ite_within)
    | split
    | dsimp only

theorem tbWrite_within (off : Nat) (v : W32) (s : State) (hq : Ch P q9 s) (c_tb : P .tb = true)
    (c_rsv : P .rsv = true) :
    Ch P q9 (tbWrite off v s) := by
  unfold tbWrite
  repeat' first
    | (with_reducible first | intro _ | assumption | apply writeSsc_within)
    | (with_reducible eapply Ch.tb c_tb; eapply Ch.rsv c_rsv; first | assumption | apply writeSsc_within)
    | split
    | dsimp only

theorem rsvReadFx_within (off : Nat) (s : State) (hq : Ch P q9 s) (c_rsv : P .rsv = true) :
    Ch P q9 (rsvReadFx off s) := by
  unfold rsvReadFx
  repeat' first
    | (with_reducible first | intro _ | assumption | apply ite_within)
    | (with_reducible eapply Ch.rsv c_rsv; first | assumption | apply ite_within)
    | split
    | dsimp only

theorem rsvWrite_within (off : Nat) (v : W32) (s : State) (hq : Ch P q9 s) (c_rsv : P .rsv = true)
    (c_ps : P .ps = true) (c_irq : P .irq = true) (c_far : P .far = true) (c_hlt : P .hlt = true)
    (c_pwr : P .pwr = true) :
    Ch P q9 (rsvWrite off v s) := by
  unfold rsvWrite
  repeat' first
    | (with_reducible first
        | intro _ | assumption | apply ite_within | apply clearMarks_within | apply writeTalarm_within)
    | (with_reducible eapply Ch.rsv c_rsv; first | assumption | apply clearMarks_within | apply writeTalarm_within | apply ite_within)
    | split
    | dsimp only

theorem hltReadFx_within (off : Nat) (s : State) (hq : Ch P q9 s) (c_xing : P .xing = true) (c_link : P .link = true)
    (c_hlt : P .hlt = true) :
    Ch P q9 (hltReadFx off s) := by
  unfold hltReadFx
  repeat' first
    | (with_reducible first | intro _ | assumption | apply ite_within)
    | (with_reducible eapply Ch.hlt c_hlt; eapply Ch.xing c_xing; eapply Ch.link c_link; first | assumption | apply ite_within)
    | (with_reducible eapply Ch.hlt c_hlt; eapply Ch.xing c_xing; first | assumption | apply ite_within)
    | (with_reducible eapply Ch.hlt c_hlt; eapply Ch.link c_link; first | assumption | apply ite_within)
    | (with_reducible eapply Ch.xing c_xing; eapply Ch.link c_link; first | assumption | apply ite_within)
    | (with_reducible eapply Ch.hlt c_hlt; first | assumption | apply ite_within)
    | (with_reducible eapply Ch.xing c_xing; first | assumption | apply ite_within)
    | (with_reducible eapply Ch.link c_link; first | assumption | apply ite_within)
    | split
    | dsimp only

theorem hltWrite_within (off : Nat) (v : W32) (s : State) (hq : Ch P q9 s) (c_xing : P .xing = true)
    (c_link : P .link = true) (c_far : P .far = true) :
    Ch P q9 (hltWrite off v s) := by
  unfold hltWrite
  repeat' first
    | (with_reducible first | intro _ | assumption | apply ite_within | apply wdtService_within)
    | (with_reducible eapply Ch.xing c_xing; eapply Ch.link c_link; first | assumption | apply wdtService_within | apply ite_within)
    | (with_reducible eapply Ch.xing c_xing; first | assumption | apply wdtService_within | apply ite_within)
    | (with_reducible eapply Ch.link c_link; first | assumption | apply wdtService_within | apply ite_within)
    | split
    | dsimp only

theorem busReadFx_within (a : W32) (s : State) (hq : Ch P q9 s) (cR : RsOk P) :
    Ch P q9 (busReadFx a s) := by
  have c_tb := cR.tb
  have c_rsv := cR.rsv
  have c_units := cR.units
  have c_xing := cR.xing
  have c_link := cR.link
  have c_har := cR.har
  have c_thr := cR.thr
  have c_ost := cR.ost
  have c_spw := cR.spw
  have c_gt := cR.gt
  have c_prb := cR.prb
  have c_irq := cR.irq
  have c_hlt := cR.hlt
  unfold busReadFx
  repeat' first
    | (with_reducible first
        | intro _ | assumption | apply ite_within | apply gtReadFx_within | apply harReadFx_within
        | apply hltReadFx_within | apply irqReadFx_within | apply ostReadFx_within | apply prbReadFx_within
        | apply readWord_within | apply rsvReadFx_within | apply spwReadFx_within | apply tbReadFx_within
        | apply unitReadFx_within)
    | split
    | dsimp only

theorem busWrite_within (a v : W32) (s : State) (hq : Ch P q9 s) (cR : RsOk P) :
    Ch P q9 (busWrite a v s) := by
  have cE := cR.toEvOk
  have c_tb := cR.tb
  have c_rsv := cR.rsv
  have c_units := cR.units
  have c_tio := cR.tio
  have c_xing := cR.xing
  have c_arm := cR.arm
  have c_link := cR.link
  have c_har := cR.har
  have c_thr := cR.thr
  have c_eng := cR.eng
  have c_bmem := cR.bmem
  have c_lmap := cR.lmap
  have c_spw := cR.spw
  have c_gt := cR.gt
  have c_conv := cR.conv
  have c_prb := cR.prb
  have c_ps := cR.ps
  have c_host := cR.host
  have c_irq := cR.irq
  have c_far := cR.far
  have c_hlt := cR.hlt
  have c_pwr := cR.pwr
  unfold busWrite
  repeat' first
    | (with_reducible first
        | intro _ | assumption | apply clearMarks_within | apply ctxWrite_within | apply gtWrite_within
        | apply harWrite_within | apply hltWrite_within | apply irqWrite_within | apply ostWrite_within
        | apply prbWrite_within | apply pwrWrite_within | apply rsvWrite_within | apply spwWriteReg_within
        | apply tbWrite_within | apply unitWrite_within | apply writeTio_within)
    | (with_reducible eapply Ch.bmem c_bmem; first
        | assumption | apply clearMarks_within | apply ctxWrite_within | apply gtWrite_within | apply harWrite_within
        | apply hltWrite_within | apply irqWrite_within | apply ostWrite_within | apply prbWrite_within
        | apply pwrWrite_within | apply rsvWrite_within | apply spwWriteReg_within | apply tbWrite_within
        | apply unitWrite_within | apply writeTio_within)
    | split
    | dsimp only

theorem rcHeldOne_within (a : W32) (inc : BitVec 4) (max : W16) (s : State) (hq : Ch P q9 s) (c_tb : P .tb = true)
    (c_units : P .units = true) (c_xing : P .xing = true) (c_link : P .link = true) (c_har : P .har = true)
    (c_thr : P .thr = true) (c_ost : P .ost = true) (c_spw : P .spw = true) (c_gt : P .gt = true)
    (c_irq : P .irq = true) (c_hlt : P .hlt = true) :
    Ch P q9 (rcHeldOne a inc max s) := by
  unfold rcHeldOne
  repeat' first
    | (with_reducible first
        | intro _ | assumption | apply ite_within | apply forEach_within | apply State_modGt_within
        | apply State_modHar_within | apply State_modSpw_within | apply State_modThr_within
        | apply State_modUnit_within | apply State_modXing_within | apply forEach_within)
    | (with_reducible eapply Ch.tb c_tb; eapply Ch.ost c_ost; eapply Ch.irq c_irq; eapply Ch.hlt c_hlt; eapply Ch.link c_link; first
        | assumption | apply State_modGt_within | apply State_modHar_within | apply State_modSpw_within
        | apply State_modThr_within | apply State_modUnit_within | apply State_modXing_within | apply forEach_within
        | apply ite_within | apply forEach_within)
    | (with_reducible eapply Ch.tb c_tb; eapply Ch.ost c_ost; eapply Ch.irq c_irq; eapply Ch.hlt c_hlt; first
        | assumption | apply State_modGt_within | apply State_modHar_within | apply State_modSpw_within
        | apply State_modThr_within | apply State_modUnit_within | apply State_modXing_within | apply forEach_within
        | apply ite_within | apply forEach_within)
    | (with_reducible eapply Ch.ost c_ost; eapply Ch.irq c_irq; eapply Ch.hlt c_hlt; eapply Ch.link c_link; first
        | assumption | apply State_modGt_within | apply State_modHar_within | apply State_modSpw_within
        | apply State_modThr_within | apply State_modUnit_within | apply State_modXing_within | apply forEach_within
        | apply ite_within | apply forEach_within)
    | (with_reducible eapply Ch.tb c_tb; eapply Ch.ost c_ost; eapply Ch.irq c_irq; first
        | assumption | apply State_modGt_within | apply State_modHar_within | apply State_modSpw_within
        | apply State_modThr_within | apply State_modUnit_within | apply State_modXing_within | apply forEach_within
        | apply ite_within | apply forEach_within)
    | (with_reducible eapply Ch.ost c_ost; eapply Ch.irq c_irq; eapply Ch.hlt c_hlt; first
        | assumption | apply State_modGt_within | apply State_modHar_within | apply State_modSpw_within
        | apply State_modThr_within | apply State_modUnit_within | apply State_modXing_within | apply forEach_within
        | apply ite_within | apply forEach_within)
    | (with_reducible eapply Ch.irq c_irq; eapply Ch.hlt c_hlt; eapply Ch.link c_link; first
        | assumption | apply State_modGt_within | apply State_modHar_within | apply State_modSpw_within
        | apply State_modThr_within | apply State_modUnit_within | apply State_modXing_within | apply forEach_within
        | apply ite_within | apply forEach_within)
    | (with_reducible eapply Ch.tb c_tb; eapply Ch.ost c_ost; first
        | assumption | apply State_modGt_within | apply State_modHar_within | apply State_modSpw_within
        | apply State_modThr_within | apply State_modUnit_within | apply State_modXing_within | apply forEach_within
        | apply ite_within | apply forEach_within)
    | (with_reducible eapply Ch.ost c_ost; eapply Ch.irq c_irq; first
        | assumption | apply State_modGt_within | apply State_modHar_within | apply State_modSpw_within
        | apply State_modThr_within | apply State_modUnit_within | apply State_modXing_within | apply forEach_within
        | apply ite_within | apply forEach_within)
    | (with_reducible eapply Ch.irq c_irq; eapply Ch.hlt c_hlt; first
        | assumption | apply State_modGt_within | apply State_modHar_within | apply State_modSpw_within
        | apply State_modThr_within | apply State_modUnit_within | apply State_modXing_within | apply forEach_within
        | apply ite_within | apply forEach_within)
    | (with_reducible eapply Ch.hlt c_hlt; eapply Ch.link c_link; first
        | assumption | apply State_modGt_within | apply State_modHar_within | apply State_modSpw_within
        | apply State_modThr_within | apply State_modUnit_within | apply State_modXing_within | apply forEach_within
        | apply ite_within | apply forEach_within)
    | (with_reducible eapply Ch.tb c_tb; first
        | assumption | apply State_modGt_within | apply State_modHar_within | apply State_modSpw_within
        | apply State_modThr_within | apply State_modUnit_within | apply State_modXing_within | apply forEach_within
        | apply ite_within | apply forEach_within)
    | (with_reducible eapply Ch.ost c_ost; first
        | assumption | apply State_modGt_within | apply State_modHar_within | apply State_modSpw_within
        | apply State_modThr_within | apply State_modUnit_within | apply State_modXing_within | apply forEach_within
        | apply ite_within | apply forEach_within)
    | (with_reducible eapply Ch.irq c_irq; first
        | assumption | apply State_modGt_within | apply State_modHar_within | apply State_modSpw_within
        | apply State_modThr_within | apply State_modUnit_within | apply State_modXing_within | apply forEach_within
        | apply ite_within | apply forEach_within)
    | (with_reducible eapply Ch.hlt c_hlt; first
        | assumption | apply State_modGt_within | apply State_modHar_within | apply State_modSpw_within
        | apply State_modThr_within | apply State_modUnit_within | apply State_modXing_within | apply forEach_within
        | apply ite_within | apply forEach_within)
    | (with_reducible eapply Ch.link c_link; first
        | assumption | apply State_modGt_within | apply State_modHar_within | apply State_modSpw_within
        | apply State_modThr_within | apply State_modUnit_within | apply State_modXing_within | apply forEach_within
        | apply ite_within | apply forEach_within)
    | split
    | dsimp only

theorem execLoWordLatchRead_within (addr : W32) (s : State) {s9 : State} (hq : Ch P q9 s) (cR : RsOk P)
    (eq0 : execLoWordLatchRead addr s = .next s9) :
    Ch P q9 s9 := by
  unfold execLoWordLatchRead at eq0
  try dsimp only at eq0
  repeat' first | split at eq0 | (injection eq0 with eq0; subst eq0) | cases eq0
  all_goals repeat' first
    | dsimp only [GRes.all_ok, GRes.all_jump, GRes.all_trap, GRes.all_stop, Ans.all_reply, Ans.all_later, Ans.all_waits]
    | (with_reducible first | intro _ | assumption | exact True.intro | apply ite_within | apply busReadFx_within)
    | split
    | dsimp only

theorem execCapHiRead_within (u : UnitId) (fall : Bool) (s : State) {s9 : State} (hq : Ch P q9 s)
    (c_units : P .units = true) (eq0 : execCapHiRead u fall s = .next s9) :
    Ch P q9 s9 := by
  unfold execCapHiRead at eq0
  have e1 := Host.Outcome.next.inj eq0
  rw [← e1]
  repeat' first
    | dsimp only [GRes.all_ok, GRes.all_jump, GRes.all_trap, GRes.all_stop, Ans.all_reply, Ans.all_later, Ans.all_waits]
    | (with_reducible first | intro _ | assumption | exact True.intro | apply State_modUnit_within)
    | split
    | dsimp only

theorem execPwRead_within (u : UnitId) (s : State) {s9 : State} (hq : Ch P q9 s) (c_units : P .units = true)
    (eq0 : execPwRead u s = .next s9) :
    Ch P q9 s9 := by
  unfold execPwRead at eq0
  have e1 := Host.Outcome.next.inj eq0
  rw [← e1]
  repeat' first
    | dsimp only [GRes.all_ok, GRes.all_jump, GRes.all_trap, GRes.all_stop, Ans.all_reply, Ans.all_later, Ans.all_waits]
    | (with_reducible first | intro _ | assumption | exact True.intro | apply State_modUnit_within)
    | split
    | dsimp only

theorem execRcFieldRead_within (addr : W32) (inc : BitVec 4) (max : W16) (s : State) {s9 : State} (hq : Ch P q9 s)
    (cR : RsOk P) (eq0 : execRcFieldRead addr inc max s = .next s9) :
    Ch P q9 s9 := by
  have c_tb := cR.tb
  have c_units := cR.units
  have c_xing := cR.xing
  have c_link := cR.link
  have c_har := cR.har
  have c_thr := cR.thr
  have c_ost := cR.ost
  have c_spw := cR.spw
  have c_gt := cR.gt
  have c_irq := cR.irq
  have c_hlt := cR.hlt
  unfold execRcFieldRead at eq0
  try dsimp only at eq0
  repeat' first | split at eq0 | (injection eq0 with eq0; subst eq0) | cases eq0
  all_goals repeat' first
    | dsimp only [GRes.all_ok, GRes.all_jump, GRes.all_trap, GRes.all_stop, Ans.all_reply, Ans.all_later, Ans.all_waits]
    | (with_reducible first
        | intro _ | assumption | exact True.intro | apply ite_within | apply busReadFx_within | apply rcHeldOne_within)
    | split
    | dsimp only

theorem execRatioRead_within (p : Fin 16) (s : State) {s9 : State} (hq : Ch P q9 s) (c_prb : P .prb = true)
    (eq0 : execRatioRead p s = .next s9) :
    Ch P q9 s9 := by
  unfold execRatioRead at eq0
  have e1 := Host.Outcome.next.inj eq0
  rw [← e1]
  repeat' first
    | dsimp only [GRes.all_ok, GRes.all_jump, GRes.all_trap, GRes.all_stop, Ans.all_reply, Ans.all_later, Ans.all_waits]
    | (with_reducible first | intro _ | assumption | exact True.intro | apply State_modPrb_within)
    | split
    | dsimp only

theorem execRegisterWrite_within (addr v hw : W32) (s : State) {s9 : State} (hq : Ch P q9 s) (cR : RsOk P)
    (eq0 : execRegisterWrite addr v hw s = .next s9) :
    Ch P q9 s9 := by
  unfold execRegisterWrite at eq0
  try dsimp only at eq0
  repeat' first | split at eq0 | (injection eq0 with eq0; subst eq0) | cases eq0
  all_goals repeat' first
    | dsimp only [GRes.all_ok, GRes.all_jump, GRes.all_trap, GRes.all_stop, Ans.all_reply, Ans.all_later, Ans.all_waits]
    | (with_reducible first | intro _ | assumption | exact True.intro | apply ite_within | apply busWrite_within)
    | split
    | dsimp only

theorem captureConfirm_within (e : XEv) (s : State) (hq : Ch P q9 s) (c_spw : P .spw = true) :
    Ch P q9 (captureConfirm e s) := by
  unfold captureConfirm
  repeat' first
    | (with_reducible first | intro _ | assumption | apply ite_within | apply confirmWhere_within)
    | split
    | dsimp only

theorem secondaryPulse_within (e : XEv) (n : Fin 2) (s : State) (hq : Ch P q9 s) (c_gt : P .gt = true) :
    Ch P q9 (secondaryPulse e n s) := by
  unfold secondaryPulse
  repeat' first
    | (with_reducible first | intro _ | assumption | apply ite_within | apply State_modGt_within)
    | split
    | dsimp only

theorem toTracker_within (e : XEv) (n : Fin 2) (s : State) (hq : Ch P q9 s) (c_gt : P .gt = true) :
    Ch P q9 (toTracker e n s) := by
  unfold toTracker
  repeat' first
    | (with_reducible first | intro _ | assumption | apply ite_within | apply State_modGt_within)
    | split
    | dsimp only

theorem phaseCrossing_within (e : XEv) (h : HarnessId) (s : State) (hq : Ch P q9 s) (cE : EvOk P)
    (c_units : P .units = true) (c_xing : P .xing = true) (c_link : P .link = true) (c_har : P .har = true)
    (c_thr : P .thr = true) (c_lmap : P .lmap = true) (c_host : P .host = true) :
    Ch P q9 (phaseCrossing e h s) := by
  unfold phaseCrossing
  repeat' first
    | (with_reducible first | intro _ | assumption | apply ite_within | apply bemfCrossing_within)
    | split
    | dsimp only

theorem dispatch_within (e : XEv) (s : State) (hq : Ch P q9 s) (cE : EvOk P) (c_units : P .units = true)
    (c_xing : P .xing = true) (c_link : P .link = true) (c_har : P .har = true) (c_thr : P .thr = true)
    (c_eng : P .eng = true) (c_lmap : P .lmap = true) (c_spw : P .spw = true) (c_gt : P .gt = true)
    (c_host : P .host = true) :
    Ch P q9 (dispatch e s) := by
  unfold dispatch
  repeat' first
    | (with_reducible first
        | intro _ | assumption | apply ite_within | apply forEach_within | apply State_modEng_within
        | apply State_modLMap_within | apply captureConfirm_within | apply enqueue_within | apply forEach_within
        | apply phaseCrossing_within | apply postBasin_within | apply secondaryPulse_within | apply toTracker_within)
    | split
    | dsimp only

theorem takeEvent_within (x : Fin 70) (s : State) (hq : Ch P q9 s) (cE : EvOk P) (c_units : P .units = true)
    (c_xing : P .xing = true) (c_link : P .link = true) (c_har : P .har = true) (c_thr : P .thr = true)
    (c_eng : P .eng = true) (c_lmap : P .lmap = true) (c_spw : P .spw = true) (c_gt : P .gt = true)
    (c_host : P .host = true) :
    Ch P q9 (takeEvent x s) := by
  have c_ost := cE.ost
  unfold takeEvent
  repeat' first
    | (with_reducible first
        | intro _ | assumption | apply ite_within | apply State_modXing_within | apply dispatch_within)
    | (with_reducible eapply Ch.ost c_ost; first | assumption | apply State_modXing_within | apply dispatch_within | apply ite_within)
    | split
    | dsimp only

theorem execEventDispatch_within (t : Instant) (x : Fin 68) (s : State) {s9 : State} (hq : Ch P q9 s) (cE : EvOk P)
    (c_tb : P .tb = true) (c_units : P .units = true) (c_xing : P .xing = true) (c_link : P .link = true)
    (c_har : P .har = true) (c_thr : P .thr = true) (c_eng : P .eng = true) (c_lmap : P .lmap = true)
    (c_spw : P .spw = true) (c_gt : P .gt = true) (c_host : P .host = true)
    (eq0 : execEventDispatch t x s = .next s9) :
    Ch P q9 s9 := by
  unfold execEventDispatch at eq0
  try dsimp only at eq0
  repeat' first | (apply event_within; case eq0 => assumption) | split at eq0 | (injection eq0 with eq0; subst eq0) | cases eq0
  all_goals repeat' first
    | dsimp only [GRes.all_ok, GRes.all_jump, GRes.all_trap, GRes.all_stop, Ans.all_reply, Ans.all_later, Ans.all_waits]
    | (with_reducible first | intro _ | assumption | exact True.intro | apply takeEvent_within)
    | split
    | dsimp only

theorem execLinkWriteFrame_within (s : State) {s9 : State} (hq : Ch P q9 s) (c_link : P .link = true)
    (c_har : P .har = true) (c_host : P .host = true) (eq0 : execLinkWriteFrame s = .next s9) :
    Ch P q9 s9 := by
  unfold execLinkWriteFrame at eq0
  have e1 := Host.Outcome.next.inj eq0
  rw [← e1]
  repeat' first
    | dsimp only [GRes.all_ok, GRes.all_jump, GRes.all_trap, GRes.all_stop, Ans.all_reply, Ans.all_later, Ans.all_waits]
    | (with_reducible first | intro _ | assumption | exact True.intro | apply cfgStep_within | apply harConfig_within)
    | (with_reducible eapply Ch.link c_link; first | assumption | apply cfgStep_within | apply harConfig_within)
    | split
    | dsimp only

theorem execLinkFrameCrcFail_within (t : Instant) (own : Bool) (s : State) {s9 : State} (hq : Ch P q9 s) (cE : EvOk P)
    (c_tb : P .tb = true) (c_units : P .units = true) (c_xing : P .xing = true) (c_link : P .link = true)
    (c_har : P .har = true) (c_host : P .host = true) (eq0 : execLinkFrameCrcFail t own s = .next s9) :
    Ch P q9 s9 := by
  unfold execLinkFrameCrcFail at eq0
  try dsimp only at eq0
  repeat' first | (apply event_within; case eq0 => assumption) | split at eq0 | (injection eq0 with eq0; subst eq0) | cases eq0
  all_goals repeat' first
    | dsimp only [GRes.all_ok, GRes.all_jump, GRes.all_trap, GRes.all_stop, Ans.all_reply, Ans.all_later, Ans.all_waits]
    | (with_reducible first
        | intro _ | assumption | exact True.intro | apply ite_within | apply cfgStep_within | apply linkFault_within)
    | (with_reducible eapply Ch.link c_link; first | assumption | apply cfgStep_within | apply linkFault_within | apply ite_within)
    | split
    | dsimp only

theorem execFaultFrame_within (t : Instant) (h : HarnessId) (code : Byte) (member : Byte) (sense : BitVec 10)
    (s : State) {s9 : State} (hq : Ch P q9 s) (cE : EvOk P) (c_tb : P .tb = true) (c_units : P .units = true)
    (c_xing : P .xing = true) (c_link : P .link = true) (c_har : P .har = true) (c_host : P .host = true)
    (eq0 : execFaultFrame t h code member sense s = .next s9) :
    Ch P q9 s9 := by
  unfold execFaultFrame at eq0
  try dsimp only at eq0
  repeat' first | (apply event_within; case eq0 => assumption) | split at eq0 | (injection eq0 with eq0; subst eq0) | cases eq0
  all_goals repeat' first
    | dsimp only [GRes.all_ok, GRes.all_jump, GRes.all_trap, GRes.all_stop, Ans.all_reply, Ans.all_later, Ans.all_waits]
    | (with_reducible first
        | intro _ | assumption | exact True.intro | apply ite_within | apply State_modHar_within
        | apply faultHarness_within)
    | (with_reducible eapply Ch.link c_link; first | assumption | apply State_modHar_within | apply faultHarness_within | apply ite_within)
    | split
    | dsimp only

end Sys2Proof.Machine
end

