-- ==== Sys2Proof/Laws/PartsGroom.lean ====
section
/-! SUPPORT. For each function of the model, the parts of the state it may change: GroomOps, GroomAlu, GroomMem,
GroomCtl, GroomChan. -/

namespace Sys2Proof.Machine

open Sys2Proof.Claims

set_option maxRecDepth 4096

variable {P : Part → Bool} {q9 : State}

theorem haltThread_within (tid : Tid) (s : State) (hq : Ch P q9 s) (c_thr : P .thr = true) :
    Ch P q9 (haltThread tid s) := by
  unfold haltThread
  repeat' first
    | (with_reducible first | intro _ | assumption | apply ite_within | apply State_modThr_within)
    | split
    | dsimp only

theorem matchHalt_within (tid : Tid) (all : Bool) (cause : BitVec 3) (s : State) (hq : Ch P q9 s)
    (c_thr : P .thr = true) (c_eng : P .eng = true) :
    Ch P q9 (matchHalt tid all cause s) := by
  unfold matchHalt
  repeat' first
    | (with_reducible first
        | intro _ | assumption | apply ite_within | apply forEach_within | apply State_modEng_within
        | apply forEach_within | apply haltThread_within)
    | split
    | dsimp only

theorem setReg_within (tid : Tid) (rd : BitVec 4) (v : W64) (s : State) (hq : Ch P q9 s) (c_thr : P .thr = true)
    (c_hlt : P .hlt = true) :
    Ch P q9 (setReg tid rd v s) := by
  unfold setReg
  repeat' first
    | (with_reducible first | intro _ | assumption | apply State_modCtx_within | apply clearMarks_within)
    | split
    | dsimp only

theorem trapThread_within (tid : Tid) (cause sub : Byte) (s : State) (hq : Ch P q9 s) (cE : EvOk P)
    (c_thr : P .thr = true) (c_frm : P .frm = true) (c_spw : P .spw = true) :
    Ch P q9 (trapThread tid cause sub s) := by
  unfold trapThread
  repeat' first
    | (with_reducible first
        | intro _ | assumption | apply ite_within | apply State_modThr_within | apply gotoPc_within
        | apply stopThread_within)
    | split
    | dsimp only

theorem addCycles_within (tid : Tid) (n : Nat) (s : State) (hq : Ch P q9 s) (c_thr : P .thr = true) :
    Ch P q9 (addCycles tid n s) := by
  unfold addCycles
  repeat' first
    | (with_reducible first | intro _ | assumption | apply State_modThr_within)
    | split
    | dsimp only

theorem advancePc_within (tid : Tid) (s : State) (hq : Ch P q9 s) (cE : EvOk P) (c_thr : P .thr = true)
    (c_frm : P .frm = true) (c_spw : P .spw = true) :
    Ch P q9 (advancePc tid s) := by
  unfold advancePc
  repeat' first
    | (with_reducible first
        | intro _ | assumption | apply ite_within | apply State_modCtx_within | apply State_modThr_within
        | apply gotoPc_within | apply trapThread_within)
    | split
    | dsimp only

theorem endStep_within (tid : Tid) (s : State) (hq : Ch P q9 s) (c_thr : P .thr = true) (c_eng : P .eng = true) :
    Ch P q9 (endStep tid s) := by
  unfold endStep
  repeat' first
    | (with_reducible first
        | intro _ | assumption | apply ite_within | apply State_modEng_within | apply State_modThr_within)
    | split
    | dsimp only

theorem perform_within (tid : Tid) (body : State → GRes) (s : State) (hq : Ch P q9 s)
    (k_body : ∀ x, Ch P q9 x → (body x).All fun t => Ch P q9 t) (cE : EvOk P) (c_thr : P .thr = true)
    (c_frm : P .frm = true) (c_spw : P .spw = true) :
    Ch P q9 (perform tid body s) := by
  unfold perform
  repeat' first
    | dsimp only [GRes.all_ok, GRes.all_jump, GRes.all_trap, GRes.all_stop, Ans.all_reply, Ans.all_later, Ans.all_waits]
    | (with_reducible first
        | intro _ | assumption | exact True.intro | (apply GRes.ok_within; case eq0 => assumption)
        | (apply GRes.jump_within; case eq0 => assumption) | (apply GRes.stop_within; case eq0 => assumption)
        | apply k_body | apply addCycles_within | apply advancePc_within | apply gotoPc_within
        | apply trapThread_within)
    | split
    | dsimp only

theorem fetchPage_within (tid : Tid) (s : State) (hq : Ch P q9 s) (cR : RsOk P) :
    Ch P q9 ((fetchPage tid s).1) := by
  have cE := cR.toEvOk
  have c_thr := cR.thr
  have c_frm := cR.frm
  have c_spw := cR.spw
  unfold fetchPage
  repeat' first
    | (with_reducible first
        | intro _ | assumption | apply ite_within | apply iteFst_within | apply enterPage_within
        | apply readWord_within)
    | split
    | dsimp only

theorem fetchPage_within' (tid : Tid) (s : State) {s9 : State} {x9 : _} (hq : Ch P q9 s) (cR : RsOk P)
    (eq0 : fetchPage tid s = (s9, x9)) :
    Ch P q9 s9 := by
  have e2 := fetchPage_within tid s hq cR
  rw [eq0] at e2
  exact e2

theorem takeCycle_within (tid : Tid) (s : State) (hq : Ch P q9 s) (c_thr : P .thr = true) (c_eng : P .eng = true) :
    Ch P q9 (takeCycle tid s) := by
  unfold takeCycle
  repeat' first
    | (with_reducible first | intro _ | assumption | apply State_modEng_within | apply State_modThr_within)
    | split
    | dsimp only

theorem noteIssue_within (tid : Tid) (s : State) (hq : Ch P q9 s) (c_thr : P .thr = true) (c_eng : P .eng = true)
    (c_frm : P .frm = true) (c_ost : P .ost = true) (c_far : P .far = true) :
    Ch P q9 (noteIssue tid s) := by
  unfold noteIssue
  repeat' first
    | (with_reducible first | intro _ | assumption | apply prefetch_within | apply takeCycle_within | apply touch_within)
    | split
    | dsimp only

theorem readWords_within (tid : Tid) (m : Byte) (l : List Nat) (s : State) (hq : Ch P q9 s) (cR : RsOk P) :
    Ch P q9 ((readWords tid m l s).1) := by
  have cE := cR.toEvOk
  have c_thr := cR.thr
  have c_spw := cR.spw
  induction l generalizing s with
  | nil => exact hq
  | cons w r ih =>
    unfold readWords
    split
    · exact ih s hq
    · split
      · apply stopThread_within <;> first | assumption | (apply readWord_within <;> assumption)
      · apply ih; apply readWord_within <;> assumption

theorem readWords_within' (tid : Tid) (m : Byte) (l : List Nat) (s : State) {s9 : State} {x9 : _} (hq : Ch P q9 s)
    (cR : RsOk P) (eq0 : readWords tid m l s = (s9, x9)) :
    Ch P q9 s9 := by
  have e2 := readWords_within tid m l s hq cR
  rw [eq0] at e2
  exact e2

theorem issueThen_within (after : State → State) (tid : Tid) (regs : List (BitVec 4)) (body : State → GRes)
    (s : State) (hq : Ch P q9 s) (k_after : ∀ x, Ch P q9 x → Ch P q9 (after x))
    (k_body : ∀ x, Ch P q9 x → (body x).All fun t => Ch P q9 t) (cR : RsOk P) :
    Ch P q9 (issueThen after tid regs body s) := by
  have cE := cR.toEvOk
  have c_thr := cR.thr
  have c_eng := cR.eng
  have c_frm := cR.frm
  have c_ost := cR.ost
  have c_spw := cR.spw
  have c_far := cR.far
  unfold issueThen
  repeat' first
    | dsimp only [GRes.all_ok, GRes.all_jump, GRes.all_trap, GRes.all_stop, Ans.all_reply, Ans.all_later, Ans.all_waits]
    | (with_reducible first
        | intro _ | assumption | exact True.intro | apply ite_within | apply iteFst_within | apply k_after
        | apply k_body | apply endStep_within | apply fetchPage_within
        | (apply fetchPage_within'; case eq0 => assumption) | apply matchHalt_within | apply noteIssue_within
        | apply perform_within | apply readWords_within | (apply readWords_within'; case eq0 => assumption)
        | apply trapThread_within)
    | split
    | dsimp only

theorem issue_within (tid : Tid) (regs : List (BitVec 4)) (body : State → GRes) (s : State) (hq : Ch P q9 s)
    (k_body : ∀ x, Ch P q9 x → (body x).All fun t => Ch P q9 t) (cR : RsOk P) :
    Ch P q9 (issue tid regs body s) := by
  unfold issue
  repeat' first
    | dsimp only [GRes.all_ok, GRes.all_jump, GRes.all_trap, GRes.all_stop, Ans.all_reply, Ans.all_later, Ans.all_waits]
    | (with_reducible first | intro _ | assumption | exact True.intro | apply k_body | apply issueThen_within)
    | (dsimp only [id]; assumption)
    | split
    | dsimp only

theorem watch_within (tid : Tid) (addr : W64) (read write : Bool) (s : State) (hq : Ch P q9 s) (c_thr : P .thr = true)
    (c_eng : P .eng = true) :
    Ch P q9 (watch tid addr read write s) := by
  unfold watch
  repeat' first
    | (with_reducible first | intro _ | assumption | apply ite_within | apply matchHalt_within)
    | split
    | dsimp only

theorem loadBody_within (tid : Tid) (rd : BitVec 4) (addr : W64) (n : Nat) (s : State) (hq : Ch P q9 s)
    (cR : RsOk P) :
    (loadBody tid rd addr n s).All fun t => Ch P q9 t := by
  have c_thr := cR.thr
  have c_hlt := cR.hlt
  unfold loadBody
  repeat' first
    | dsimp only [GRes.all_ok, GRes.all_jump, GRes.all_trap, GRes.all_stop, Ans.all_reply, Ans.all_later, Ans.all_waits]
    | (with_reducible first
        | intro _ | assumption | exact True.intro | apply readWords_within
        | (apply readWords_within'; case eq0 => assumption) | apply setReg_within)
    | split
    | dsimp only

theorem DataRef_store_within (tid : Tid) (n : Nat) (v : W64) (s : State) (r : DataRef) (hq : Ch P q9 s)
    (c_thr : P .thr = true) (c_prog : P .prog = true) :
    Ch P q9 (DataRef.store tid n v s r) := by
  unfold DataRef.store
  split
  · apply State_modCtx_within <;> assumption
  · apply State_modProg_within <;> assumption

theorem storeBody_within (tid : Tid) (v : W64) (addr : W64) (n : Nat) (s : State) (hq : Ch P q9 s)
    (c_thr : P .thr = true) (c_prog : P .prog = true) (c_hlt : P .hlt = true) :
    (storeBody tid v addr n s).All fun t => Ch P q9 t := by
  unfold storeBody
  repeat' first
    | dsimp only [GRes.all_ok, GRes.all_jump, GRes.all_trap, GRes.all_stop, Ans.all_reply, Ans.all_later, Ans.all_waits]
    | (with_reducible first
        | intro _ | assumption | exact True.intro | apply DataRef_store_within | apply clearMarks_within)
    | split
    | dsimp only

theorem atomicBody_within (tid : Tid) (rd : BitVec 4) (addr : W64) (f : W64 → W64) (s : State) (hq : Ch P q9 s)
    (cR : RsOk P) :
    (atomicBody tid rd addr f s).All fun t => Ch P q9 t := by
  have c_thr := cR.thr
  have c_prog := cR.prog
  have c_hlt := cR.hlt
  unfold atomicBody
  repeat' first
    | dsimp only [GRes.all_ok, GRes.all_jump, GRes.all_trap, GRes.all_stop, Ans.all_reply, Ans.all_later, Ans.all_waits]
    | (with_reducible first
        | intro _ | assumption | exact True.intro | apply DataRef_store_within | apply clearMarks_within
        | apply readWords_within | (apply readWords_within'; case eq0 => assumption) | apply setReg_within)
    | split
    | dsimp only

theorem putAlu_within (tid : Tid) (rd : BitVec 4) (r : W64) (flags : Ctx → Ctx) (n : Nat) (s : State) (hq : Ch P q9 s)
    (c_thr : P .thr = true) (c_hlt : P .hlt = true) :
    (putAlu tid rd r flags n s).All fun t => Ch P q9 t := by
  unfold putAlu
  repeat' first
    | dsimp only [GRes.all_ok, GRes.all_jump, GRes.all_trap, GRes.all_stop, Ans.all_reply, Ans.all_later, Ans.all_waits]
    | (with_reducible first | intro _ | assumption | exact True.intro | apply State_modCtx_within | apply setReg_within)
    | split
    | dsimp only

theorem aluR_within (tid : Tid) (o : ROps) (f : W64 → W64 → W64) (n : Nat) (s : State) (hq : Ch P q9 s)
    (cR : RsOk P) :
    Ch P q9 (aluR tid o f n s) := by
  have c_thr := cR.thr
  have c_hlt := cR.hlt
  unfold aluR
  repeat' first
    | dsimp only [GRes.all_ok, GRes.all_jump, GRes.all_trap, GRes.all_stop, Ans.all_reply, Ans.all_later, Ans.all_waits]
    | (with_reducible first
        | intro _ | assumption | exact True.intro | apply ite_within | apply issue_within | apply putAlu_within)
    | split
    | dsimp only

theorem aluI_within (tid : Tid) (o : IOps) (ok : Bool) (f : W64 → W64) (s : State) (hq : Ch P q9 s) (cR : RsOk P) :
    Ch P q9 (aluI tid o ok f s) := by
  have c_thr := cR.thr
  have c_hlt := cR.hlt
  unfold aluI
  repeat' first
    | dsimp only [GRes.all_ok, GRes.all_jump, GRes.all_trap, GRes.all_stop, Ans.all_reply, Ans.all_later, Ans.all_waits]
    | (with_reducible first
        | intro _ | assumption | exact True.intro | apply ite_within | apply issue_within | apply putAlu_within)
    | split
    | dsimp only

theorem execAdd_within (tid : Tid) (o : ROps) (s : State) {s9 : State} (hq : Ch P q9 s) (cR : RsOk P)
    (eq0 : execAdd tid o s = .next s9) :
    Ch P q9 s9 := by
  have c_thr := cR.thr
  have c_hlt := cR.hlt
  unfold execAdd at eq0
  have e1 := Host.Outcome.next.inj eq0
  rw [← e1]
  repeat' first
    | dsimp only [GRes.all_ok, GRes.all_jump, GRes.all_trap, GRes.all_stop, Ans.all_reply, Ans.all_later, Ans.all_waits]
    | (with_reducible first
        | intro _ | assumption | exact True.intro | apply ite_within | apply issue_within | apply putAlu_within)
    | split
    | dsimp only

theorem execSub_within (tid : Tid) (o : ROps) (s : State) {s9 : State} (hq : Ch P q9 s) (cR : RsOk P)
    (eq0 : execSub tid o s = .next s9) :
    Ch P q9 s9 := by
  have c_thr := cR.thr
  have c_hlt := cR.hlt
  unfold execSub at eq0
  have e1 := Host.Outcome.next.inj eq0
  rw [← e1]
  repeat' first
    | dsimp only [GRes.all_ok, GRes.all_jump, GRes.all_trap, GRes.all_stop, Ans.all_reply, Ans.all_later, Ans.all_waits]
    | (with_reducible first
        | intro _ | assumption | exact True.intro | apply ite_within | apply issue_within | apply putAlu_within)
    | split
    | dsimp only

theorem execAnd_within (tid : Tid) (o : ROps) (s : State) {s9 : State} (hq : Ch P q9 s) (cR : RsOk P)
    (eq0 : execAnd tid o s = .next s9) :
    Ch P q9 s9 := by
  unfold execAnd at eq0
  have e1 := Host.Outcome.next.inj eq0
  rw [← e1]
  repeat' first
    | dsimp only [GRes.all_ok, GRes.all_jump, GRes.all_trap, GRes.all_stop, Ans.all_reply, Ans.all_later, Ans.all_waits]
    | (with_reducible first | intro _ | assumption | exact True.intro | apply aluR_within)
    | split
    | dsimp only

theorem execOr_within (tid : Tid) (o : ROps) (s : State) {s9 : State} (hq : Ch P q9 s) (cR : RsOk P)
    (eq0 : execOr tid o s = .next s9) :
    Ch P q9 s9 := by
  unfold execOr at eq0
  have e1 := Host.Outcome.next.inj eq0
  rw [← e1]
  repeat' first
    | dsimp only [GRes.all_ok, GRes.all_jump, GRes.all_trap, GRes.all_stop, Ans.all_reply, Ans.all_later, Ans.all_waits]
    | (with_reducible first | intro _ | assumption | exact True.intro | apply aluR_within)
    | split
    | dsimp only

theorem execXor_within (tid : Tid) (o : ROps) (s : State) {s9 : State} (hq : Ch P q9 s) (cR : RsOk P)
    (eq0 : execXor tid o s = .next s9) :
    Ch P q9 s9 := by
  unfold execXor at eq0
  have e1 := Host.Outcome.next.inj eq0
  rw [← e1]
  repeat' first
    | dsimp only [GRes.all_ok, GRes.all_jump, GRes.all_trap, GRes.all_stop, Ans.all_reply, Ans.all_later, Ans.all_waits]
    | (with_reducible first | intro _ | assumption | exact True.intro | apply aluR_within)
    | split
    | dsimp only

theorem execShl_within (tid : Tid) (o : ROps) (s : State) {s9 : State} (hq : Ch P q9 s) (cR : RsOk P)
    (eq0 : execShl tid o s = .next s9) :
    Ch P q9 s9 := by
  unfold execShl at eq0
  have e1 := Host.Outcome.next.inj eq0
  rw [← e1]
  repeat' first
    | dsimp only [GRes.all_ok, GRes.all_jump, GRes.all_trap, GRes.all_stop, Ans.all_reply, Ans.all_later, Ans.all_waits]
    | (with_reducible first | intro _ | assumption | exact True.intro | apply aluR_within)
    | split
    | dsimp only

theorem execShr_within (tid : Tid) (o : ROps) (s : State) {s9 : State} (hq : Ch P q9 s) (cR : RsOk P)
    (eq0 : execShr tid o s = .next s9) :
    Ch P q9 s9 := by
  unfold execShr at eq0
  have e1 := Host.Outcome.next.inj eq0
  rw [← e1]
  repeat' first
    | dsimp only [GRes.all_ok, GRes.all_jump, GRes.all_trap, GRes.all_stop, Ans.all_reply, Ans.all_later, Ans.all_waits]
    | (with_reducible first | intro _ | assumption | exact True.intro | apply aluR_within)
    | split
    | dsimp only

theorem execSar_within (tid : Tid) (o : ROps) (s : State) {s9 : State} (hq : Ch P q9 s) (cR : RsOk P)
    (eq0 : execSar tid o s = .next s9) :
    Ch P q9 s9 := by
  unfold execSar at eq0
  have e1 := Host.Outcome.next.inj eq0
  rw [← e1]
  repeat' first
    | dsimp only [GRes.all_ok, GRes.all_jump, GRes.all_trap, GRes.all_stop, Ans.all_reply, Ans.all_later, Ans.all_waits]
    | (with_reducible first | intro _ | assumption | exact True.intro | apply aluR_within)
    | split
    | dsimp only

theorem execMin_within (tid : Tid) (o : ROps) (s : State) {s9 : State} (hq : Ch P q9 s) (cR : RsOk P)
    (eq0 : execMin tid o s = .next s9) :
    Ch P q9 s9 := by
  unfold execMin at eq0
  have e1 := Host.Outcome.next.inj eq0
  rw [← e1]
  repeat' first
    | dsimp only [GRes.all_ok, GRes.all_jump, GRes.all_trap, GRes.all_stop, Ans.all_reply, Ans.all_later, Ans.all_waits]
    | (with_reducible first | intro _ | assumption | exact True.intro | apply ite_within | apply aluR_within)
    | split
    | dsimp only

theorem execMax_within (tid : Tid) (o : ROps) (s : State) {s9 : State} (hq : Ch P q9 s) (cR : RsOk P)
    (eq0 : execMax tid o s = .next s9) :
    Ch P q9 s9 := by
  unfold execMax at eq0
  have e1 := Host.Outcome.next.inj eq0
  rw [← e1]
  repeat' first
    | dsimp only [GRes.all_ok, GRes.all_jump, GRes.all_trap, GRes.all_stop, Ans.all_reply, Ans.all_later, Ans.all_waits]
    | (with_reducible first | intro _ | assumption | exact True.intro | apply ite_within | apply aluR_within)
    | split
    | dsimp only

theorem execCmp_within (tid : Tid) (o : ROps) (s : State) {s9 : State} (hq : Ch P q9 s) (cR : RsOk P)
    (eq0 : execCmp tid o s = .next s9) :
    Ch P q9 s9 := by
  have c_thr := cR.thr
  unfold execCmp at eq0
  have e1 := Host.Outcome.next.inj eq0
  rw [← e1]
  repeat' first
    | dsimp only [GRes.all_ok, GRes.all_jump, GRes.all_trap, GRes.all_stop, Ans.all_reply, Ans.all_later, Ans.all_waits]
    | (with_reducible first
        | intro _ | assumption | exact True.intro | apply ite_within | apply State_modCtx_within | apply issue_within)
    | split
    | dsimp only

theorem execTadd_within (tid : Tid) (o : ROps) (s : State) {s9 : State} (hq : Ch P q9 s) (cR : RsOk P)
    (eq0 : execTadd tid o s = .next s9) :
    Ch P q9 s9 := by
  unfold execTadd at eq0
  have e1 := Host.Outcome.next.inj eq0
  rw [← e1]
  repeat' first
    | dsimp only [GRes.all_ok, GRes.all_jump, GRes.all_trap, GRes.all_stop, Ans.all_reply, Ans.all_later, Ans.all_waits]
    | (with_reducible first | intro _ | assumption | exact True.intro | apply aluR_within)
    | split
    | dsimp only

theorem execTsub_within (tid : Tid) (o : ROps) (s : State) {s9 : State} (hq : Ch P q9 s) (cR : RsOk P)
    (eq0 : execTsub tid o s = .next s9) :
    Ch P q9 s9 := by
  unfold execTsub at eq0
  have e1 := Host.Outcome.next.inj eq0
  rw [← e1]
  repeat' first
    | dsimp only [GRes.all_ok, GRes.all_jump, GRes.all_trap, GRes.all_stop, Ans.all_reply, Ans.all_later, Ans.all_waits]
    | (with_reducible first | intro _ | assumption | exact True.intro | apply aluR_within)
    | split
    | dsimp only

theorem execMul_within (tid : Tid) (o : ROps) (s : State) {s9 : State} (hq : Ch P q9 s) (cR : RsOk P)
    (eq0 : execMul tid o s = .next s9) :
    Ch P q9 s9 := by
  unfold execMul at eq0
  have e1 := Host.Outcome.next.inj eq0
  rw [← e1]
  repeat' first
    | dsimp only [GRes.all_ok, GRes.all_jump, GRes.all_trap, GRes.all_stop, Ans.all_reply, Ans.all_later, Ans.all_waits]
    | (with_reducible first | intro _ | assumption | exact True.intro | apply aluR_within)
    | split
    | dsimp only

theorem execDivu_within (tid : Tid) (o : ROps) (s : State) {s9 : State} (hq : Ch P q9 s) (cR : RsOk P)
    (eq0 : execDivu tid o s = .next s9) :
    Ch P q9 s9 := by
  have c_thr := cR.thr
  have c_hlt := cR.hlt
  unfold execDivu at eq0
  have e1 := Host.Outcome.next.inj eq0
  rw [← e1]
  repeat' first
    | dsimp only [GRes.all_ok, GRes.all_jump, GRes.all_trap, GRes.all_stop, Ans.all_reply, Ans.all_later, Ans.all_waits]
    | (with_reducible first
        | intro _ | assumption | exact True.intro | apply ite_within | apply issue_within | apply putAlu_within)
    | split
    | dsimp only

theorem execRemu_within (tid : Tid) (o : ROps) (s : State) {s9 : State} (hq : Ch P q9 s) (cR : RsOk P)
    (eq0 : execRemu tid o s = .next s9) :
    Ch P q9 s9 := by
  have c_thr := cR.thr
  have c_hlt := cR.hlt
  unfold execRemu at eq0
  have e1 := Host.Outcome.next.inj eq0
  rw [← e1]
  repeat' first
    | dsimp only [GRes.all_ok, GRes.all_jump, GRes.all_trap, GRes.all_stop, Ans.all_reply, Ans.all_later, Ans.all_waits]
    | (with_reducible first
        | intro _ | assumption | exact True.intro | apply ite_within | apply issue_within | apply putAlu_within)
    | split
    | dsimp only

theorem execAddi_within (tid : Tid) (o : IOps) (s : State) {s9 : State} (hq : Ch P q9 s) (cR : RsOk P)
    (eq0 : execAddi tid o s = .next s9) :
    Ch P q9 s9 := by
  have c_thr := cR.thr
  have c_hlt := cR.hlt
  unfold execAddi at eq0
  have e1 := Host.Outcome.next.inj eq0
  rw [← e1]
  repeat' first
    | dsimp only [GRes.all_ok, GRes.all_jump, GRes.all_trap, GRes.all_stop, Ans.all_reply, Ans.all_later, Ans.all_waits]
    | (with_reducible first | intro _ | assumption | exact True.intro | apply issue_within | apply putAlu_within)
    | split
    | dsimp only

theorem execAndi_within (tid : Tid) (o : IOps) (s : State) {s9 : State} (hq : Ch P q9 s) (cR : RsOk P)
    (eq0 : execAndi tid o s = .next s9) :
    Ch P q9 s9 := by
  unfold execAndi at eq0
  have e1 := Host.Outcome.next.inj eq0
  rw [← e1]
  repeat' first
    | dsimp only [GRes.all_ok, GRes.all_jump, GRes.all_trap, GRes.all_stop, Ans.all_reply, Ans.all_later, Ans.all_waits]
    | (with_reducible first | intro _ | assumption | exact True.intro | apply aluI_within)
    | split
    | dsimp only

theorem execOri_within (tid : Tid) (o : IOps) (s : State) {s9 : State} (hq : Ch P q9 s) (cR : RsOk P)
    (eq0 : execOri tid o s = .next s9) :
    Ch P q9 s9 := by
  unfold execOri at eq0
  have e1 := Host.Outcome.next.inj eq0
  rw [← e1]
  repeat' first
    | dsimp only [GRes.all_ok, GRes.all_jump, GRes.all_trap, GRes.all_stop, Ans.all_reply, Ans.all_later, Ans.all_waits]
    | (with_reducible first | intro _ | assumption | exact True.intro | apply aluI_within)
    | split
    | dsimp only

theorem execXori_within (tid : Tid) (o : IOps) (s : State) {s9 : State} (hq : Ch P q9 s) (cR : RsOk P)
    (eq0 : execXori tid o s = .next s9) :
    Ch P q9 s9 := by
  unfold execXori at eq0
  have e1 := Host.Outcome.next.inj eq0
  rw [← e1]
  repeat' first
    | dsimp only [GRes.all_ok, GRes.all_jump, GRes.all_trap, GRes.all_stop, Ans.all_reply, Ans.all_later, Ans.all_waits]
    | (with_reducible first | intro _ | assumption | exact True.intro | apply aluI_within)
    | split
    | dsimp only

theorem execShli_within (tid : Tid) (o : IOps) (s : State) {s9 : State} (hq : Ch P q9 s) (cR : RsOk P)
    (eq0 : execShli tid o s = .next s9) :
    Ch P q9 s9 := by
  unfold execShli at eq0
  have e1 := Host.Outcome.next.inj eq0
  rw [← e1]
  repeat' first
    | dsimp only [GRes.all_ok, GRes.all_jump, GRes.all_trap, GRes.all_stop, Ans.all_reply, Ans.all_later, Ans.all_waits]
    | (with_reducible first | intro _ | assumption | exact True.intro | apply aluI_within)
    | split
    | dsimp only

theorem execShri_within (tid : Tid) (o : IOps) (s : State) {s9 : State} (hq : Ch P q9 s) (cR : RsOk P)
    (eq0 : execShri tid o s = .next s9) :
    Ch P q9 s9 := by
  unfold execShri at eq0
  have e1 := Host.Outcome.next.inj eq0
  rw [← e1]
  repeat' first
    | dsimp only [GRes.all_ok, GRes.all_jump, GRes.all_trap, GRes.all_stop, Ans.all_reply, Ans.all_later, Ans.all_waits]
    | (with_reducible first | intro _ | assumption | exact True.intro | apply aluI_within)
    | split
    | dsimp only

theorem execSari_within (tid : Tid) (o : IOps) (s : State) {s9 : State} (hq : Ch P q9 s) (cR : RsOk P)
    (eq0 : execSari tid o s = .next s9) :
    Ch P q9 s9 := by
  unfold execSari at eq0
  have e1 := Host.Outcome.next.inj eq0
  rw [← e1]
  repeat' first
    | dsimp only [GRes.all_ok, GRes.all_jump, GRes.all_trap, GRes.all_stop, Ans.all_reply, Ans.all_later, Ans.all_waits]
    | (with_reducible first | intro _ | assumption | exact True.intro | apply aluI_within)
    | split
    | dsimp only

theorem execCmpi_within (tid : Tid) (o : IOps) (s : State) {s9 : State} (hq : Ch P q9 s) (cR : RsOk P)
    (eq0 : execCmpi tid o s = .next s9) :
    Ch P q9 s9 := by
  have c_thr := cR.thr
  unfold execCmpi at eq0
  have e1 := Host.Outcome.next.inj eq0
  rw [← e1]
  repeat' first
    | dsimp only [GRes.all_ok, GRes.all_jump, GRes.all_trap, GRes.all_stop, Ans.all_reply, Ans.all_later, Ans.all_waits]
    | (with_reducible first | intro _ | assumption | exact True.intro | apply State_modCtx_within | apply issue_within)
    | split
    | dsimp only

theorem execMovi_within (tid : Tid) (o : IOps) (s : State) {s9 : State} (hq : Ch P q9 s) (cR : RsOk P)
    (eq0 : execMovi tid o s = .next s9) :
    Ch P q9 s9 := by
  have c_thr := cR.thr
  have c_hlt := cR.hlt
  unfold execMovi at eq0
  have e1 := Host.Outcome.next.inj eq0
  rw [← e1]
  repeat' first
    | dsimp only [GRes.all_ok, GRes.all_jump, GRes.all_trap, GRes.all_stop, Ans.all_reply, Ans.all_later, Ans.all_waits]
    | (with_reducible first | intro _ | assumption | exact True.intro | apply issue_within | apply putAlu_within)
    | split
    | dsimp only

theorem execLdw_within (tid : Tid) (o : IOps) (s : State) {s9 : State} (hq : Ch P q9 s) (cR : RsOk P)
    (eq0 : execLdw tid o s = .next s9) :
    Ch P q9 s9 := by
  have c_thr := cR.thr
  have c_eng := cR.eng
  unfold execLdw at eq0
  have e1 := Host.Outcome.next.inj eq0
  rw [← e1]
  repeat' first
    | dsimp only [GRes.all_ok, GRes.all_jump, GRes.all_trap, GRes.all_stop, Ans.all_reply, Ans.all_later, Ans.all_waits]
    | (with_reducible first
        | intro _ | assumption | exact True.intro | apply issueThen_within | apply loadBody_within
        | apply watch_within)
    | split
    | dsimp only

theorem execLdd_within (tid : Tid) (o : IOps) (s : State) {s9 : State} (hq : Ch P q9 s) (cR : RsOk P)
    (eq0 : execLdd tid o s = .next s9) :
    Ch P q9 s9 := by
  have c_thr := cR.thr
  have c_eng := cR.eng
  unfold execLdd at eq0
  have e1 := Host.Outcome.next.inj eq0
  rw [← e1]
  repeat' first
    | dsimp only [GRes.all_ok, GRes.all_jump, GRes.all_trap, GRes.all_stop, Ans.all_reply, Ans.all_later, Ans.all_waits]
    | (with_reducible first
        | intro _ | assumption | exact True.intro | apply issueThen_within | apply loadBody_within
        | apply watch_within)
    | split
    | dsimp only

theorem execStw_within (tid : Tid) (o : IOps) (s : State) {s9 : State} (hq : Ch P q9 s) (cR : RsOk P)
    (eq0 : execStw tid o s = .next s9) :
    Ch P q9 s9 := by
  have c_thr := cR.thr
  have c_eng := cR.eng
  have c_prog := cR.prog
  have c_hlt := cR.hlt
  unfold execStw at eq0
  have e1 := Host.Outcome.next.inj eq0
  rw [← e1]
  repeat' first
    | dsimp only [GRes.all_ok, GRes.all_jump, GRes.all_trap, GRes.all_stop, Ans.all_reply, Ans.all_later, Ans.all_waits]
    | (with_reducible first
        | intro _ | assumption | exact True.intro | apply issueThen_within | apply storeBody_within
        | apply watch_within)
    | split
    | dsimp only

theorem execStd_within (tid : Tid) (o : IOps) (s : State) {s9 : State} (hq : Ch P q9 s) (cR : RsOk P)
    (eq0 : execStd tid o s = .next s9) :
    Ch P q9 s9 := by
  have c_thr := cR.thr
  have c_eng := cR.eng
  have c_prog := cR.prog
  have c_hlt := cR.hlt
  unfold execStd at eq0
  have e1 := Host.Outcome.next.inj eq0
  rw [← e1]
  repeat' first
    | dsimp only [GRes.all_ok, GRes.all_jump, GRes.all_trap, GRes.all_stop, Ans.all_reply, Ans.all_later, Ans.all_waits]
    | (with_reducible first
        | intro _ | assumption | exact True.intro | apply issueThen_within | apply storeBody_within
        | apply watch_within)
    | split
    | dsimp only

theorem execFadd_within (tid : Tid) (o : ROps) (s : State) {s9 : State} (hq : Ch P q9 s) (cR : RsOk P)
    (eq0 : execFadd tid o s = .next s9) :
    Ch P q9 s9 := by
  have c_thr := cR.thr
  have c_eng := cR.eng
  unfold execFadd at eq0
  have e1 := Host.Outcome.next.inj eq0
  rw [← e1]
  repeat' first
    | dsimp only [GRes.all_ok, GRes.all_jump, GRes.all_trap, GRes.all_stop, Ans.all_reply, Ans.all_later, Ans.all_waits]
    | (with_reducible first
        | intro _ | assumption | exact True.intro | apply ite_within | apply atomicBody_within
        | apply issueThen_within | apply watch_within)
    | split
    | dsimp only

theorem execSwap_within (tid : Tid) (o : ROps) (s : State) {s9 : State} (hq : Ch P q9 s) (cR : RsOk P)
    (eq0 : execSwap tid o s = .next s9) :
    Ch P q9 s9 := by
  have c_thr := cR.thr
  have c_eng := cR.eng
  unfold execSwap at eq0
  have e1 := Host.Outcome.next.inj eq0
  rw [← e1]
  repeat' first
    | dsimp only [GRes.all_ok, GRes.all_jump, GRes.all_trap, GRes.all_stop, Ans.all_reply, Ans.all_later, Ans.all_waits]
    | (with_reducible first
        | intro _ | assumption | exact True.intro | apply ite_within | apply atomicBody_within
        | apply issueThen_within | apply watch_within)
    | split
    | dsimp only

theorem execBcond_within (tid : Tid) (o : BOps) (s : State) {s9 : State} (hq : Ch P q9 s) (cR : RsOk P)
    (eq0 : execBcond tid o s = .next s9) :
    Ch P q9 s9 := by
  unfold execBcond at eq0
  have e1 := Host.Outcome.next.inj eq0
  rw [← e1]
  repeat' first
    | dsimp only [GRes.all_ok, GRes.all_jump, GRes.all_trap, GRes.all_stop, Ans.all_reply, Ans.all_later, Ans.all_waits]
    | (with_reducible first | intro _ | assumption | exact True.intro | apply issue_within)
    | split
    | dsimp only

theorem execCall_within (tid : Tid) (o : JOps) (s : State) {s9 : State} (hq : Ch P q9 s) (cR : RsOk P)
    (eq0 : execCall tid o s = .next s9) :
    Ch P q9 s9 := by
  have c_thr := cR.thr
  have c_hlt := cR.hlt
  unfold execCall at eq0
  have e1 := Host.Outcome.next.inj eq0
  rw [← e1]
  repeat' first
    | dsimp only [GRes.all_ok, GRes.all_jump, GRes.all_trap, GRes.all_stop, Ans.all_reply, Ans.all_later, Ans.all_waits]
    | (with_reducible first | intro _ | assumption | exact True.intro | apply issue_within | apply setReg_within)
    | split
    | dsimp only

theorem execJr_within (tid : Tid) (o : ROps) (s : State) {s9 : State} (hq : Ch P q9 s) (cR : RsOk P)
    (eq0 : execJr tid o s = .next s9) :
    Ch P q9 s9 := by
  have c_thr := cR.thr
  have c_hlt := cR.hlt
  unfold execJr at eq0
  have e1 := Host.Outcome.next.inj eq0
  rw [← e1]
  repeat' first
    | dsimp only [GRes.all_ok, GRes.all_jump, GRes.all_trap, GRes.all_stop, Ans.all_reply, Ans.all_later, Ans.all_waits]
    | (with_reducible first
        | intro _ | assumption | exact True.intro | apply ite_within | apply issue_within | apply setReg_within)
    | split
    | dsimp only

theorem execWait_within (tid : Tid) (o : SOps) (s : State) {s9 : State} (hq : Ch P q9 s) (cR : RsOk P)
    (eq0 : execWait tid o s = .next s9) :
    Ch P q9 s9 := by
  have c_thr := cR.thr
  have c_hlt := cR.hlt
  unfold execWait at eq0
  have e1 := Host.Outcome.next.inj eq0
  rw [← e1]
  repeat' first
    | dsimp only [GRes.all_ok, GRes.all_jump, GRes.all_trap, GRes.all_stop, Ans.all_reply, Ans.all_later, Ans.all_waits]
    | (with_reducible first
        | intro _ | assumption | exact True.intro | apply ite_within | apply State_modThr_within
        | apply clearMarks_within | apply issue_within)
    | split
    | dsimp only

theorem subscribe_within (tid : Tid) (o : SOps) (on : Bool) (s : State) (hq : Ch P q9 s) (c_thr : P .thr = true) :
    (subscribe tid o on s).All fun t => Ch P q9 t := by
  unfold subscribe
  repeat' first
    | dsimp only [GRes.all_ok, GRes.all_jump, GRes.all_trap, GRes.all_stop, Ans.all_reply, Ans.all_later, Ans.all_waits]
    | (with_reducible first | intro _ | assumption | exact True.intro | apply ite_within | apply State_modThr_within)
    | split
    | dsimp only

theorem execLsn_within (tid : Tid) (o : SOps) (s : State) {s9 : State} (hq : Ch P q9 s) (cR : RsOk P)
    (eq0 : execLsn tid o s = .next s9) :
    Ch P q9 s9 := by
  have c_thr := cR.thr
  unfold execLsn at eq0
  have e1 := Host.Outcome.next.inj eq0
  rw [← e1]
  repeat' first
    | dsimp only [GRes.all_ok, GRes.all_jump, GRes.all_trap, GRes.all_stop, Ans.all_reply, Ans.all_later, Ans.all_waits]
    | (with_reducible first | intro _ | assumption | exact True.intro | apply issue_within | apply subscribe_within)
    | split
    | dsimp only

theorem execUlsn_within (tid : Tid) (o : SOps) (s : State) {s9 : State} (hq : Ch P q9 s) (cR : RsOk P)
    (eq0 : execUlsn tid o s = .next s9) :
    Ch P q9 s9 := by
  have c_thr := cR.thr
  unfold execUlsn at eq0
  have e1 := Host.Outcome.next.inj eq0
  rw [← e1]
  repeat' first
    | dsimp only [GRes.all_ok, GRes.all_jump, GRes.all_trap, GRes.all_stop, Ans.all_reply, Ans.all_later, Ans.all_waits]
    | (with_reducible first | intro _ | assumption | exact True.intro | apply issue_within | apply subscribe_within)
    | split
    | dsimp only

theorem execTimer_within (tid : Tid) (o : SOps) (s : State) {s9 : State} (hq : Ch P q9 s) (cR : RsOk P)
    (eq0 : execTimer tid o s = .next s9) :
    Ch P q9 s9 := by
  have c_thr := cR.thr
  unfold execTimer at eq0
  have e1 := Host.Outcome.next.inj eq0
  rw [← e1]
  repeat' first
    | dsimp only [GRes.all_ok, GRes.all_jump, GRes.all_trap, GRes.all_stop, Ans.all_reply, Ans.all_later, Ans.all_waits]
    | (with_reducible first
        | intro _ | assumption | exact True.intro | apply ite_within | apply State_modThr_within | apply issue_within)
    | split
    | dsimp only

theorem execTimerx_within (tid : Tid) (o : SOps) (s : State) {s9 : State} (hq : Ch P q9 s) (cR : RsOk P)
    (eq0 : execTimerx tid o s = .next s9) :
    Ch P q9 s9 := by
  have c_thr := cR.thr
  unfold execTimerx at eq0
  have e1 := Host.Outcome.next.inj eq0
  rw [← e1]
  repeat' first
    | dsimp only [GRes.all_ok, GRes.all_jump, GRes.all_trap, GRes.all_stop, Ans.all_reply, Ans.all_later, Ans.all_waits]
    | (with_reducible first
        | intro _ | assumption | exact True.intro | apply ite_within | apply State_modThr_within | apply issue_within)
    | split
    | dsimp only

theorem execNow_within (tid : Tid) (o : SOps) (s : State) {s9 : State} (hq : Ch P q9 s) (cR : RsOk P)
    (eq0 : execNow tid o s = .next s9) :
    Ch P q9 s9 := by
  have c_thr := cR.thr
  have c_hlt := cR.hlt
  unfold execNow at eq0
  have e1 := Host.Outcome.next.inj eq0
  rw [← e1]
  repeat' first
    | dsimp only [GRes.all_ok, GRes.all_jump, GRes.all_trap, GRes.all_stop, Ans.all_reply, Ans.all_later, Ans.all_waits]
    | (with_reducible first
        | intro _ | assumption | exact True.intro | apply ite_within | apply issue_within | apply setReg_within)
    | split
    | dsimp only

theorem execSig_within (tid : Tid) (o : SOps) (s : State) {s9 : State} (hq : Ch P q9 s) (cR : RsOk P)
    (eq0 : execSig tid o s = .next s9) :
    Ch P q9 s9 := by
  have cE := cR.toEvOk
  have c_thr := cR.thr
  have c_eng := cR.eng
  unfold execSig at eq0
  have e1 := Host.Outcome.next.inj eq0
  rw [← e1]
  repeat' first
    | dsimp only [GRes.all_ok, GRes.all_jump, GRes.all_trap, GRes.all_stop, Ans.all_reply, Ans.all_later, Ans.all_waits]
    | (with_reducible first
        | intro _ | assumption | exact True.intro | apply ite_within | apply State_modCtx_within
        | apply enqueue_within | apply issue_within)
    | split
    | dsimp only

theorem execDbf_within (tid : Tid) (o : SOps) (s : State) {s9 : State} (hq : Ch P q9 s) (cR : RsOk P)
    (eq0 : execDbf tid o s = .next s9) :
    Ch P q9 s9 := by
  have c_thr := cR.thr
  have c_far := cR.far
  unfold execDbf at eq0
  have e1 := Host.Outcome.next.inj eq0
  rw [← e1]
  repeat' first
    | dsimp only [GRes.all_ok, GRes.all_jump, GRes.all_trap, GRes.all_stop, Ans.all_reply, Ans.all_later, Ans.all_waits]
    | (with_reducible first
        | intro _ | assumption | exact True.intro | apply ite_within | apply State_modCtx_within | apply issue_within)
    | (with_reducible eapply Ch.far c_far; first | assumption | apply State_modCtx_within | apply issue_within | apply ite_within)
    | split
    | dsimp only

theorem execAttn_within (tid : Tid) (o : SOps) (s : State) {s9 : State} (hq : Ch P q9 s) (cR : RsOk P)
    (eq0 : execAttn tid o s = .next s9) :
    Ch P q9 s9 := by
  have c_irq := cR.irq
  unfold execAttn at eq0
  have e1 := Host.Outcome.next.inj eq0
  rw [← e1]
  repeat' first
    | dsimp only [GRes.all_ok, GRes.all_jump, GRes.all_trap, GRes.all_stop, Ans.all_reply, Ans.all_later, Ans.all_waits]
    | (with_reducible first
        | intro _ | assumption | exact True.intro | apply ite_within | apply issue_within | apply pulse_within)
    | split
    | dsimp only

theorem execMfs_within (tid : Tid) (o : SOps) (s : State) {s9 : State} (hq : Ch P q9 s) (cR : RsOk P)
    (eq0 : execMfs tid o s = .next s9) :
    Ch P q9 s9 := by
  have c_thr := cR.thr
  have c_hlt := cR.hlt
  unfold execMfs at eq0
  have e1 := Host.Outcome.next.inj eq0
  rw [← e1]
  repeat' first
    | dsimp only [GRes.all_ok, GRes.all_jump, GRes.all_trap, GRes.all_stop, Ans.all_reply, Ans.all_later, Ans.all_waits]
    | (with_reducible first
        | intro _ | assumption | exact True.intro | apply ite_within | apply issue_within | apply setReg_within)
    | split
    | dsimp only

theorem execTrap_within (tid : Tid) (o : SOps) (s : State) {s9 : State} (hq : Ch P q9 s) (cR : RsOk P)
    (eq0 : execTrap tid o s = .next s9) :
    Ch P q9 s9 := by
  unfold execTrap at eq0
  have e1 := Host.Outcome.next.inj eq0
  rw [← e1]
  repeat' first
    | dsimp only [GRes.all_ok, GRes.all_jump, GRes.all_trap, GRes.all_stop, Ans.all_reply, Ans.all_later, Ans.all_waits]
    | (with_reducible first | intro _ | assumption | exact True.intro | apply ite_within | apply issue_within)
    | split
    | dsimp only

theorem chanInstr_within (tid : Tid) (o : SOps) (subs : List Nat) (op : Byte) (v : EvTime) (s : State)
    (hq : Ch P q9 s) (cE : EvOk P) (c_units : P .units = true) (c_xing : P .xing = true) (c_arm : P .arm = true)
    (c_link : P .link = true) (c_har : P .har = true) (c_thr : P .thr = true) (c_lmap : P .lmap = true) :
    (chanInstr tid o subs op v s).All fun t => Ch P q9 t := by
  unfold chanInstr
  repeat' first
    | dsimp only [GRes.all_ok, GRes.all_jump, GRes.all_trap, GRes.all_stop, Ans.all_reply, Ans.all_later, Ans.all_waits]
    | (with_reducible first | intro _ | assumption | exact True.intro | apply ite_within | apply armWrite_within)
    | split
    | dsimp only

theorem execCarm_within (tid : Tid) (o : SOps) (s : State) {s9 : State} (hq : Ch P q9 s) (cR : RsOk P)
    (eq0 : execCarm tid o s = .next s9) :
    Ch P q9 s9 := by
  have cE := cR.toEvOk
  have c_units := cR.units
  have c_xing := cR.xing
  have c_arm := cR.arm
  have c_link := cR.link
  have c_har := cR.har
  have c_thr := cR.thr
  have c_lmap := cR.lmap
  unfold execCarm at eq0
  have e1 := Host.Outcome.next.inj eq0
  rw [← e1]
  repeat' first
    | dsimp only [GRes.all_ok, GRes.all_jump, GRes.all_trap, GRes.all_stop, Ans.all_reply, Ans.all_later, Ans.all_waits]
    | (with_reducible first
        | intro _ | assumption | exact True.intro | apply ite_within | apply chanInstr_within | apply issue_within)
    | split
    | dsimp only

theorem execCshd_within (tid : Tid) (o : SOps) (s : State) {s9 : State} (hq : Ch P q9 s) (cR : RsOk P)
    (eq0 : execCshd tid o s = .next s9) :
    Ch P q9 s9 := by
  have cE := cR.toEvOk
  have c_units := cR.units
  have c_xing := cR.xing
  have c_arm := cR.arm
  have c_link := cR.link
  have c_har := cR.har
  have c_thr := cR.thr
  have c_lmap := cR.lmap
  unfold execCshd at eq0
  have e1 := Host.Outcome.next.inj eq0
  rw [← e1]
  repeat' first
    | dsimp only [GRes.all_ok, GRes.all_jump, GRes.all_trap, GRes.all_stop, Ans.all_reply, Ans.all_later, Ans.all_waits]
    | (with_reducible first
        | intro _ | assumption | exact True.intro | apply ite_within | apply chanInstr_within | apply issue_within)
    | split
    | dsimp only

theorem execCdis_within (tid : Tid) (o : SOps) (s : State) {s9 : State} (hq : Ch P q9 s) (cR : RsOk P)
    (eq0 : execCdis tid o s = .next s9) :
    Ch P q9 s9 := by
  have cE := cR.toEvOk
  have c_units := cR.units
  have c_xing := cR.xing
  have c_arm := cR.arm
  have c_link := cR.link
  have c_har := cR.har
  have c_thr := cR.thr
  have c_lmap := cR.lmap
  unfold execCdis at eq0
  have e1 := Host.Outcome.next.inj eq0
  rw [← e1]
  repeat' first
    | dsimp only [GRes.all_ok, GRes.all_jump, GRes.all_trap, GRes.all_stop, Ans.all_reply, Ans.all_later, Ans.all_waits]
    | (with_reducible first | intro _ | assumption | exact True.intro | apply chanInstr_within | apply issue_within)
    | split
    | dsimp only

theorem execCfrc_within (tid : Tid) (o : SOps) (s : State) {s9 : State} (hq : Ch P q9 s) (cR : RsOk P)
    (eq0 : execCfrc tid o s = .next s9) :
    Ch P q9 s9 := by
  have cE := cR.toEvOk
  have c_units := cR.units
  have c_xing := cR.xing
  have c_arm := cR.arm
  have c_link := cR.link
  have c_har := cR.har
  have c_thr := cR.thr
  have c_lmap := cR.lmap
  unfold execCfrc at eq0
  have e1 := Host.Outcome.next.inj eq0
  rw [← e1]
  repeat' first
    | dsimp only [GRes.all_ok, GRes.all_jump, GRes.all_trap, GRes.all_stop, Ans.all_reply, Ans.all_later, Ans.all_waits]
    | (with_reducible first | intro _ | assumption | exact True.intro | apply chanInstr_within | apply issue_within)
    | split
    | dsimp only

theorem execClock_within (tid : Tid) (o : SOps) (s : State) {s9 : State} (hq : Ch P q9 s) (cR : RsOk P)
    (eq0 : execClock tid o s = .next s9) :
    Ch P q9 s9 := by
  have cE := cR.toEvOk
  have c_units := cR.units
  have c_xing := cR.xing
  have c_arm := cR.arm
  have c_link := cR.link
  have c_har := cR.har
  have c_thr := cR.thr
  have c_lmap := cR.lmap
  unfold execClock at eq0
  have e1 := Host.Outcome.next.inj eq0
  rw [← e1]
  repeat' first
    | dsimp only [GRes.all_ok, GRes.all_jump, GRes.all_trap, GRes.all_stop, Ans.all_reply, Ans.all_later, Ans.all_waits]
    | (with_reducible first | intro _ | assumption | exact True.intro | apply chanInstr_within | apply issue_within)
    | split
    | dsimp only

theorem execCcap_within (tid : Tid) (o : SOps) (s : State) {s9 : State} (hq : Ch P q9 s) (cR : RsOk P)
    (eq0 : execCcap tid o s = .next s9) :
    Ch P q9 s9 := by
  have cE := cR.toEvOk
  have c_units := cR.units
  have c_xing := cR.xing
  have c_arm := cR.arm
  have c_link := cR.link
  have c_har := cR.har
  have c_thr := cR.thr
  have c_lmap := cR.lmap
  have c_hlt := cR.hlt
  unfold execCcap at eq0
  have e1 := Host.Outcome.next.inj eq0
  rw [← e1]
  repeat' first
    | dsimp only [GRes.all_ok, GRes.all_jump, GRes.all_trap, GRes.all_stop, Ans.all_reply, Ans.all_later, Ans.all_waits]
    | (with_reducible first
        | intro _ | assumption | exact True.intro | apply ite_within | apply State_modCtx_within
        | apply State_modLMap_within | apply armWrite_within | apply issue_within | apply setReg_within)
    | split
    | dsimp only

theorem execHact_within (tid : Tid) (o : SOps) (s : State) {s9 : State} (hq : Ch P q9 s) (cR : RsOk P)
    (eq0 : execHact tid o s = .next s9) :
    Ch P q9 s9 := by
  have cE := cR.toEvOk
  have c_units := cR.units
  have c_xing := cR.xing
  have c_arm := cR.arm
  have c_link := cR.link
  have c_har := cR.har
  have c_thr := cR.thr
  have c_lmap := cR.lmap
  unfold execHact at eq0
  have e1 := Host.Outcome.next.inj eq0
  rw [← e1]
  repeat' first
    | dsimp only [GRes.all_ok, GRes.all_jump, GRes.all_trap, GRes.all_stop, Ans.all_reply, Ans.all_later, Ans.all_waits]
    | (with_reducible first
        | intro _ | assumption | exact True.intro | apply ite_within | apply armWrite_within | apply issue_within)
    | split
    | dsimp only

theorem execBpost_within (tid : Tid) (o : SOps) (s : State) {s9 : State} (hq : Ch P q9 s) (cR : RsOk P)
    (eq0 : execBpost tid o s = .next s9) :
    Ch P q9 s9 := by
  have cE := cR.toEvOk
  have c_thr := cR.thr
  have c_eng := cR.eng
  have c_bas := cR.bas
  have c_ost := cR.ost
  have c_far := cR.far
  unfold execBpost at eq0
  have e1 := Host.Outcome.next.inj eq0
  rw [← e1]
  repeat' first
    | dsimp only [GRes.all_ok, GRes.all_jump, GRes.all_trap, GRes.all_stop, Ans.all_reply, Ans.all_later, Ans.all_waits]
    | (with_reducible first
        | intro _ | assumption | exact True.intro | apply ite_within | apply iteFst_within | apply State_modCtx_within
        | apply State_modThr_within | apply issue_within | (apply makeRoom_within; case eq0 => assumption)
        | apply postTo_within | (apply postTo_within'; case eq0 => assumption))
    | split
    | dsimp only

theorem execBread_within (tid : Tid) (o : SOps) (s : State) {s9 : State} (hq : Ch P q9 s) (cR : RsOk P)
    (eq0 : execBread tid o s = .next s9) :
    Ch P q9 s9 := by
  have c_thr := cR.thr
  have c_hlt := cR.hlt
  unfold execBread at eq0
  have e1 := Host.Outcome.next.inj eq0
  rw [← e1]
  repeat' first
    | dsimp only [GRes.all_ok, GRes.all_jump, GRes.all_trap, GRes.all_stop, Ans.all_reply, Ans.all_later, Ans.all_waits]
    | (with_reducible first
        | intro _ | assumption | exact True.intro | apply ite_within | apply State_modCtx_within | apply issue_within
        | apply readWord_within | apply setReg_within)
    | split
    | dsimp only

theorem execBack_within (tid : Tid) (o : SOps) (s : State) {s9 : State} (hq : Ch P q9 s) (cR : RsOk P)
    (eq0 : execBack tid o s = .next s9) :
    Ch P q9 s9 := by
  have cE := cR.toEvOk
  have c_thr := cR.thr
  have c_eng := cR.eng
  unfold execBack at eq0
  have e1 := Host.Outcome.next.inj eq0
  rw [← e1]
  repeat' first
    | dsimp only [GRes.all_ok, GRes.all_jump, GRes.all_trap, GRes.all_stop, Ans.all_reply, Ans.all_later, Ans.all_waits]
    | (with_reducible first
        | intro _ | assumption | exact True.intro | apply ite_within | apply iteFst_within | apply State_modCtx_within
        | apply issue_within | apply writeRdCnt_within | (apply writeRdCnt_within'; case eq0 => assumption))
    | split
    | dsimp only

theorem execSpw_within (tid : Tid) (o : SOps) (s : State) {s9 : State} (hq : Ch P q9 s) (cR : RsOk P)
    (eq0 : execSpw tid o s = .next s9) :
    Ch P q9 s9 := by
  have c_thr := cR.thr
  have c_eng := cR.eng
  have c_spw := cR.spw
  have c_hlt := cR.hlt
  unfold execSpw at eq0
  have e1 := Host.Outcome.next.inj eq0
  rw [← e1]
  repeat' first
    | dsimp only [GRes.all_ok, GRes.all_jump, GRes.all_trap, GRes.all_stop, Ans.all_reply, Ans.all_later, Ans.all_waits]
    | (with_reducible first
        | intro _ | assumption | exact True.intro | apply ite_within | apply iteFst_within | apply State_modCtx_within
        | apply issueThen_within | apply readWords_within | (apply readWords_within'; case eq0 => assumption)
        | apply setReg_within | apply spwWrite_within | (apply spwWrite_within'; case eq0 => assumption)
        | apply watch_within)
    | split
    | dsimp only

theorem execSpc_within (tid : Tid) (o : SOps) (s : State) {s9 : State} (hq : Ch P q9 s) (cR : RsOk P)
    (eq0 : execSpc tid o s = .next s9) :
    Ch P q9 s9 := by
  have c_thr := cR.thr
  have c_spw := cR.spw
  unfold execSpc at eq0
  have e1 := Host.Outcome.next.inj eq0
  rw [← e1]
  repeat' first
    | dsimp only [GRes.all_ok, GRes.all_jump, GRes.all_trap, GRes.all_stop, Ans.all_reply, Ans.all_later, Ans.all_waits]
    | (with_reducible first
        | intro _ | assumption | exact True.intro | apply ite_within | apply State_modCtx_within
        | apply confirm_within | apply issue_within)
    | split
    | dsimp only

theorem execSpx_within (tid : Tid) (o : SOps) (s : State) {s9 : State} (hq : Ch P q9 s) (cR : RsOk P)
    (eq0 : execSpx tid o s = .next s9) :
    Ch P q9 s9 := by
  have c_thr := cR.thr
  have c_spw := cR.spw
  unfold execSpx at eq0
  have e1 := Host.Outcome.next.inj eq0
  rw [← e1]
  repeat' first
    | dsimp only [GRes.all_ok, GRes.all_jump, GRes.all_trap, GRes.all_stop, Ans.all_reply, Ans.all_later, Ans.all_waits]
    | (with_reducible first
        | intro _ | assumption | exact True.intro | apply ite_within | apply State_modCtx_within
        | apply State_modSpw_within | apply dropEntries_within | apply issue_within)
    | split
    | dsimp only

theorem putOr_within (tid : Tid) (rd : BitVec 4) (v : Option W64) (n : Nat) (s : State) (hq : Ch P q9 s)
    (c_thr : P .thr = true) (c_hlt : P .hlt = true) :
    (putOr tid rd v n s).All fun t => Ch P q9 t := by
  unfold putOr
  repeat' first
    | dsimp only [GRes.all_ok, GRes.all_jump, GRes.all_trap, GRes.all_stop, Ans.all_reply, Ans.all_later, Ans.all_waits]
    | (with_reducible first | intro _ | assumption | exact True.intro | apply State_modCtx_within | apply setReg_within)
    | split
    | dsimp only

theorem execAconv_within (tid : Tid) (o : SOps) (s : State) {s9 : State} (hq : Ch P q9 s) (cR : RsOk P)
    (eq0 : execAconv tid o s = .next s9) :
    Ch P q9 s9 := by
  have c_thr := cR.thr
  have c_hlt := cR.hlt
  unfold execAconv at eq0
  have e1 := Host.Outcome.next.inj eq0
  rw [← e1]
  repeat' first
    | dsimp only [GRes.all_ok, GRes.all_jump, GRes.all_trap, GRes.all_stop, Ans.all_reply, Ans.all_later, Ans.all_waits]
    | (with_reducible first
        | intro _ | assumption | exact True.intro | apply ite_within | apply issue_within | apply putOr_within)
    | split
    | dsimp only

theorem execTper_within (tid : Tid) (o : SOps) (s : State) {s9 : State} (hq : Ch P q9 s) (cR : RsOk P)
    (eq0 : execTper tid o s = .next s9) :
    Ch P q9 s9 := by
  have c_thr := cR.thr
  have c_hlt := cR.hlt
  unfold execTper at eq0
  have e1 := Host.Outcome.next.inj eq0
  rw [← e1]
  repeat' first
    | dsimp only [GRes.all_ok, GRes.all_jump, GRes.all_trap, GRes.all_stop, Ans.all_reply, Ans.all_later, Ans.all_waits]
    | (with_reducible first
        | intro _ | assumption | exact True.intro | apply ite_within | apply issue_within | apply putOr_within)
    | split
    | dsimp only

theorem execTlast_within (tid : Tid) (o : SOps) (s : State) {s9 : State} (hq : Ch P q9 s) (cR : RsOk P)
    (eq0 : execTlast tid o s = .next s9) :
    Ch P q9 s9 := by
  have c_thr := cR.thr
  have c_hlt := cR.hlt
  unfold execTlast at eq0
  have e1 := Host.Outcome.next.inj eq0
  rw [← e1]
  repeat' first
    | dsimp only [GRes.all_ok, GRes.all_jump, GRes.all_trap, GRes.all_stop, Ans.all_reply, Ans.all_later, Ans.all_waits]
    | (with_reducible first
        | intro _ | assumption | exact True.intro | apply ite_within | apply issue_within | apply putOr_within)
    | split
    | dsimp only

end Sys2Proof.Machine
end

