-- ==== Sys2Proof/Laws/PartsHost.lean ====
section
/-! SUPPORT. For each function of the model, the parts of the state it may change: HostOps, FarrierOps, Harness,
HostLink, Health, Ostler, Gait, Probe. -/

namespace Sys2Proof.Machine

open Sys2Proof.Claims

set_option maxRecDepth 4096

variable {P : Part → Bool} {q9 : State}

theorem hostReadFx_within (r : HostReg) (a n : Nat) (s : State) (hq : Ch P q9 s) (cR : RsOk P) :
    Ch P q9 (hostReadFx r a n s) := by
  have c_host := cR.host
  unfold hostReadFx
  repeat' first
    | (with_reducible first
        | intro _ | assumption | apply ite_within | apply forEach_within | apply forEach_within
        | apply readWord_within)
    | (with_reducible eapply Ch.host c_host; first
        | assumption | apply forEach_within | apply readWord_within | apply ite_within | apply forEach_within)
    | split
    | dsimp only

theorem releaseReplies_within (mask : Byte) (s : State) (hq : Ch P q9 s) (cR : RsOk P) :
    Ch P q9 (releaseReplies mask s) := by
  have c_host := cR.host
  unfold releaseReplies
  repeat' first
    | (with_reducible first | intro _ | assumption | apply ite_within | apply assertReset_within)
    | (with_reducible eapply Ch.host c_host; first | assumption | apply assertReset_within | apply ite_within)
    | split
    | dsimp only

theorem writeHwd_within (v : W32) (s : State) (hq : Ch P q9 s) (c_host : P .host = true) :
    Ch P q9 (writeHwd v s) := by
  unfold writeHwd
  repeat' first
    | (with_reducible first | intro _ | assumption)
    | (with_reducible eapply Ch.host c_host; assumption)
    | split
    | dsimp only

theorem clearHostLost_within (s : State) (hq : Ch P q9 s) (c_host : P .host = true) :
    Ch P q9 (clearHostLost s) := by
  unfold clearHostLost
  repeat' first
    | (with_reducible first | intro _ | assumption)
    | (with_reducible eapply Ch.host c_host; assumption)
    | split
    | dsimp only

theorem writeHostReg_within (off : Nat) (v : W32) (s : State) (hq : Ch P q9 s) (cR : RsOk P) :
    Ch P q9 (writeHostReg off v s) := by
  have c_host := cR.host
  unfold writeHostReg
  repeat' first
    | (with_reducible first
        | intro _ | assumption | apply ite_within | apply clearHostLost_within | apply releaseReplies_within
        | apply writeHwd_within)
    | (with_reducible eapply Ch.host c_host; first
        | assumption | apply clearHostLost_within | apply releaseReplies_within | apply writeHwd_within
        | apply ite_within)
    | split
    | dsimp only

theorem writeHostWords_within (n : Nat) (l : List Byte) (s : State) (hq : Ch P q9 s) (cR : RsOk P) :
    Ch P q9 (writeHostWords n l s) := by
  fun_induction writeHostWords n l s with
  | case1 off b0 b1 b2 b3 r s ih => apply ih; apply writeHostReg_within <;> assumption
  | case2 => exact hq

theorem applyWrite_within (a : Nat) (data : List Byte) (s : State) (hq : Ch P q9 s) (cR : RsOk P) :
    Ch P q9 (applyWrite a data s) := by
  have cE := cR.toEvOk
  have c_thr := cR.thr
  have c_eng := cR.eng
  have c_host := cR.host
  unfold applyWrite
  repeat' first
    | (with_reducible first
        | intro _ | assumption | apply ite_within | apply iteFst_within | apply writeHostWords_within
        | apply writeRdCnt_within | (apply writeRdCnt_within'; case eq0 => assumption))
    | (with_reducible eapply Ch.host c_host; first
        | assumption | apply writeHostWords_within | apply writeRdCnt_within
        | (apply writeRdCnt_within'; case eq0 => assumption) | apply ite_within)
    | (with_reducible eapply Ch.host c_host; dsimp only; first | (apply writeRdCnt_within'; case eq0 => assumption))
    | split
    | dsimp only

theorem flushWrites_within (s : State) (hq : Ch P q9 s) (cR : RsOk P) :
    Ch P q9 (flushWrites s) := by
  have c_host := cR.host
  unfold flushWrites
  repeat' first
    | (with_reducible first
        | intro _ | assumption | apply forEach_within | apply applyWrite_within | apply forEach_within)
    | (with_reducible eapply Ch.host c_host; first | assumption | apply applyWrite_within | apply forEach_within | apply forEach_within)
    | split
    | dsimp only

theorem doorbell_within (r : MailboxId) (s : State) (hq : Ch P q9 s) (c_host : P .host = true)
    (c_irq : P .irq = true) :
    Ch P q9 (doorbell r s) := by
  unfold doorbell
  repeat' first
    | (with_reducible first | intro _ | assumption | apply ite_within | apply pulse_within)
    | (with_reducible eapply Ch.host c_host; first | assumption | apply pulse_within | apply ite_within)
    | split
    | dsimp only

theorem answer_within (snap : W16) (l : List Byte) (off : Nat) (data : List Byte) (s : State) (hq : Ch P q9 s)
    (c_host : P .host = true) :
    Ch P q9 (answer snap l off data s) := by
  unfold answer
  repeat' first
    | (with_reducible first | intro _ | assumption)
    | (with_reducible eapply Ch.host c_host; assumption)
    | split
    | dsimp only

theorem discardFrame_within (snap : W16) (l : List Byte) (inj : Bool) (s : State) (hq : Ch P q9 s)
    (c_host : P .host = true) (c_hlt : P .hlt = true) :
    Ch P q9 (discardFrame snap l inj s) := by
  unfold discardFrame
  repeat' first
    | (with_reducible first | intro _ | assumption | apply answer_within | apply detEvent_within)
    | (with_reducible eapply Ch.host c_host; first | assumption | apply answer_within | apply detEvent_within)
    | split
    | dsimp only

theorem refuseFrame_within (snap : W16) (l : List Byte) (s : State) (hq : Ch P q9 s) (c_host : P .host = true) :
    Ch P q9 (refuseFrame snap l s) := by
  unfold refuseFrame
  repeat' first
    | (with_reducible first | intro _ | assumption | apply answer_within)
    | (with_reducible eapply Ch.host c_host; first | assumption | apply answer_within)
    | split
    | dsimp only

theorem readFrame_within (snap : W16) (l : List Byte) (s : State) (hq : Ch P q9 s) (cR : RsOk P) :
    Ch P q9 (readFrame snap l s) := by
  have c_host := cR.host
  unfold readFrame
  repeat' first
    | (with_reducible first
        | intro _ | assumption | apply ite_within | apply answer_within | apply flushWrites_within
        | apply hostReadFx_within | apply refuseFrame_within)
    | split
    | dsimp only

theorem writeFrame_within (snap : W16) (l : List Byte) (s : State) (hq : Ch P q9 s) (cR : RsOk P) :
    Ch P q9 (writeFrame snap l s) := by
  have c_host := cR.host
  unfold writeFrame
  repeat' first
    | (with_reducible first
        | intro _ | assumption | apply ite_within | apply answer_within | apply flushWrites_within
        | apply refuseFrame_within)
    | (with_reducible eapply Ch.host c_host; first
        | assumption | apply answer_within | apply flushWrites_within | apply refuseFrame_within | apply ite_within)
    | split
    | dsimp only

theorem claimFrame_within (snap : W16) (ref : Bool) (l : List Byte) (s : State) (hq : Ch P q9 s) (cR : RsOk P) :
    Ch P q9 (claimFrame snap ref l s) := by
  have c_host := cR.host
  have c_irq := cR.irq
  unfold claimFrame
  repeat' first
    | (with_reducible first
        | intro _ | assumption | apply answer_within | apply claimH_within | apply flushWrites_within)
    | split
    | dsimp only

theorem frameBody_within (snap : W16) (ref : Bool) (l : List Byte) (s : State) (hq : Ch P q9 s) (cR : RsOk P) :
    Ch P q9 (frameBody snap ref l s) := by
  have c_rsv := cR.rsv
  have c_host := cR.host
  have c_irq := cR.irq
  unfold frameBody
  repeat' first
    | (with_reducible first
        | intro _ | assumption | apply answer_within | apply claimFrame_within | apply completeH_within
        | apply doorbell_within | apply flushWrites_within | apply readFrame_within | apply refuseFrame_within
        | apply writeFrame_within)
    | split
    | dsimp only

theorem serveFrame_within (l : List Byte) (bad : Bool) (s : State) (hq : Ch P q9 s) (cR : RsOk P) :
    Ch P q9 (serveFrame l bad s) := by
  have c_host := cR.host
  have c_hlt := cR.hlt
  unfold serveFrame
  repeat' first
    | (with_reducible first
        | intro _ | assumption | apply ite_within | apply answer_within | apply discardFrame_within
        | apply frameBody_within | apply refuseFrame_within)
    | (with_reducible eapply Ch.host c_host; first
        | assumption | apply answer_within | apply discardFrame_within | apply frameBody_within
        | apply refuseFrame_within | apply ite_within)
    | split
    | dsimp only

theorem okAns_within (s : State) (hq : Ch P q9 s) :
    (okAns s).All fun t => Ch P q9 t := by
  unfold okAns
  repeat' first
    | dsimp only [GRes.all_ok, GRes.all_jump, GRes.all_trap, GRes.all_stop, Ans.all_reply, Ans.all_later, Ans.all_waits]
    | (with_reducible first | intro _ | assumption | exact True.intro)
    | split
    | dsimp only

theorem okWith_within (payload : List Byte) (s : State) (hq : Ch P q9 s) :
    (okWith payload s).All fun t => Ch P q9 t := by
  unfold okWith
  repeat' first
    | dsimp only [GRes.all_ok, GRes.all_jump, GRes.all_trap, GRes.all_stop, Ans.all_reply, Ans.all_later, Ans.all_waits]
    | (with_reducible first | intro _ | assumption | exact True.intro)
    | split
    | dsimp only

theorem refuse_within (status : Byte) (s : State) (hq : Ch P q9 s) :
    (refuse status s).All fun t => Ch P q9 t := by
  unfold refuse
  repeat' first
    | dsimp only [GRes.all_ok, GRes.all_jump, GRes.all_trap, GRes.all_stop, Ans.all_reply, Ans.all_later, Ans.all_waits]
    | (with_reducible first | intro _ | assumption | exact True.intro)
    | split
    | dsimp only

theorem malformed_within (mb : MailboxId) (cmd : Byte) (inj : Bool) (s : State) (hq : Ch P q9 s) (cE : EvOk P) :
    Ch P q9 (malformed mb cmd inj s) := by
  have c_irq := cE.irq
  have c_hlt := cE.hlt
  unfold malformed
  repeat' first
    | (with_reducible first | intro _ | assumption | apply health_within | apply pulse_within)
    | (with_reducible eapply Ch.hlt c_hlt; first | assumption | apply health_within | apply pulse_within)
    | split
    | dsimp only

theorem markTaken_within (mb : MailboxId) (s : State) (hq : Ch P q9 s) (c_host : P .host = true) :
    Ch P q9 (markTaken mb s) := by
  unfold markTaken
  repeat' first
    | (with_reducible first | intro _ | assumption)
    | (with_reducible eapply Ch.host c_host; assumption)
    | split
    | dsimp only

theorem hold_within (mb : MailboxId) (s : State) (hq : Ch P q9 s) (c_host : P .host = true) :
    Ch P q9 (hold mb s) := by
  unfold hold
  repeat' first
    | (with_reducible first | intro _ | assumption)
    | (with_reducible eapply Ch.host c_host; assumption)
    | split
    | dsimp only

theorem refuseMalformed_within (cmd : Byte) (q : Req) (status : Byte) (inj : Bool) (s : State) (hq : Ch P q9 s)
    (cE : EvOk P) (c_host : P .host = true) :
    Ch P q9 (refuseMalformed cmd q status inj s) := by
  unfold refuseMalformed
  repeat' first
    | (with_reducible first | intro _ | assumption | apply malformed_within | apply writeReply_within)
    | split
    | dsimp only

theorem carryOut_within (cmd : Byte) (q : Req) (body : State → Ans) (s : State) (hq : Ch P q9 s)
    (k_body : ∀ x, Ch P q9 x → (body x).All fun t => Ch P q9 t) (cE : EvOk P) (c_host : P .host = true) :
    Ch P q9 (carryOut cmd q body s) := by
  unfold carryOut
  repeat' first
    | dsimp only [GRes.all_ok, GRes.all_jump, GRes.all_trap, GRes.all_stop, Ans.all_reply, Ans.all_later, Ans.all_waits]
    | (with_reducible first
        | intro _ | assumption | exact True.intro | (apply Ans.reply_within; case eq0 => assumption)
        | (apply Ans.later_within; case eq0 => assumption) | apply ite_within | apply k_body | apply hold_within
        | apply markTaken_within | apply refuseMalformed_within | apply writeReply_within)
    | split
    | dsimp only

theorem entryAns_within (cmd : Byte) (q : Req) (e : Entry) (pay : W32 → List Byte) (s : State) (hq : Ch P q9 s)
    (c_nv : P .nv = true) (c_prb : P .prb = true) (c_ps : P .ps = true) (c_rcd : P .rcd = true)
    (c_irq : P .irq = true) (c_hlt : P .hlt = true) :
    (entryAns cmd q e pay s).All fun t => Ch P q9 t := by
  unfold entryAns
  repeat' first
    | dsimp only [GRes.all_ok, GRes.all_jump, GRes.all_trap, GRes.all_stop, Ans.all_reply, Ans.all_later, Ans.all_waits]
    | (with_reducible first
        | intro _ | assumption | exact True.intro | apply ite_within | apply iteFst_within | apply okWith_within
        | apply record_within | (apply record_within'; case eq0 => assumption))
    | (with_reducible eapply Ch.rcd c_rcd; first
        | assumption | apply okWith_within | apply record_within | (apply record_within'; case eq0 => assumption)
        | apply ite_within)
    | (with_reducible eapply Ch.rcd c_rcd; dsimp only; first | (apply record_within'; case eq0 => assumption))
    | split
    | dsimp only

theorem withNote_within (sub : Byte) (value : W32) (flags : W16) (s : State) (hq : Ch P q9 s) (c_nv : P .nv = true)
    (c_prb : P .prb = true) (c_ps : P .ps = true) (c_rcd : P .rcd = true) (c_irq : P .irq = true)
    (c_hlt : P .hlt = true) :
    Ch P q9 ((withNote sub value flags s).1) := by
  unfold withNote
  repeat' first
    | (with_reducible first
        | intro _ | assumption | apply ite_within | apply iteFst_within | apply note_within
        | (apply note_within'; case eq0 => assumption))
    | split
    | dsimp only

theorem withNote_within' (sub : Byte) (value : W32) (flags : W16) (s : State) {s9 : State} {x9 : _} (hq : Ch P q9 s)
    (c_nv : P .nv = true) (c_prb : P .prb = true) (c_ps : P .ps = true) (c_rcd : P .rcd = true)
    (c_irq : P .irq = true) (c_hlt : P .hlt = true) (eq0 : withNote sub value flags s = (s9, x9)) :
    Ch P q9 s9 := by
  have e2 := withNote_within sub value flags s hq c_nv c_prb c_ps c_rcd c_irq c_hlt
  rw [eq0] at e2
  exact e2

theorem execHarnessCommit_within (h : HarnessId) (s : State) {s9 : State} (hq : Ch P q9 s) (cE : EvOk P)
    (c_units : P .units = true) (c_xing : P .xing = true) (c_link : P .link = true) (c_har : P .har = true)
    (eq0 : execHarnessCommit h s = .next s9) :
    Ch P q9 s9 := by
  unfold execHarnessCommit at eq0
  have e1 := Host.Outcome.next.inj eq0
  rw [← e1]
  repeat' first
    | dsimp only [GRes.all_ok, GRes.all_jump, GRes.all_trap, GRes.all_stop, Ans.all_reply, Ans.all_later, Ans.all_waits]
    | (with_reducible first | intro _ | assumption | exact True.intro | apply actHarness_within)
    | split
    | dsimp only

theorem execHarnessSafe_within (h : HarnessId) (s : State) {s9 : State} (hq : Ch P q9 s) (cE : EvOk P)
    (c_units : P .units = true) (c_xing : P .xing = true) (c_link : P .link = true) (c_har : P .har = true)
    (eq0 : execHarnessSafe h s = .next s9) :
    Ch P q9 s9 := by
  unfold execHarnessSafe at eq0
  have e1 := Host.Outcome.next.inj eq0
  rw [← e1]
  repeat' first
    | dsimp only [GRes.all_ok, GRes.all_jump, GRes.all_trap, GRes.all_stop, Ans.all_reply, Ans.all_later, Ans.all_waits]
    | (with_reducible first | intro _ | assumption | exact True.intro | apply actHarness_within)
    | split
    | dsimp only

theorem execHarnessResume_within (h : HarnessId) (s : State) {s9 : State} (hq : Ch P q9 s) (cE : EvOk P)
    (c_units : P .units = true) (c_xing : P .xing = true) (c_link : P .link = true) (c_har : P .har = true)
    (eq0 : execHarnessResume h s = .next s9) :
    Ch P q9 s9 := by
  unfold execHarnessResume at eq0
  have e1 := Host.Outcome.next.inj eq0
  rw [← e1]
  repeat' first
    | dsimp only [GRes.all_ok, GRes.all_jump, GRes.all_trap, GRes.all_stop, Ans.all_reply, Ans.all_later, Ans.all_waits]
    | (with_reducible first | intro _ | assumption | exact True.intro | apply actHarness_within)
    | split
    | dsimp only

theorem execHarnessPhase_within (h : HarnessId) (phases : BitVec 9) (s : State) {s9 : State} (hq : Ch P q9 s)
    (cE : EvOk P) (c_units : P .units = true) (c_xing : P .xing = true) (c_link : P .link = true)
    (c_har : P .har = true) (eq0 : execHarnessPhase h phases s = .next s9) :
    Ch P q9 s9 := by
  unfold execHarnessPhase at eq0
  have e1 := Host.Outcome.next.inj eq0
  rw [← e1]
  repeat' first
    | dsimp only [GRes.all_ok, GRes.all_jump, GRes.all_trap, GRes.all_stop, Ans.all_reply, Ans.all_later, Ans.all_waits]
    | (with_reducible first | intro _ | assumption | exact True.intro | apply actHarness_within)
    | split
    | dsimp only

theorem execHarnessLevels_within (h : HarnessId) (levels : BitVec 28) (s : State) {s9 : State} (hq : Ch P q9 s)
    (cE : EvOk P) (c_units : P .units = true) (c_xing : P .xing = true) (c_link : P .link = true)
    (c_har : P .har = true) (eq0 : execHarnessLevels h levels s = .next s9) :
    Ch P q9 s9 := by
  unfold execHarnessLevels at eq0
  have e1 := Host.Outcome.next.inj eq0
  rw [← e1]
  repeat' first
    | dsimp only [GRes.all_ok, GRes.all_jump, GRes.all_trap, GRes.all_stop, Ans.all_reply, Ans.all_later, Ans.all_waits]
    | (with_reducible first | intro _ | assumption | exact True.intro | apply actHarness_within)
    | split
    | dsimp only

theorem execTimedActionApply_within (t : Instant) (h : HarnessId) (s : State) {s9 : State} (hq : Ch P q9 s)
    (cE : EvOk P) (c_tb : P .tb = true) (c_units : P .units = true) (c_xing : P .xing = true)
    (c_link : P .link = true) (c_har : P .har = true) (c_lmap : P .lmap = true)
    (eq0 : execTimedActionApply t h s = .next s9) :
    Ch P q9 s9 := by
  unfold execTimedActionApply at eq0
  try dsimp only at eq0
  repeat' first | (apply event_within; case eq0 => assumption) | split at eq0 | (injection eq0 with eq0; subst eq0) | cases eq0
  all_goals repeat' first
    | dsimp only [GRes.all_ok, GRes.all_jump, GRes.all_trap, GRes.all_stop, Ans.all_reply, Ans.all_later, Ans.all_waits]
    | (with_reducible first
        | intro _ | assumption | exact True.intro | apply ite_within | apply applyTimed_within | apply commuted_within)
    | split
    | dsimp only

theorem peakOver_within (h : HarnessId) (m : Fin 4) (s : State) (hq : Ch P q9 s) (c_units : P .units = true)
    (c_link : P .link = true) (c_har : P .har = true) :
    Ch P q9 (peakOver h m s) := by
  unfold peakOver
  repeat' first
    | (with_reducible first | intro _ | assumption | apply State_modHar_within | apply regate_within)
    | split
    | dsimp only

theorem execPeakEnd_within (t : Instant) (h : HarnessId) (m : Fin 4) (sense : Byte) (s : State) {s9 : State}
    (hq : Ch P q9 s) (c_tb : P .tb = true) (c_units : P .units = true) (c_link : P .link = true)
    (c_har : P .har = true) (eq0 : execPeakEnd t h m sense s = .next s9) :
    Ch P q9 s9 := by
  unfold execPeakEnd at eq0
  try dsimp only at eq0
  repeat' first | (apply event_within; case eq0 => assumption) | split at eq0 | (injection eq0 with eq0; subst eq0) | cases eq0
  all_goals repeat' first
    | dsimp only [GRes.all_ok, GRes.all_jump, GRes.all_trap, GRes.all_stop, Ans.all_reply, Ans.all_later, Ans.all_waits]
    | (with_reducible first | intro _ | assumption | exact True.intro | apply peakOver_within)
    | split
    | dsimp only

theorem execPeakTimeout_within (t : Instant) (h : HarnessId) (m : Fin 4) (sense : Byte) (s : State) {s9 : State}
    (hq : Ch P q9 s) (cE : EvOk P) (c_tb : P .tb = true) (c_units : P .units = true) (c_xing : P .xing = true)
    (c_link : P .link = true) (c_har : P .har = true) (c_host : P .host = true)
    (eq0 : execPeakTimeout t h m sense s = .next s9) :
    Ch P q9 s9 := by
  unfold execPeakTimeout at eq0
  try dsimp only at eq0
  repeat' first | (apply event_within; case eq0 => assumption) | split at eq0 | (injection eq0 with eq0; subst eq0) | cases eq0
  all_goals repeat' first
    | dsimp only [GRes.all_ok, GRes.all_jump, GRes.all_trap, GRes.all_stop, Ans.all_reply, Ans.all_later, Ans.all_waits]
    | (with_reducible first
        | intro _ | assumption | exact True.intro | apply faultHarness_within | apply peakOver_within)
    | split
    | dsimp only

theorem holdSwitch_within (h : HarnessId) (m : Fin 4) (off : Bool) (s : State) (hq : Ch P q9 s)
    (c_units : P .units = true) (c_link : P .link = true) (c_har : P .har = true) :
    Ch P q9 (holdSwitch h m off s) := by
  unfold holdSwitch
  repeat' first
    | (with_reducible first | intro _ | assumption | apply ite_within | apply State_modHar_within | apply regate_within)
    | (with_reducible eapply Ch.link c_link; first | assumption | apply State_modHar_within | apply regate_within | apply ite_within)
    | split
    | dsimp only

theorem execHoldSwitchOff_within (t : Instant) (h : HarnessId) (m : Fin 4) (sense : Byte) (s : State) {s9 : State}
    (hq : Ch P q9 s) (c_tb : P .tb = true) (c_units : P .units = true) (c_link : P .link = true)
    (c_har : P .har = true) (eq0 : execHoldSwitchOff t h m sense s = .next s9) :
    Ch P q9 s9 := by
  unfold execHoldSwitchOff at eq0
  try dsimp only at eq0
  repeat' first | (apply event_within; case eq0 => assumption) | split at eq0 | (injection eq0 with eq0; subst eq0) | cases eq0
  all_goals repeat' first
    | dsimp only [GRes.all_ok, GRes.all_jump, GRes.all_trap, GRes.all_stop, Ans.all_reply, Ans.all_later, Ans.all_waits]
    | (with_reducible first | intro _ | assumption | exact True.intro | apply ite_within | apply holdSwitch_within)
    | split
    | dsimp only

theorem execHoldSwitchOn_within (t : Instant) (h : HarnessId) (m : Fin 4) (sense : Byte) (s : State) {s9 : State}
    (hq : Ch P q9 s) (c_tb : P .tb = true) (c_units : P .units = true) (c_link : P .link = true)
    (c_har : P .har = true) (eq0 : execHoldSwitchOn t h m sense s = .next s9) :
    Ch P q9 s9 := by
  unfold execHoldSwitchOn at eq0
  try dsimp only at eq0
  repeat' first | (apply event_within; case eq0 => assumption) | split at eq0 | (injection eq0 with eq0; subst eq0) | cases eq0
  all_goals repeat' first
    | dsimp only [GRes.all_ok, GRes.all_jump, GRes.all_trap, GRes.all_stop, Ans.all_reply, Ans.all_later, Ans.all_waits]
    | (with_reducible first | intro _ | assumption | exact True.intro | apply holdSwitch_within)
    | split
    | dsimp only

theorem execRegulationHandover_within (t : Instant) (h : HarnessId) (s : State) {s9 : State} (hq : Ch P q9 s)
    (c_tb : P .tb = true) (c_units : P .units = true) (c_link : P .link = true) (c_har : P .har = true)
    (eq0 : execRegulationHandover t h s = .next s9) :
    Ch P q9 s9 := by
  unfold execRegulationHandover at eq0
  try dsimp only at eq0
  repeat' first | (apply event_within; case eq0 => assumption) | split at eq0 | (injection eq0 with eq0; subst eq0) | cases eq0
  all_goals repeat' first
    | dsimp only [GRes.all_ok, GRes.all_jump, GRes.all_trap, GRes.all_stop, Ans.all_reply, Ans.all_later, Ans.all_waits]
    | (with_reducible first | intro _ | assumption | exact True.intro | apply State_modHar_within | apply regate_within)
    | split
    | dsimp only

theorem cancelDeferred_within (h : HarnessId) (m : Fin 4) (s : State) (hq : Ch P q9 s) (cE : EvOk P)
    (c_har : P .har = true) :
    Ch P q9 (cancelDeferred h m s) := by
  unfold cancelDeferred
  repeat' first
    | (with_reducible first | intro _ | assumption | apply State_modHar_within | apply postCancel_within)
    | split
    | dsimp only

theorem execDeferCancel_within (t : Instant) (h : HarnessId) (m : Fin 4) (s : State) {s9 : State} (hq : Ch P q9 s)
    (cE : EvOk P) (c_tb : P .tb = true) (c_har : P .har = true) (eq0 : execDeferCancel t h m s = .next s9) :
    Ch P q9 s9 := by
  unfold execDeferCancel at eq0
  try dsimp only at eq0
  repeat' first | (apply event_within; case eq0 => assumption) | split at eq0 | (injection eq0 with eq0; subst eq0) | cases eq0
  all_goals repeat' first
    | dsimp only [GRes.all_ok, GRes.all_jump, GRes.all_trap, GRes.all_stop, Ans.all_reply, Ans.all_later, Ans.all_waits]
    | (with_reducible first | intro _ | assumption | exact True.intro | apply cancelDeferred_within)
    | split
    | dsimp only

theorem execBankDeferReport_within (h : HarnessId) (m : Fin 4) (start : EvTime) (cycles : BitVec 24) (s : State)
    {s9 : State} (hq : Ch P q9 s) (cE : EvOk P) (c_har : P .har = true)
    (eq0 : execBankDeferReport h m start cycles s = .next s9) :
    Ch P q9 s9 := by
  unfold execBankDeferReport at eq0
  have e1 := Host.Outcome.next.inj eq0
  rw [← e1]
  repeat' first
    | dsimp only [GRes.all_ok, GRes.all_jump, GRes.all_trap, GRes.all_stop, Ans.all_reply, Ans.all_later, Ans.all_waits]
    | (with_reducible first
        | intro _ | assumption | exact True.intro | apply ite_within | apply State_modHar_within
        | apply postB63_within)
    | split
    | dsimp only

theorem deadDone_within (h : HarnessId) (d opp : Nat) (s : State) (hq : Ch P q9 s) (c_link : P .link = true) :
    Ch P q9 (deadDone h d opp s) := by
  unfold deadDone
  repeat' first
    | (with_reducible first | intro _ | assumption | apply ite_within)
    | (with_reducible eapply Ch.link c_link; first | assumption | apply ite_within)
    | split
    | dsimp only

theorem execDeadtimeEnd_within (t : Instant) (h : HarnessId) (phase : Fin 3) (s : State) {s9 : State} (hq : Ch P q9 s)
    (c_tb : P .tb = true) (c_link : P .link = true) (eq0 : execDeadtimeEnd t h phase s = .next s9) :
    Ch P q9 s9 := by
  unfold execDeadtimeEnd at eq0
  try dsimp only at eq0
  repeat' first | (apply event_within; case eq0 => assumption) | split at eq0 | (injection eq0 with eq0; subst eq0) | cases eq0
  all_goals repeat' first
    | dsimp only [GRes.all_ok, GRes.all_jump, GRes.all_trap, GRes.all_stop, Ans.all_reply, Ans.all_later, Ans.all_waits]
    | (with_reducible first | intro _ | assumption | exact True.intro | apply deadDone_within)
    | split
    | dsimp only

theorem cutGates_within (flag : Byte × Byte × BitVec 10) (h : HarnessId) (s : State) (hq : Ch P q9 s)
    (c_link : P .link = true) (c_har : P .har = true) :
    Ch P q9 (cutGates flag h s) := by
  unfold cutGates
  repeat' first
    | (with_reducible first
        | intro _ | assumption | apply ite_within | apply foldl_within | apply foldlFst_within
        | apply State_modHar_within)
    | (with_reducible eapply Ch.link c_link; first | assumption | apply State_modHar_within | apply ite_within | apply foldl_within)
    | split
    | dsimp only

theorem execPowerFaultCut_within (t : Instant) (h : HarnessId) (code member : Byte) (sense : BitVec 10) (mv : W16)
    (s : State) {s9 : State} (hq : Ch P q9 s) (c_tb : P .tb = true) (c_link : P .link = true) (c_har : P .har = true)
    (eq0 : execPowerFaultCut t h code member sense mv s = .next s9) :
    Ch P q9 s9 := by
  unfold execPowerFaultCut at eq0
  try dsimp only at eq0
  repeat' first | (apply event_within; case eq0 => assumption) | split at eq0 | (injection eq0 with eq0; subst eq0) | cases eq0
  all_goals repeat' first
    | dsimp only [GRes.all_ok, GRes.all_jump, GRes.all_trap, GRes.all_stop, Ans.all_reply, Ans.all_later, Ans.all_waits]
    | (with_reducible first | intro _ | assumption | exact True.intro | apply cutGates_within)
    | split
    | dsimp only

theorem execLinkSilence_within (s : State) {s9 : State} (hq : Ch P q9 s) (c_link : P .link = true)
    (c_har : P .har = true) (eq0 : execLinkSilence s = .next s9) :
    Ch P q9 s9 := by
  unfold execLinkSilence at eq0
  have e1 := Host.Outcome.next.inj eq0
  rw [← e1]
  repeat' first
    | dsimp only [GRes.all_ok, GRes.all_jump, GRes.all_trap, GRes.all_stop, Ans.all_reply, Ans.all_later, Ans.all_waits]
    | (with_reducible first
        | intro _ | assumption | exact True.intro | apply ite_within | apply forEach_within | apply cutGates_within
        | apply forEach_within)
    | (with_reducible eapply Ch.link c_link; first
        | assumption | apply cutGates_within | apply forEach_within | apply ite_within | apply forEach_within)
    | split
    | dsimp only

theorem execCpUndervoltage_within (t : Instant) (s : State) {s9 : State} (hq : Ch P q9 s) (cE : EvOk P)
    (c_tb : P .tb = true) (c_units : P .units = true) (c_xing : P .xing = true) (c_link : P .link = true)
    (c_har : P .har = true) (c_host : P .host = true) (eq0 : execCpUndervoltage t s = .next s9) :
    Ch P q9 s9 := by
  unfold execCpUndervoltage at eq0
  try dsimp only at eq0
  repeat' first | (apply event_within; case eq0 => assumption) | split at eq0 | (injection eq0 with eq0; subst eq0) | cases eq0
  all_goals repeat' first
    | dsimp only [GRes.all_ok, GRes.all_jump, GRes.all_trap, GRes.all_stop, Ans.all_reply, Ans.all_later, Ans.all_waits]
    | (with_reducible first
        | intro _ | assumption | exact True.intro | apply forEach_within | apply faultHarness_within
        | apply forEach_within)
    | split
    | dsimp only

theorem execStatusFrame_within (sdi : List Byte) (bad : Bool) (s : State) {s9 : State} (hq : Ch P q9 s) (cR : RsOk P)
    (eq0 : execStatusFrame sdi bad s = .next s9) :
    Ch P q9 s9 := by
  unfold execStatusFrame at eq0
  have e1 := Host.Outcome.next.inj eq0
  rw [← e1]
  repeat' first
    | dsimp only [GRes.all_ok, GRes.all_jump, GRes.all_trap, GRes.all_stop, Ans.all_reply, Ans.all_later, Ans.all_waits]
    | (with_reducible first | intro _ | assumption | exact True.intro | apply serveFrame_within)
    | split
    | dsimp only

theorem execStatusPeek_within (sdi : List Byte) (s : State) {s9 : State} (hq : Ch P q9 s) (cR : RsOk P)
    (eq0 : execStatusPeek sdi s = .next s9) :
    Ch P q9 s9 := by
  unfold execStatusPeek at eq0
  have e1 := Host.Outcome.next.inj eq0
  rw [← e1]
  repeat' first
    | dsimp only [GRes.all_ok, GRes.all_jump, GRes.all_trap, GRes.all_stop, Ans.all_reply, Ans.all_later, Ans.all_waits]
    | (with_reducible first | intro _ | assumption | exact True.intro | apply serveFrame_within)
    | split
    | dsimp only

theorem execReadFrame_within (sdi : List Byte) (bad : Bool) (s : State) {s9 : State} (hq : Ch P q9 s) (cR : RsOk P)
    (eq0 : execReadFrame sdi bad s = .next s9) :
    Ch P q9 s9 := by
  unfold execReadFrame at eq0
  have e1 := Host.Outcome.next.inj eq0
  rw [← e1]
  repeat' first
    | dsimp only [GRes.all_ok, GRes.all_jump, GRes.all_trap, GRes.all_stop, Ans.all_reply, Ans.all_later, Ans.all_waits]
    | (with_reducible first | intro _ | assumption | exact True.intro | apply serveFrame_within)
    | split
    | dsimp only

theorem execWriteFrame_within (sdi : List Byte) (bad : Bool) (s : State) {s9 : State} (hq : Ch P q9 s) (cR : RsOk P)
    (eq0 : execWriteFrame sdi bad s = .next s9) :
    Ch P q9 s9 := by
  unfold execWriteFrame at eq0
  have e1 := Host.Outcome.next.inj eq0
  rw [← e1]
  repeat' first
    | dsimp only [GRes.all_ok, GRes.all_jump, GRes.all_trap, GRes.all_stop, Ans.all_reply, Ans.all_later, Ans.all_waits]
    | (with_reducible first | intro _ | assumption | exact True.intro | apply serveFrame_within)
    | split
    | dsimp only

theorem execWriteApply_within (s : State) {s9 : State} (hq : Ch P q9 s) (cR : RsOk P)
    (eq0 : execWriteApply s = .next s9) :
    Ch P q9 s9 := by
  unfold execWriteApply at eq0
  have e1 := Host.Outcome.next.inj eq0
  rw [← e1]
  repeat' first
    | dsimp only [GRes.all_ok, GRes.all_jump, GRes.all_trap, GRes.all_stop, Ans.all_reply, Ans.all_later, Ans.all_waits]
    | (with_reducible first | intro _ | assumption | exact True.intro | apply ite_within | apply flushWrites_within)
    | split
    | dsimp only

theorem execClaimFrame_within (sdi : List Byte) (bad : Bool) (s : State) {s9 : State} (hq : Ch P q9 s) (cR : RsOk P)
    (eq0 : execClaimFrame sdi bad s = .next s9) :
    Ch P q9 s9 := by
  unfold execClaimFrame at eq0
  have e1 := Host.Outcome.next.inj eq0
  rw [← e1]
  repeat' first
    | dsimp only [GRes.all_ok, GRes.all_jump, GRes.all_trap, GRes.all_stop, Ans.all_reply, Ans.all_later, Ans.all_waits]
    | (with_reducible first | intro _ | assumption | exact True.intro | apply serveFrame_within)
    | split
    | dsimp only

theorem execCompleteFrame_within (sdi : List Byte) (bad : Bool) (s : State) {s9 : State} (hq : Ch P q9 s)
    (cR : RsOk P) (eq0 : execCompleteFrame sdi bad s = .next s9) :
    Ch P q9 s9 := by
  unfold execCompleteFrame at eq0
  have e1 := Host.Outcome.next.inj eq0
  rw [← e1]
  repeat' first
    | dsimp only [GRes.all_ok, GRes.all_jump, GRes.all_trap, GRes.all_stop, Ans.all_reply, Ans.all_later, Ans.all_waits]
    | (with_reducible first | intro _ | assumption | exact True.intro | apply serveFrame_within)
    | split
    | dsimp only

theorem execDoorbellFrame_within (sdi : List Byte) (bad : Bool) (s : State) {s9 : State} (hq : Ch P q9 s)
    (cR : RsOk P) (eq0 : execDoorbellFrame sdi bad s = .next s9) :
    Ch P q9 s9 := by
  unfold execDoorbellFrame at eq0
  have e1 := Host.Outcome.next.inj eq0
  rw [← e1]
  repeat' first
    | dsimp only [GRes.all_ok, GRes.all_jump, GRes.all_trap, GRes.all_stop, Ans.all_reply, Ans.all_later, Ans.all_waits]
    | (with_reducible first | intro _ | assumption | exact True.intro | apply serveFrame_within)
    | split
    | dsimp only

theorem execReplyRelease_within (mask : Byte) (s : State) {s9 : State} (hq : Ch P q9 s) (cR : RsOk P)
    (eq0 : execReplyRelease mask s = .next s9) :
    Ch P q9 s9 := by
  unfold execReplyRelease at eq0
  have e1 := Host.Outcome.next.inj eq0
  rw [← e1]
  repeat' first
    | dsimp only [GRes.all_ok, GRes.all_jump, GRes.all_trap, GRes.all_stop, Ans.all_reply, Ans.all_later, Ans.all_waits]
    | (with_reducible first | intro _ | assumption | exact True.intro | apply releaseReplies_within)
    | split
    | dsimp only

theorem execHostWatchdogExpiry_within (t : Instant) (s : State) {s9 : State} (hq : Ch P q9 s) (cE : EvOk P)
    (c_tb : P .tb = true) (c_units : P .units = true) (c_xing : P .xing = true) (c_link : P .link = true)
    (c_har : P .har = true) (c_host : P .host = true) (eq0 : execHostWatchdogExpiry t s = .next s9) :
    Ch P q9 s9 := by
  unfold execHostWatchdogExpiry at eq0
  try dsimp only at eq0
  repeat' first | (apply event_within; case eq0 => assumption) | split at eq0 | (injection eq0 with eq0; subst eq0) | cases eq0
  all_goals repeat' first
    | dsimp only [GRes.all_ok, GRes.all_jump, GRes.all_trap, GRes.all_stop, Ans.all_reply, Ans.all_later, Ans.all_waits]
    | (with_reducible first | intro _ | assumption | exact True.intro | apply hwdExpire_within)
    | split
    | dsimp only

theorem execHwdToWrite_within (v : W32) (s : State) {s9 : State} (hq : Ch P q9 s) (c_host : P .host = true)
    (eq0 : execHwdToWrite v s = .next s9) :
    Ch P q9 s9 := by
  unfold execHwdToWrite at eq0
  have e1 := Host.Outcome.next.inj eq0
  rw [← e1]
  repeat' first
    | dsimp only [GRes.all_ok, GRes.all_jump, GRes.all_trap, GRes.all_stop, Ans.all_reply, Ans.all_later, Ans.all_waits]
    | (with_reducible first | intro _ | assumption | exact True.intro | apply writeHwd_within)
    | split
    | dsimp only

theorem execHostLostClear_within (s : State) {s9 : State} (hq : Ch P q9 s) (c_host : P .host = true)
    (eq0 : execHostLostClear s = .next s9) :
    Ch P q9 s9 := by
  unfold execHostLostClear at eq0
  have e1 := Host.Outcome.next.inj eq0
  rw [← e1]
  repeat' first
    | dsimp only [GRes.all_ok, GRes.all_jump, GRes.all_trap, GRes.all_stop, Ans.all_reply, Ans.all_later, Ans.all_waits]
    | (with_reducible first | intro _ | assumption | exact True.intro | apply clearHostLost_within)
    | split
    | dsimp only

theorem execClaimFRead_within (eligAtRef : Bool) (s : State) {s9 : State} (hq : Ch P q9 s) (c_irq : P .irq = true)
    (eq0 : execClaimFRead eligAtRef s = .next s9) :
    Ch P q9 s9 := by
  unfold execClaimFRead at eq0
  have e1 := Host.Outcome.next.inj eq0
  rw [← e1]
  repeat' first
    | dsimp only [GRes.all_ok, GRes.all_jump, GRes.all_trap, GRes.all_stop, Ans.all_reply, Ans.all_later, Ans.all_waits]
    | (with_reducible first | intro _ | assumption | exact True.intro | apply ite_within | apply claimF_within)
    | split
    | dsimp only

theorem execCompleteFWrite_within (id : Byte) (s : State) {s9 : State} (hq : Ch P q9 s) (c_rsv : P .rsv = true)
    (c_irq : P .irq = true) (eq0 : execCompleteFWrite id s = .next s9) :
    Ch P q9 s9 := by
  unfold execCompleteFWrite at eq0
  have e1 := Host.Outcome.next.inj eq0
  rw [← e1]
  repeat' first
    | dsimp only [GRes.all_ok, GRes.all_jump, GRes.all_trap, GRes.all_stop, Ans.all_reply, Ans.all_later, Ans.all_waits]
    | (with_reducible first | intro _ | assumption | exact True.intro | apply ite_within | apply completeF_within)
    | (dsimp only [id]; assumption)
    | split
    | dsimp only

theorem scrubError_within (e : Byte × BitVec 24 × Bool) (s : State) (hq : Ch P q9 s) (cR : RsOk P) :
    Ch P q9 (scrubError e s) := by
  have cE := cR.toEvOk
  unfold scrubError
  repeat' first
    | (with_reducible first
        | intro _ | assumption | apply ite_within | apply corrected_within | apply uncorrectable_within)
    | split
    | dsimp only

theorem execSramScrub_within (retained : Bool) (errs : List (Byte × BitVec 24 × Bool)) (s : State) {s9 : State}
    (hq : Ch P q9 s) (cR : RsOk P) (eq0 : execSramScrub retained errs s = .next s9) :
    Ch P q9 s9 := by
  unfold execSramScrub at eq0
  try dsimp only at eq0
  repeat' first | split at eq0 | (injection eq0 with eq0; subst eq0) | cases eq0
  all_goals repeat' first
    | dsimp only [GRes.all_ok, GRes.all_jump, GRes.all_trap, GRes.all_stop, Ans.all_reply, Ans.all_later, Ans.all_waits]
    | (with_reducible first
        | intro _ | assumption | exact True.intro | apply ite_within | apply forEach_within | apply forEach_within
        | apply readWord_within | apply scrubError_within)
    | split
    | dsimp only

theorem execFrameRepairDone_within (f : Fin 128) (words : List W32) (s : State) {s9 : State} (hq : Ch P q9 s)
    (cE : EvOk P) (c_thr : P .thr = true) (c_frm : P .frm = true) (c_spw : P .spw = true)
    (eq0 : execFrameRepairDone f words s = .next s9) :
    Ch P q9 s9 := by
  unfold execFrameRepairDone at eq0
  have e1 := Host.Outcome.next.inj eq0
  rw [← e1]
  repeat' first
    | dsimp only [GRes.all_ok, GRes.all_jump, GRes.all_trap, GRes.all_stop, Ans.all_reply, Ans.all_later, Ans.all_waits]
    | (with_reducible first | intro _ | assumption | exact True.intro | apply ite_within | apply fillDone_within)
    | split
    | dsimp only

theorem execCorrectedErrorWindowEnd_within (t : Instant) (s : State) {s9 : State} (hq : Ch P q9 s)
    (c_tb : P .tb = true) (c_units : P .units = true) (c_hlt : P .hlt = true)
    (eq0 : execCorrectedErrorWindowEnd t s = .next s9) :
    Ch P q9 s9 := by
  unfold execCorrectedErrorWindowEnd at eq0
  try dsimp only at eq0
  repeat' first | (apply event_within; case eq0 => assumption) | split at eq0 | (injection eq0 with eq0; subst eq0) | cases eq0
  all_goals repeat' first
    | dsimp only [GRes.all_ok, GRes.all_jump, GRes.all_trap, GRes.all_stop, Ans.all_reply, Ans.all_later, Ans.all_waits]
    | (with_reducible first | intro _ | assumption | exact True.intro | apply ite_within)
    | (with_reducible eapply Ch.units c_units; eapply Ch.hlt c_hlt; first | assumption | apply ite_within)
    | split
    | dsimp only

theorem sampleDie_within (d : Fin 2) (t : Int) (s : State) (hq : Ch P q9 s) (cE : EvOk P) (c_units : P .units = true)
    (c_xing : P .xing = true) (c_link : P .link = true) (c_har : P .har = true) :
    Ch P q9 (sampleDie d t s) := by
  have c_irq := cE.irq
  have c_hlt := cE.hlt
  unfold sampleDie
  repeat' first
    | (with_reducible first
        | intro _ | assumption | apply ite_within | apply health_within | apply pulse_within | apply tripSafe_within)
    | (with_reducible eapply Ch.hlt c_hlt; first
        | assumption | apply health_within | apply pulse_within | apply tripSafe_within | apply ite_within)
    | split
    | dsimp only

theorem tempRelease_within (t0 t1 : Int) (s : State) (hq : Ch P q9 s) (cE : EvOk P) :
    Ch P q9 (tempRelease t0 t1 s) := by
  have c_hlt := cE.hlt
  unfold tempRelease
  repeat' first
    | (with_reducible first | intro _ | assumption | apply ite_within | apply health_within)
    | (with_reducible eapply Ch.hlt c_hlt; first | assumption | apply health_within | apply ite_within)
    | split
    | dsimp only

theorem supplyReport_within (i : Fin 5) (now : Bool) (mv : W16) (s : State) (hq : Ch P q9 s) (cE : EvOk P) :
    Ch P q9 (supplyReport i now mv s) := by
  have c_irq := cE.irq
  have c_hlt := cE.hlt
  unfold supplyReport
  repeat' first
    | (with_reducible first | intro _ | assumption | apply ite_within | apply health_within | apply pulse_within)
    | (with_reducible eapply Ch.hlt c_hlt; first | assumption | apply health_within | apply pulse_within | apply ite_within)
    | split
    | dsimp only

theorem vbatReport_within (high below : Bool) (mv : W16) (s : State) (hq : Ch P q9 s) (cE : EvOk P)
    (c_units : P .units = true) (c_xing : P .xing = true) (c_link : P .link = true) (c_har : P .har = true) :
    Ch P q9 (vbatReport high below mv s) := by
  have c_irq := cE.irq
  have c_hlt := cE.hlt
  unfold vbatReport
  repeat' first
    | (with_reducible first
        | intro _ | assumption | apply ite_within | apply health_within | apply pulse_within | apply tripSafe_within)
    | (with_reducible eapply Ch.hlt c_hlt; first
        | assumption | apply health_within | apply pulse_within | apply tripSafe_within | apply ite_within)
    | split
    | dsimp only

theorem execMonitorSample_within (t : Instant) (m : MonIn) (s : State) {s9 : State} (hq : Ch P q9 s) (cE : EvOk P)
    (c_tb : P .tb = true) (c_units : P .units = true) (c_xing : P .xing = true) (c_link : P .link = true)
    (c_har : P .har = true) (eq0 : execMonitorSample t m s = .next s9) :
    Ch P q9 s9 := by
  have c_hlt := cE.hlt
  unfold execMonitorSample at eq0
  try dsimp only at eq0
  repeat' first | (apply event_within; case eq0 => assumption) | split at eq0 | (injection eq0 with eq0; subst eq0) | cases eq0
  all_goals repeat' first
    | dsimp only [GRes.all_ok, GRes.all_jump, GRes.all_trap, GRes.all_stop, Ans.all_reply, Ans.all_later, Ans.all_waits]
    | (with_reducible first
        | intro _ | assumption | exact True.intro | apply ite_within | apply sampleDie_within
        | apply supplyReport_within | apply tempRelease_within | apply vbatReport_within)
    | (with_reducible eapply Ch.hlt c_hlt; first
        | assumption | apply sampleDie_within | apply supplyReport_within | apply tempRelease_within
        | apply vbatReport_within | apply ite_within)
    | split
    | dsimp only

theorem execUnitFailure_within (t : Instant) (u : UnitId) (chk : BitVec 5) (s : State) {s9 : State} (hq : Ch P q9 s)
    (cE : EvOk P) (c_tb : P .tb = true) (c_rsv : P .rsv = true) (c_units : P .units = true) (c_xing : P .xing = true)
    (c_arm : P .arm = true) (c_link : P .link = true) (c_har : P .har = true) (c_thr : P .thr = true)
    (c_lmap : P .lmap = true) (c_spw : P .spw = true) (c_host : P .host = true)
    (eq0 : execUnitFailure t u chk s = .next s9) :
    Ch P q9 s9 := by
  unfold execUnitFailure at eq0
  try dsimp only at eq0
  repeat' first | (apply event_within; case eq0 => assumption) | split at eq0 | (injection eq0 with eq0; subst eq0) | cases eq0
  all_goals repeat' first
    | dsimp only [GRes.all_ok, GRes.all_jump, GRes.all_trap, GRes.all_stop, Ans.all_reply, Ans.all_later, Ans.all_waits]
    | (with_reducible first | intro _ | assumption | exact True.intro | apply failUnit_within)
    | split
    | dsimp only

theorem execMigrationResume_within (t : Instant) (l : Lch) (s : State) {s9 : State} (hq : Ch P q9 s) (cE : EvOk P)
    (c_tb : P .tb = true) (c_nv : P .nv = true) (c_units : P .units = true) (c_xing : P .xing = true)
    (c_arm : P .arm = true) (c_link : P .link = true) (c_har : P .har = true) (c_thr : P .thr = true)
    (c_lmap : P .lmap = true) (c_host : P .host = true) (eq0 : execMigrationResume t l s = .next s9) :
    Ch P q9 s9 := by
  unfold execMigrationResume at eq0
  try dsimp only at eq0
  repeat' first | (apply event_within; case eq0 => assumption) | split at eq0 | (injection eq0 with eq0; subst eq0) | cases eq0
  all_goals repeat' first
    | dsimp only [GRes.all_ok, GRes.all_jump, GRes.all_trap, GRes.all_stop, Ans.all_reply, Ans.all_later, Ans.all_waits]
    | (with_reducible first | intro _ | assumption | exact True.intro | apply resumeMigration_within)
    | split
    | dsimp only

theorem execUnitRegisterEccCorrection_within (t : Instant) (u : UnitId) (s : State) {s9 : State} (hq : Ch P q9 s)
    (cE : EvOk P) (c_tb : P .tb = true) (c_rsv : P .rsv = true) (c_units : P .units = true) (c_xing : P .xing = true)
    (c_arm : P .arm = true) (c_link : P .link = true) (c_har : P .har = true) (c_thr : P .thr = true)
    (c_lmap : P .lmap = true) (c_spw : P .spw = true) (c_host : P .host = true)
    (eq0 : execUnitRegisterEccCorrection t u s = .next s9) :
    Ch P q9 s9 := by
  unfold execUnitRegisterEccCorrection at eq0
  try dsimp only at eq0
  repeat' first | (apply event_within; case eq0 => assumption) | split at eq0 | (injection eq0 with eq0; subst eq0) | cases eq0
  all_goals repeat' first
    | dsimp only [GRes.all_ok, GRes.all_jump, GRes.all_trap, GRes.all_stop, Ans.all_reply, Ans.all_later, Ans.all_waits]
    | (with_reducible first | intro _ | assumption | exact True.intro | apply eccCorrect_within)
    | split
    | dsimp only

theorem execTapsMeasure_within (t : Instant) (i : Fin 70) (taps : BitVec 6) (s : State) {s9 : State} (hq : Ch P q9 s)
    (cE : EvOk P) (c_tb : P .tb = true) (c_rsv : P .rsv = true) (c_units : P .units = true) (c_xing : P .xing = true)
    (c_arm : P .arm = true) (c_link : P .link = true) (c_har : P .har = true) (c_thr : P .thr = true)
    (c_lmap : P .lmap = true) (c_spw : P .spw = true) (c_conv : P .conv = true) (c_host : P .host = true)
    (eq0 : execTapsMeasure t i taps s = .next s9) :
    Ch P q9 s9 := by
  unfold execTapsMeasure at eq0
  try dsimp only at eq0
  repeat' first | (apply event_within; case eq0 => assumption) | split at eq0 | (injection eq0 with eq0; subst eq0) | cases eq0
  all_goals repeat' first
    | dsimp only [GRes.all_ok, GRes.all_jump, GRes.all_trap, GRes.all_stop, Ans.all_reply, Ans.all_later, Ans.all_waits]
    | (with_reducible first
        | intro _ | assumption | exact True.intro | apply ite_within | apply State_modUnit_within
        | apply tapsFail_within)
    | split
    | dsimp only

theorem execUnitInjWrite_within (u : UnitId) (v : BitVec 3) (s : State) {s9 : State} (hq : Ch P q9 s) (cE : EvOk P)
    (c_rsv : P .rsv = true) (c_units : P .units = true) (c_xing : P .xing = true) (c_arm : P .arm = true)
    (c_link : P .link = true) (c_har : P .har = true) (c_thr : P .thr = true) (c_lmap : P .lmap = true)
    (c_spw : P .spw = true) (c_host : P .host = true) (eq0 : execUnitInjWrite u v s = .next s9) :
    Ch P q9 s9 := by
  unfold execUnitInjWrite at eq0
  have e1 := Host.Outcome.next.inj eq0
  rw [← e1]
  repeat' first
    | dsimp only [GRes.all_ok, GRes.all_jump, GRes.all_trap, GRes.all_stop, Ans.all_reply, Ans.all_later, Ans.all_waits]
    | (with_reducible first | intro _ | assumption | exact True.intro | apply ite_within | apply injectUnit_within)
    | split
    | dsimp only

theorem execEngineDoze_within (e : EngineId) (s : State) {s9 : State} (hq : Ch P q9 s) (c_eng : P .eng = true)
    (eq0 : execEngineDoze e s = .next s9) :
    Ch P q9 s9 := by
  unfold execEngineDoze at eq0
  have e1 := Host.Outcome.next.inj eq0
  rw [← e1]
  repeat' first
    | dsimp only [GRes.all_ok, GRes.all_jump, GRes.all_trap, GRes.all_stop, Ans.all_reply, Ans.all_later, Ans.all_waits]
    | (with_reducible first | intro _ | assumption | exact True.intro | apply ite_within | apply State_modEng_within)
    | split
    | dsimp only

theorem execBudgetOverrun_within (tid : Tid) (cycles : W32) (s : State) {s9 : State} (hq : Ch P q9 s) (cE : EvOk P)
    (c_thr : P .thr = true) (c_spw : P .spw = true) (eq0 : execBudgetOverrun tid cycles s = .next s9) :
    Ch P q9 s9 := by
  have c_irq := cE.irq
  have c_hlt := cE.hlt
  unfold execBudgetOverrun at eq0
  have e1 := Host.Outcome.next.inj eq0
  rw [← e1]
  repeat' first
    | dsimp only [GRes.all_ok, GRes.all_jump, GRes.all_trap, GRes.all_stop, Ans.all_reply, Ans.all_later, Ans.all_waits]
    | (with_reducible first
        | intro _ | assumption | exact True.intro | apply ite_within | apply State_modThr_within
        | apply detEvent_within | apply postB63_within | apply pulse_within | apply stopThread_within)
    | (with_reducible eapply Ch.hlt c_hlt; first
        | assumption | apply State_modThr_within | apply detEvent_within | apply postB63_within | apply pulse_within
        | apply stopThread_within | apply ite_within)
    | split
    | dsimp only

theorem execEngineFault_within (t : Instant) (e : EngineId) (pc : W32) (s : State) {s9 : State} (hq : Ch P q9 s)
    (cE : EvOk P) (c_tb : P .tb = true) (c_rsv : P .rsv = true) (c_thr : P .thr = true) (c_eng : P .eng = true)
    (c_frm : P .frm = true) (c_spw : P .spw = true) (eq0 : execEngineFault t e pc s = .next s9) :
    Ch P q9 s9 := by
  unfold execEngineFault at eq0
  try dsimp only at eq0
  repeat' first | (apply event_within; case eq0 => assumption) | split at eq0 | (injection eq0 with eq0; subst eq0) | cases eq0
  all_goals repeat' first
    | dsimp only [GRes.all_ok, GRes.all_jump, GRes.all_trap, GRes.all_stop, Ans.all_reply, Ans.all_later, Ans.all_waits]
    | (with_reducible first | intro _ | assumption | exact True.intro | apply retireEngine_within)
    | split
    | dsimp only

theorem execPageFillComplete_within (p : ProgId) (page : BitVec 12) (words : List W32) (s : State) {s9 : State}
    (hq : Ch P q9 s) (cE : EvOk P) (c_thr : P .thr = true) (c_frm : P .frm = true) (c_spw : P .spw = true)
    (eq0 : execPageFillComplete p page words s = .next s9) :
    Ch P q9 s9 := by
  unfold execPageFillComplete at eq0
  have e1 := Host.Outcome.next.inj eq0
  rw [← e1]
  repeat' first
    | dsimp only [GRes.all_ok, GRes.all_jump, GRes.all_trap, GRes.all_stop, Ans.all_reply, Ans.all_later, Ans.all_waits]
    | (with_reducible first | intro _ | assumption | exact True.intro | apply fillDone_within)
    | split
    | dsimp only

theorem execPrefetchComplete_within (p : ProgId) (page : BitVec 12) (words : List W32) (s : State) {s9 : State}
    (hq : Ch P q9 s) (cE : EvOk P) (c_thr : P .thr = true) (c_frm : P .frm = true) (c_spw : P .spw = true)
    (eq0 : execPrefetchComplete p page words s = .next s9) :
    Ch P q9 s9 := by
  unfold execPrefetchComplete at eq0
  have e1 := Host.Outcome.next.inj eq0
  rw [← e1]
  repeat' first
    | dsimp only [GRes.all_ok, GRes.all_jump, GRes.all_trap, GRes.all_stop, Ans.all_reply, Ans.all_later, Ans.all_waits]
    | (with_reducible first | intro _ | assumption | exact True.intro | apply fillDone_within)
    | split
    | dsimp only

theorem execBasinPost_within (b : BasinId) (r : Rec) (s : State) {s9 : State} (hq : Ch P q9 s) (cE : EvOk P)
    (c_thr : P .thr = true) (c_eng : P .eng = true) (eq0 : execBasinPost b r s = .next s9) :
    Ch P q9 s9 := by
  unfold execBasinPost at eq0
  have e1 := Host.Outcome.next.inj eq0
  rw [← e1]
  repeat' first
    | dsimp only [GRes.all_ok, GRes.all_jump, GRes.all_trap, GRes.all_stop, Ans.all_reply, Ans.all_later, Ans.all_waits]
    | (with_reducible first | intro _ | assumption | exact True.intro | apply postBasin_within)
    | split
    | dsimp only

theorem execBasinAgeExpiry_within (t : Instant) (b : BasinId) (s : State) {s9 : State} (hq : Ch P q9 s) (cE : EvOk P)
    (c_tb : P .tb = true) (c_thr : P .thr = true) (c_eng : P .eng = true)
    (eq0 : execBasinAgeExpiry t b s = .next s9) :
    Ch P q9 s9 := by
  have c_bas := cE.bas
  unfold execBasinAgeExpiry at eq0
  try dsimp only at eq0
  repeat' first | (apply event_within; case eq0 => assumption) | split at eq0 | (injection eq0 with eq0; subst eq0) | cases eq0
  all_goals repeat' first
    | dsimp only [GRes.all_ok, GRes.all_jump, GRes.all_trap, GRes.all_stop, Ans.all_reply, Ans.all_later, Ans.all_waits]
    | (with_reducible first | intro _ | assumption | exact True.intro | apply State_modBas_within | apply thrEval_within)
    | split
    | dsimp only

theorem execRdCntWrite_within (b : BasinId) (v : W32) (s : State) {s9 : State} (hq : Ch P q9 s) (cE : EvOk P)
    (c_thr : P .thr = true) (c_eng : P .eng = true) (eq0 : execRdCntWrite b v s = .next s9) :
    Ch P q9 s9 := by
  unfold execRdCntWrite at eq0
  have e1 := Host.Outcome.next.inj eq0
  rw [← e1]
  repeat' first
    | dsimp only [GRes.all_ok, GRes.all_jump, GRes.all_trap, GRes.all_stop, Ans.all_reply, Ans.all_later, Ans.all_waits]
    | (with_reducible first
        | intro _ | assumption | exact True.intro | apply writeRdCnt_within
        | (apply writeRdCnt_within'; case eq0 => assumption))
    | split
    | dsimp only

theorem execThreadTimerMatch_within (t : Instant) (tid : Tid) (s : State) {s9 : State} (hq : Ch P q9 s) (cE : EvOk P)
    (c_tb : P .tb = true) (c_units : P .units = true) (c_xing : P .xing = true) (c_link : P .link = true)
    (c_har : P .har = true) (c_thr : P .thr = true) (c_eng : P .eng = true) (c_lmap : P .lmap = true)
    (eq0 : execThreadTimerMatch t tid s = .next s9) :
    Ch P q9 s9 := by
  unfold execThreadTimerMatch at eq0
  try dsimp only at eq0
  repeat' first | (apply event_within; case eq0 => assumption) | split at eq0 | (injection eq0 with eq0; subst eq0) | cases eq0
  all_goals repeat' first
    | dsimp only [GRes.all_ok, GRes.all_jump, GRes.all_trap, GRes.all_stop, Ans.all_reply, Ans.all_later, Ans.all_waits]
    | (with_reducible first
        | intro _ | assumption | exact True.intro | apply State_modThr_within | apply bridgeTimer_within
        | apply enqueue_within)
    | split
    | dsimp only

theorem commitEntry_within (i : Fin 256) (s : State) (hq : Ch P q9 s) (cE : EvOk P) (c_units : P .units = true)
    (c_xing : P .xing = true) (c_arm : P .arm = true) (c_link : P .link = true) (c_har : P .har = true)
    (c_thr : P .thr = true) (c_lmap : P .lmap = true) (c_spw : P .spw = true) :
    Ch P q9 (commitEntry i s) := by
  unfold commitEntry
  repeat' first
    | (with_reducible first
        | intro _ | assumption | apply ite_within | apply commutationMiss_within | apply enterX78_within)
    | split
    | dsimp only

theorem execSpillwayCommit_within (t : Instant) (s : State) {s9 : State} (hq : Ch P q9 s) (cE : EvOk P)
    (c_tb : P .tb = true) (c_units : P .units = true) (c_xing : P .xing = true) (c_arm : P .arm = true)
    (c_link : P .link = true) (c_har : P .har = true) (c_thr : P .thr = true) (c_lmap : P .lmap = true)
    (c_spw : P .spw = true) (eq0 : execSpillwayCommit t s = .next s9) :
    Ch P q9 s9 := by
  unfold execSpillwayCommit at eq0
  try dsimp only at eq0
  repeat' first | (apply event_within; case eq0 => assumption) | split at eq0 | (injection eq0 with eq0; subst eq0) | cases eq0
  all_goals repeat' first
    | dsimp only [GRes.all_ok, GRes.all_jump, GRes.all_trap, GRes.all_stop, Ans.all_reply, Ans.all_later, Ans.all_waits]
    | (with_reducible first | intro _ | assumption | exact True.intro | apply commitEntry_within)
    | split
    | dsimp only

theorem expireEntry_within (i : Fin 256) (s : State) (hq : Ch P q9 s) (cE : EvOk P) (c_units : P .units = true)
    (c_xing : P .xing = true) (c_link : P .link = true) (c_har : P .har = true) (c_thr : P .thr = true)
    (c_lmap : P .lmap = true) (c_spw : P .spw = true) :
    Ch P q9 (expireEntry i s) := by
  unfold expireEntry
  repeat' first
    | (with_reducible first
        | intro _ | assumption | apply State_modSpw_within | apply commutationMiss_within | apply dropEntries_within)
    | split
    | dsimp only

theorem execSpillwayExpiry_within (t : Instant) (i : Fin 256) (s : State) {s9 : State} (hq : Ch P q9 s) (cE : EvOk P)
    (c_tb : P .tb = true) (c_units : P .units = true) (c_xing : P .xing = true) (c_link : P .link = true)
    (c_har : P .har = true) (c_thr : P .thr = true) (c_lmap : P .lmap = true) (c_spw : P .spw = true)
    (eq0 : execSpillwayExpiry t i s = .next s9) :
    Ch P q9 s9 := by
  unfold execSpillwayExpiry at eq0
  try dsimp only at eq0
  repeat' first | (apply event_within; case eq0 => assumption) | split at eq0 | (injection eq0 with eq0; subst eq0) | cases eq0
  all_goals repeat' first
    | dsimp only [GRes.all_ok, GRes.all_jump, GRes.all_trap, GRes.all_stop, Ans.all_reply, Ans.all_later, Ans.all_waits]
    | (with_reducible first | intro _ | assumption | exact True.intro | apply expireEntry_within)
    | split
    | dsimp only

theorem execGaitEdge_within (n : Fin 2) (s : State) {s9 : State} (hq : Ch P q9 s) (cE : EvOk P)
    (c_rsv : P .rsv = true) (c_units : P .units = true) (c_xing : P .xing = true) (c_link : P .link = true)
    (c_har : P .har = true) (c_thr : P .thr = true) (c_eng : P .eng = true) (c_spw : P .spw = true)
    (c_gt : P .gt = true) (eq0 : execGaitEdge n s = .next s9) :
    Ch P q9 s9 := by
  unfold execGaitEdge at eq0
  have e1 := Host.Outcome.next.inj eq0
  rw [← e1]
  repeat' first
    | dsimp only [GRes.all_ok, GRes.all_jump, GRes.all_trap, GRes.all_stop, Ans.all_reply, Ans.all_later, Ans.all_waits]
    | (with_reducible first
        | intro _ | assumption | exact True.intro | apply State_modGt_within | apply wheelEdge_within)
    | split
    | dsimp only

theorem execGaitDeadline_within (t : Instant) (n : Fin 2) (s : State) {s9 : State} (hq : Ch P q9 s) (cE : EvOk P)
    (c_tb : P .tb = true) (c_units : P .units = true) (c_xing : P .xing = true) (c_link : P .link = true)
    (c_har : P .har = true) (c_thr : P .thr = true) (c_eng : P .eng = true) (c_spw : P .spw = true)
    (c_gt : P .gt = true) (eq0 : execGaitDeadline t n s = .next s9) :
    Ch P q9 s9 := by
  unfold execGaitDeadline at eq0
  try dsimp only at eq0
  repeat' first | (apply event_within; case eq0 => assumption) | split at eq0 | (injection eq0 with eq0; subst eq0) | cases eq0
  all_goals repeat' first
    | dsimp only [GRes.all_ok, GRes.all_jump, GRes.all_trap, GRes.all_stop, Ans.all_reply, Ans.all_later, Ans.all_waits]
    | (with_reducible first | intro _ | assumption | exact True.intro | apply enterHold_within)
    | split
    | dsimp only

theorem execGaitStall_within (t : Instant) (n : Fin 2) (s : State) {s9 : State} (hq : Ch P q9 s) (cE : EvOk P)
    (c_tb : P .tb = true) (c_rsv : P .rsv = true) (c_thr : P .thr = true) (c_eng : P .eng = true)
    (c_gt : P .gt = true) (eq0 : execGaitStall t n s = .next s9) :
    Ch P q9 s9 := by
  unfold execGaitStall at eq0
  try dsimp only at eq0
  repeat' first | (apply event_within; case eq0 => assumption) | split at eq0 | (injection eq0 with eq0; subst eq0) | cases eq0
  all_goals repeat' first
    | dsimp only [GRes.all_ok, GRes.all_jump, GRes.all_trap, GRes.all_stop, Ans.all_reply, Ans.all_later, Ans.all_waits]
    | (with_reducible first | intro _ | assumption | exact True.intro | apply trackerStall_within)
    | split
    | dsimp only

theorem execProbeStart_within (c : Fin 2) (s : State) {s9 : State} (hq : Ch P q9 s) (c_conv : P .conv = true)
    (c_prb : P .prb = true) (c_ps : P .ps = true) (eq0 : execProbeStart c s = .next s9) :
    Ch P q9 s9 := by
  unfold execProbeStart at eq0
  have e1 := Host.Outcome.next.inj eq0
  rw [← e1]
  repeat' first
    | dsimp only [GRes.all_ok, GRes.all_jump, GRes.all_trap, GRes.all_stop, Ans.all_reply, Ans.all_later, Ans.all_waits]
    | (with_reducible first | intro _ | assumption | exact True.intro | apply startConv_within)
    | split
    | dsimp only

theorem execChargeDone_within (t : Instant) (c : Fin 2) (s : State) {s9 : State} (hq : Ch P q9 s)
    (c_tb : P .tb = true) (c_conv : P .conv = true) (eq0 : execChargeDone t c s = .next s9) :
    Ch P q9 s9 := by
  unfold execChargeDone at eq0
  try dsimp only at eq0
  repeat' first | (apply event_within; case eq0 => assumption) | split at eq0 | (injection eq0 with eq0; subst eq0) | cases eq0
  all_goals repeat' first
    | dsimp only [GRes.all_ok, GRes.all_jump, GRes.all_trap, GRes.all_stop, Ans.all_reply, Ans.all_later, Ans.all_waits]
    | (with_reducible first | intro _ | assumption | exact True.intro | apply State_modConv_within)
    | split
    | dsimp only

theorem execDischargeTrip_within (t : Instant) (c : Fin 2) (s : State) {s9 : State} (hq : Ch P q9 s) (cE : EvOk P)
    (c_tb : P .tb = true) (c_xing : P .xing = true) (c_conv : P .conv = true) (c_prb : P .prb = true)
    (c_ps : P .ps = true) (eq0 : execDischargeTrip t c s = .next s9) :
    Ch P q9 s9 := by
  unfold execDischargeTrip at eq0
  try dsimp only at eq0
  repeat' first | (apply event_within; case eq0 => assumption) | split at eq0 | (injection eq0 with eq0; subst eq0) | cases eq0
  all_goals repeat' first
    | dsimp only [GRes.all_ok, GRes.all_jump, GRes.all_trap, GRes.all_stop, Ans.all_reply, Ans.all_later, Ans.all_waits]
    | (with_reducible first
        | intro _ | assumption | exact True.intro | apply dischargeEnd_within | apply settleSched_within)
    | split
    | dsimp only

theorem execDischargeTimeout_within (t : Instant) (c : Fin 2) (s : State) {s9 : State} (hq : Ch P q9 s) (cE : EvOk P)
    (c_tb : P .tb = true) (c_xing : P .xing = true) (c_conv : P .conv = true) (c_prb : P .prb = true)
    (c_ps : P .ps = true) (eq0 : execDischargeTimeout t c s = .next s9) :
    Ch P q9 s9 := by
  unfold execDischargeTimeout at eq0
  try dsimp only at eq0
  repeat' first | (apply event_within; case eq0 => assumption) | split at eq0 | (injection eq0 with eq0; subst eq0) | cases eq0
  all_goals repeat' first
    | dsimp only [GRes.all_ok, GRes.all_jump, GRes.all_trap, GRes.all_stop, Ans.all_reply, Ans.all_later, Ans.all_waits]
    | (with_reducible first
        | intro _ | assumption | exact True.intro | apply dischargeEnd_within | apply settleSched_within)
    | split
    | dsimp only

theorem takeSlotEvent_within (p : Fin 16) (s : State) (hq : Ch P q9 s) (c_xing : P .xing = true) :
    Ch P q9 (takeSlotEvent p s) := by
  unfold takeSlotEvent
  repeat' first
    | (with_reducible first | intro _ | assumption | apply State_modXing_within)
    | split
    | dsimp only

theorem execProbeSlotComplete_within (p : Fin 16) (s : State) {s9 : State} (hq : Ch P q9 s) (c_nv : P .nv = true)
    (c_xing : P .xing = true) (c_prb : P .prb = true) (c_ps : P .ps = true) (c_rcd : P .rcd = true)
    (c_irq : P .irq = true) (c_far : P .far = true) (c_hlt : P .hlt = true)
    (eq0 : execProbeSlotComplete p s = .next s9) :
    Ch P q9 s9 := by
  unfold execProbeSlotComplete at eq0
  have e1 := Host.Outcome.next.inj eq0
  rw [← e1]
  repeat' first
    | dsimp only [GRes.all_ok, GRes.all_jump, GRes.all_trap, GRes.all_stop, Ans.all_reply, Ans.all_later, Ans.all_waits]
    | (with_reducible first
        | intro _ | assumption | exact True.intro | apply ite_within | apply parkReturn_within
        | apply takeResult_within | apply takeSlotEvent_within)
    | split
    | dsimp only

theorem execMeasIntervalBoundary_within (t : Instant) (s : State) {s9 : State} (hq : Ch P q9 s) (c_tb : P .tb = true)
    (c_conv : P .conv = true) (c_prb : P .prb = true) (c_ps : P .ps = true)
    (eq0 : execMeasIntervalBoundary t s = .next s9) :
    Ch P q9 s9 := by
  unfold execMeasIntervalBoundary at eq0
  try dsimp only at eq0
  repeat' first | (apply event_within; case eq0 => assumption) | split at eq0 | (injection eq0 with eq0; subst eq0) | cases eq0
  all_goals repeat' first
    | dsimp only [GRes.all_ok, GRes.all_jump, GRes.all_trap, GRes.all_stop, Ans.all_reply, Ans.all_later, Ans.all_waits]
    | (with_reducible first | intro _ | assumption | exact True.intro | apply startRun_within)
    | (with_reducible eapply Ch.ps c_ps; first | assumption | apply startRun_within)
    | split
    | dsimp only

theorem execDecommissionErase_within (s : State) {s9 : State} (hq : Ch P q9 s) (c_nv : P .nv = true)
    (c_rcd : P .rcd = true) (c_host : P .host = true) (eq0 : execDecommissionErase s = .next s9) :
    Ch P q9 s9 := by
  unfold execDecommissionErase at eq0
  have e1 := Host.Outcome.next.inj eq0
  rw [← e1]
  repeat' first
    | dsimp only [GRes.all_ok, GRes.all_jump, GRes.all_trap, GRes.all_stop, Ans.all_reply, Ans.all_later, Ans.all_waits]
    | (with_reducible first | intro _ | assumption | exact True.intro | apply ite_within | apply writeReply_within)
    | (with_reducible eapply Ch.nv c_nv; eapply Ch.rcd c_rcd; first | assumption | apply writeReply_within | apply ite_within)
    | split
    | dsimp only

end Sys2Proof.Machine
end

