-- ==== Sys2Proof/Laws/PartsFarrier.lean ====
section
/-! SUPPORT. For each function of the model, the parts of the state it may change: FarrierChan, FarrierBas, FarrierGt,
FarrierSys, FarrierHar, FarrierHlt, FarrierProg, FarrierMot, FarrierPrb, FarrierTake. -/

namespace Sys2Proof.Machine

open Sys2Proof.Claims

set_option maxRecDepth 4096

variable {P : Part → Bool} {q9 : State}

theorem withUnit_within (lch : Byte) (body : Lch → UnitId → State → Ans) (s : State) (hq : Ch P q9 s)
    (k_body : ∀ a0 a1 x, Ch P q9 x → (body a0 a1 x).All fun t => Ch P q9 t) :
    (withUnit lch body s).All fun t => Ch P q9 t := by
  unfold withUnit
  repeat' first
    | dsimp only [GRes.all_ok, GRes.all_jump, GRes.all_trap, GRes.all_stop, Ans.all_reply, Ans.all_later, Ans.all_waits]
    | (with_reducible first
        | intro _ | assumption | exact True.intro | apply ite_within | apply k_body | apply refuse_within)
    | split
    | dsimp only

theorem loadTrims_within (l : Lch) (u : UnitId) (s : State) (hq : Ch P q9 s) (c_units : P .units = true) :
    Ch P q9 (loadTrims l u s) := by
  unfold loadTrims
  repeat' first
    | (with_reducible first | intro _ | assumption | apply State_modUnit_within)
    | split
    | dsimp only

theorem tagReport_within (l : Lch) (s : State) (hq : Ch P q9 s) (cE : EvOk P) :
    Ch P q9 (tagReport l s) := by
  unfold tagReport
  repeat' first
    | (with_reducible first | intro _ | assumption | apply ite_within | apply nvBad_within)
    | split
    | dsimp only

theorem holdUnit_within (l : Lch) (u : UnitId) (s : State) (hq : Ch P q9 s) (cE : EvOk P) (c_units : P .units = true)
    (c_xing : P .xing = true) (c_lmap : P .lmap = true) :
    Ch P q9 (holdUnit l u s) := by
  unfold holdUnit
  repeat' first
    | (with_reducible first
        | intro _ | assumption | apply State_modLMap_within | apply State_modUnit_within | apply feedPins_within
        | apply loadTrims_within)
    | split
    | dsimp only

theorem openChannel_within (l : Lch) (ctrl act prd cnt : W32) (s : State) {s9 : State} (hq : Ch P q9 s) (cE : EvOk P)
    (c_units : P .units = true) (c_xing : P .xing = true) (c_lmap : P .lmap = true)
    (eq0 : openChannel l ctrl act prd cnt s = some s9) :
    Ch P q9 s9 := by
  unfold openChannel at eq0
  try dsimp only at eq0
  repeat' first | split at eq0 | (with_reducible rw [Option.bind_eq_some_iff] at eq0; obtain ⟨_, _, eq0⟩ := eq0) | (with_reducible rw [Option.map_eq_some_iff] at eq0; obtain ⟨_, _, rfl⟩ := eq0) | cases eq0
  all_goals repeat' first
    | (with_reducible first
        | intro _ | assumption | apply State_modUnit_within | apply holdUnit_within | apply writeCtrl_within)
    | split
    | dsimp only

theorem reqChOpen_within (q : Req) (lch : Byte) (reserved : BitVec 24) (ctrl act prd cnt : W32) (s : State)
    (hq : Ch P q9 s) (cE : EvOk P) (c_units : P .units = true) (c_xing : P .xing = true) (c_lmap : P .lmap = true)
    (c_host : P .host = true) :
    Ch P q9 (reqChOpen q lch reserved ctrl act prd cnt s) := by
  have c_far := cE.far
  unfold reqChOpen
  repeat' first
    | dsimp only [GRes.all_ok, GRes.all_jump, GRes.all_trap, GRes.all_stop, Ans.all_reply, Ans.all_later, Ans.all_waits]
    | (with_reducible first
        | intro _ | assumption | exact True.intro | apply ite_within | apply adoptCh_within | apply carryOut_within
        | apply okAns_within | (apply openChannel_within; case eq0 => assumption) | apply refuse_within
        | apply tagReport_within)
    | split
    | dsimp only

theorem reqChClose_within (q : Req) (lch : Byte) (s : State) (hq : Ch P q9 s) (cE : EvOk P)
    (c_units : P .units = true) (c_xing : P .xing = true) (c_lmap : P .lmap = true) (c_spw : P .spw = true)
    (c_host : P .host = true) :
    Ch P q9 (reqChClose q lch s) := by
  unfold reqChClose
  repeat' first
    | dsimp only [GRes.all_ok, GRes.all_jump, GRes.all_trap, GRes.all_stop, Ans.all_reply, Ans.all_later, Ans.all_waits]
    | (with_reducible first
        | intro _ | assumption | exact True.intro | apply ite_within | apply carryOut_within
        | apply closeChannel_within | apply okAns_within | apply refuse_within)
    | split
    | dsimp only

theorem ctrlAns_within (l : Lch) (u : UnitId) (v : W32) (s : State) (hq : Ch P q9 s) (c_units : P .units = true)
    (c_far : P .far = true) :
    (ctrlAns l u v s).All fun t => Ch P q9 t := by
  unfold ctrlAns
  repeat' first
    | dsimp only [GRes.all_ok, GRes.all_jump, GRes.all_trap, GRes.all_stop, Ans.all_reply, Ans.all_later, Ans.all_waits]
    | (with_reducible first
        | intro _ | assumption | exact True.intro | apply ite_within | apply adoptCh_within | apply okAns_within
        | apply writeCtrl_within)
    | split
    | dsimp only

theorem reqChCfg_within (q : Req) (lch : Byte) (reserved : BitVec 24) (ctrl act : W32) (s : State) (hq : Ch P q9 s)
    (cE : EvOk P) (c_units : P .units = true) (c_host : P .host = true) :
    Ch P q9 (reqChCfg q lch reserved ctrl act s) := by
  have c_far := cE.far
  unfold reqChCfg
  repeat' first
    | dsimp only [GRes.all_ok, GRes.all_jump, GRes.all_trap, GRes.all_stop, Ans.all_reply, Ans.all_later, Ans.all_waits]
    | (with_reducible first
        | intro _ | assumption | exact True.intro | apply ite_within | apply State_modUnit_within
        | apply carryOut_within | apply ctrlAns_within | apply refuse_within | apply withUnit_within
        | apply writeCtrl_within)
    | split
    | dsimp only

theorem reqChWrite_within (q : Req) (lch reg flags reserved : Byte) (value : EvTime) (s : State) (hq : Ch P q9 s)
    (cE : EvOk P) (c_units : P .units = true) (c_xing : P .xing = true) (c_link : P .link = true)
    (c_har : P .har = true) (c_lmap : P .lmap = true) (c_host : P .host = true) :
    Ch P q9 (reqChWrite q lch reg flags reserved value s) := by
  have c_far := cE.far
  unfold reqChWrite
  repeat' first
    | dsimp only [GRes.all_ok, GRes.all_jump, GRes.all_trap, GRes.all_stop, Ans.all_reply, Ans.all_later, Ans.all_waits]
    | (with_reducible first
        | intro _ | assumption | exact True.intro | (apply Ans.reply_within; case eq0 => assumption)
        | (apply Ans.later_within; case eq0 => assumption) | apply ite_within | apply carryOut_within
        | apply chanOp_within | apply okWith_within | apply refuse_within)
    | (with_reducible eapply Ch.far c_far; first
        | assumption | apply carryOut_within | apply chanOp_within | apply okWith_within | apply refuse_within
        | apply ite_within)
    | split
    | dsimp only

theorem reqChCtl_within (q : Req) (lch op : Byte) (s : State) (hq : Ch P q9 s) (cE : EvOk P)
    (c_units : P .units = true) (c_xing : P .xing = true) (c_link : P .link = true) (c_har : P .har = true)
    (c_host : P .host = true) :
    Ch P q9 (reqChCtl q lch op s) := by
  have c_far := cE.far
  unfold reqChCtl
  repeat' first
    | dsimp only [GRes.all_ok, GRes.all_jump, GRes.all_trap, GRes.all_stop, Ans.all_reply, Ans.all_later, Ans.all_waits]
    | (with_reducible first
        | intro _ | assumption | exact True.intro | apply ite_within | apply adoptCh_within | apply carryOut_within
        | apply ctrlAns_within | apply force_within | apply okAns_within | apply refuse_within | apply unitOp_within
        | apply withUnit_within)
    | split
    | dsimp only

theorem reqChRead_within (q : Req) (lch flags : Byte) (s : State) (hq : Ch P q9 s) (cE : EvOk P)
    (c_units : P .units = true) (c_host : P .host = true) :
    Ch P q9 (reqChRead q lch flags s) := by
  unfold reqChRead
  repeat' first
    | dsimp only [GRes.all_ok, GRes.all_jump, GRes.all_trap, GRes.all_stop, Ans.all_reply, Ans.all_later, Ans.all_waits]
    | (with_reducible first
        | intro _ | assumption | exact True.intro | apply ite_within | apply State_modUnit_within
        | apply carryOut_within | apply okWith_within | apply refuse_within)
    | split
    | dsimp only

theorem reqTioSet_within (q : Req) (pin outSel flags : Byte) (s : State) (hq : Ch P q9 s) (cE : EvOk P)
    (c_units : P .units = true) (c_tio : P .tio = true) (c_xing : P .xing = true) (c_host : P .host = true) :
    Ch P q9 (reqTioSet q pin outSel flags s) := by
  unfold reqTioSet
  repeat' first
    | dsimp only [GRes.all_ok, GRes.all_jump, GRes.all_trap, GRes.all_stop, Ans.all_reply, Ans.all_later, Ans.all_waits]
    | (with_reducible first
        | intro _ | assumption | exact True.intro | apply ite_within | apply carryOut_within | apply okAns_within
        | apply refuse_within | apply writeTio_within)
    | split
    | dsimp only

theorem execChOpen_within (q : Req) (lch : Byte) (reserved : BitVec 24) (ctrl act prd cnt : W32) (s : State)
    {s9 : State} (hq : Ch P q9 s) (cE : EvOk P) (c_units : P .units = true) (c_xing : P .xing = true)
    (c_lmap : P .lmap = true) (c_host : P .host = true)
    (eq0 : execChOpen q lch reserved ctrl act prd cnt s = .next s9) :
    Ch P q9 s9 := by
  unfold execChOpen at eq0
  have e1 := Host.Outcome.next.inj eq0
  rw [← e1]
  repeat' first
    | dsimp only [GRes.all_ok, GRes.all_jump, GRes.all_trap, GRes.all_stop, Ans.all_reply, Ans.all_later, Ans.all_waits]
    | (with_reducible first | intro _ | assumption | exact True.intro | apply reqChOpen_within)
    | split
    | dsimp only

theorem execChClose_within (q : Req) (lch : Byte) (s : State) {s9 : State} (hq : Ch P q9 s) (cE : EvOk P)
    (c_units : P .units = true) (c_xing : P .xing = true) (c_lmap : P .lmap = true) (c_spw : P .spw = true)
    (c_host : P .host = true) (eq0 : execChClose q lch s = .next s9) :
    Ch P q9 s9 := by
  unfold execChClose at eq0
  have e1 := Host.Outcome.next.inj eq0
  rw [← e1]
  repeat' first
    | dsimp only [GRes.all_ok, GRes.all_jump, GRes.all_trap, GRes.all_stop, Ans.all_reply, Ans.all_later, Ans.all_waits]
    | (with_reducible first | intro _ | assumption | exact True.intro | apply reqChClose_within)
    | split
    | dsimp only

theorem execChCfg_within (q : Req) (lch : Byte) (reserved : BitVec 24) (ctrl act : W32) (s : State) {s9 : State}
    (hq : Ch P q9 s) (cE : EvOk P) (c_units : P .units = true) (c_host : P .host = true)
    (eq0 : execChCfg q lch reserved ctrl act s = .next s9) :
    Ch P q9 s9 := by
  unfold execChCfg at eq0
  have e1 := Host.Outcome.next.inj eq0
  rw [← e1]
  repeat' first
    | dsimp only [GRes.all_ok, GRes.all_jump, GRes.all_trap, GRes.all_stop, Ans.all_reply, Ans.all_later, Ans.all_waits]
    | (with_reducible first | intro _ | assumption | exact True.intro | apply reqChCfg_within)
    | split
    | dsimp only

theorem execChWrite_within (q : Req) (lch reg flags reserved : Byte) (value : EvTime) (s : State) {s9 : State}
    (hq : Ch P q9 s) (cE : EvOk P) (c_units : P .units = true) (c_xing : P .xing = true) (c_link : P .link = true)
    (c_har : P .har = true) (c_lmap : P .lmap = true) (c_host : P .host = true)
    (eq0 : execChWrite q lch reg flags reserved value s = .next s9) :
    Ch P q9 s9 := by
  unfold execChWrite at eq0
  have e1 := Host.Outcome.next.inj eq0
  rw [← e1]
  repeat' first
    | dsimp only [GRes.all_ok, GRes.all_jump, GRes.all_trap, GRes.all_stop, Ans.all_reply, Ans.all_later, Ans.all_waits]
    | (with_reducible first | intro _ | assumption | exact True.intro | apply reqChWrite_within)
    | split
    | dsimp only

theorem execChCtl_within (q : Req) (lch op : Byte) (s : State) {s9 : State} (hq : Ch P q9 s) (cE : EvOk P)
    (c_units : P .units = true) (c_xing : P .xing = true) (c_link : P .link = true) (c_har : P .har = true)
    (c_host : P .host = true) (eq0 : execChCtl q lch op s = .next s9) :
    Ch P q9 s9 := by
  unfold execChCtl at eq0
  have e1 := Host.Outcome.next.inj eq0
  rw [← e1]
  repeat' first
    | dsimp only [GRes.all_ok, GRes.all_jump, GRes.all_trap, GRes.all_stop, Ans.all_reply, Ans.all_later, Ans.all_waits]
    | (with_reducible first | intro _ | assumption | exact True.intro | apply reqChCtl_within)
    | split
    | dsimp only

theorem execChRead_within (q : Req) (lch flags : Byte) (s : State) {s9 : State} (hq : Ch P q9 s) (cE : EvOk P)
    (c_units : P .units = true) (c_host : P .host = true) (eq0 : execChRead q lch flags s = .next s9) :
    Ch P q9 s9 := by
  unfold execChRead at eq0
  have e1 := Host.Outcome.next.inj eq0
  rw [← e1]
  repeat' first
    | dsimp only [GRes.all_ok, GRes.all_jump, GRes.all_trap, GRes.all_stop, Ans.all_reply, Ans.all_later, Ans.all_waits]
    | (with_reducible first | intro _ | assumption | exact True.intro | apply reqChRead_within)
    | split
    | dsimp only

theorem execTioSet_within (q : Req) (pin outSel flags : Byte) (s : State) {s9 : State} (hq : Ch P q9 s) (cE : EvOk P)
    (c_units : P .units = true) (c_tio : P .tio = true) (c_xing : P .xing = true) (c_host : P .host = true)
    (eq0 : execTioSet q pin outSel flags s = .next s9) :
    Ch P q9 s9 := by
  unfold execTioSet at eq0
  have e1 := Host.Outcome.next.inj eq0
  rw [← e1]
  repeat' first
    | dsimp only [GRes.all_ok, GRes.all_jump, GRes.all_trap, GRes.all_stop, Ans.all_reply, Ans.all_later, Ans.all_waits]
    | (with_reducible first | intro _ | assumption | exact True.intro | apply reqTioSet_within)
    | split
    | dsimp only

theorem reqBOpen_within (q : Req) (b floor ceil policy : Byte) (thresh : W16) (age reserved : Byte) (s : State)
    (hq : Ch P q9 s) (cE : EvOk P) (c_host : P .host = true) :
    Ch P q9 (reqBOpen q b floor ceil policy thresh age reserved s) := by
  have c_bas := cE.bas
  have c_ost := cE.ost
  have c_far := cE.far
  unfold reqBOpen
  repeat' first
    | dsimp only [GRes.all_ok, GRes.all_jump, GRes.all_trap, GRes.all_stop, Ans.all_reply, Ans.all_later, Ans.all_waits]
    | (with_reducible first
        | intro _ | assumption | exact True.intro | apply ite_within | apply carryOut_within | apply okAns_within
        | apply openBasin_within | apply refuse_within)
    | split
    | dsimp only

theorem reqBClose_within (q : Req) (b : Byte) (s : State) (hq : Ch P q9 s) (cE : EvOk P) (c_thr : P .thr = true)
    (c_eng : P .eng = true) (c_host : P .host = true) :
    Ch P q9 (reqBClose q b s) := by
  unfold reqBClose
  repeat' first
    | dsimp only [GRes.all_ok, GRes.all_jump, GRes.all_trap, GRes.all_stop, Ans.all_reply, Ans.all_later, Ans.all_waits]
    | (with_reducible first
        | intro _ | assumption | exact True.intro | apply ite_within | apply carryOut_within | apply closeBasin_within
        | apply okAns_within | apply refuse_within)
    | split
    | dsimp only

theorem reqBSet_within (q : Req) (b reserved : Byte) (thresh : W16) (age ceil : Byte) (s : State) (hq : Ch P q9 s)
    (cE : EvOk P) (c_thr : P .thr = true) (c_eng : P .eng = true) (c_host : P .host = true) :
    Ch P q9 (reqBSet q b reserved thresh age ceil s) := by
  have c_bas := cE.bas
  have c_far := cE.far
  unfold reqBSet
  repeat' first
    | dsimp only [GRes.all_ok, GRes.all_jump, GRes.all_trap, GRes.all_stop, Ans.all_reply, Ans.all_later, Ans.all_waits]
    | (with_reducible first
        | intro _ | assumption | exact True.intro | apply ite_within | apply State_modBas_within
        | apply carryOut_within | apply okAns_within | apply refuse_within | apply resettle_within)
    | (with_reducible eapply Ch.far c_far; first
        | assumption | apply State_modBas_within | apply carryOut_within | apply okAns_within | apply refuse_within
        | apply resettle_within | apply ite_within)
    | split
    | dsimp only

theorem execBOpen_within (q : Req) (b floor ceil policy : Byte) (thresh : W16) (age reserved : Byte) (s : State)
    {s9 : State} (hq : Ch P q9 s) (cE : EvOk P) (c_host : P .host = true)
    (eq0 : execBOpen q b floor ceil policy thresh age reserved s = .next s9) :
    Ch P q9 s9 := by
  unfold execBOpen at eq0
  have e1 := Host.Outcome.next.inj eq0
  rw [← e1]
  repeat' first
    | dsimp only [GRes.all_ok, GRes.all_jump, GRes.all_trap, GRes.all_stop, Ans.all_reply, Ans.all_later, Ans.all_waits]
    | (with_reducible first | intro _ | assumption | exact True.intro | apply reqBOpen_within)
    | split
    | dsimp only

theorem execBClose_within (q : Req) (b : Byte) (s : State) {s9 : State} (hq : Ch P q9 s) (cE : EvOk P)
    (c_thr : P .thr = true) (c_eng : P .eng = true) (c_host : P .host = true) (eq0 : execBClose q b s = .next s9) :
    Ch P q9 s9 := by
  unfold execBClose at eq0
  have e1 := Host.Outcome.next.inj eq0
  rw [← e1]
  repeat' first
    | dsimp only [GRes.all_ok, GRes.all_jump, GRes.all_trap, GRes.all_stop, Ans.all_reply, Ans.all_later, Ans.all_waits]
    | (with_reducible first | intro _ | assumption | exact True.intro | apply reqBClose_within)
    | split
    | dsimp only

theorem execBSet_within (q : Req) (b reserved : Byte) (thresh : W16) (age ceil : Byte) (s : State) {s9 : State}
    (hq : Ch P q9 s) (cE : EvOk P) (c_thr : P .thr = true) (c_eng : P .eng = true) (c_host : P .host = true)
    (eq0 : execBSet q b reserved thresh age ceil s = .next s9) :
    Ch P q9 s9 := by
  unfold execBSet at eq0
  have e1 := Host.Outcome.next.inj eq0
  rw [← e1]
  repeat' first
    | dsimp only [GRes.all_ok, GRes.all_jump, GRes.all_trap, GRes.all_stop, Ans.all_reply, Ans.all_later, Ans.all_waits]
    | (with_reducible first | intro _ | assumption | exact True.intro | apply reqBSet_within)
    | split
    | dsimp only

theorem withTracker_within (n : Byte) (body : Fin 2 → State → Ans) (s : State) (hq : Ch P q9 s)
    (k_body : ∀ a0 x, Ch P q9 x → (body a0 x).All fun t => Ch P q9 t) :
    (withTracker n body s).All fun t => Ch P q9 t := by
  unfold withTracker
  repeat' first
    | dsimp only [GRes.all_ok, GRes.all_jump, GRes.all_trap, GRes.all_stop, Ans.all_reply, Ans.all_later, Ans.all_waits]
    | (with_reducible first | intro _ | assumption | exact True.intro | apply k_body | apply refuse_within)
    | split
    | dsimp only

theorem setWheel_within (l : Lch) (paired : Bool) (s : State) (hq : Ch P q9 s) (c_units : P .units = true)
    (c_far : P .far = true) :
    Ch P q9 ((setWheel l paired s).1) := by
  unfold setWheel
  repeat' first
    | (with_reducible first
        | intro _ | assumption | apply ite_within | apply iteFst_within | apply State_modUnit_within
        | apply adoptCh_within | apply writeCtrl_within)
    | split
    | dsimp only

theorem setWheel_within' (l : Lch) (paired : Bool) (s : State) {s9 : State} {x9 : _} (hq : Ch P q9 s)
    (c_units : P .units = true) (c_far : P .far = true) (eq0 : setWheel l paired s = (s9, x9)) :
    Ch P q9 s9 := by
  have e2 := setWheel_within l paired s hq c_units c_far
  rw [eq0] at e2
  exact e2

theorem writeWords_within (n : Fin 2) (w : Vector W32 11) (s : State) (hq : Ch P q9 s) (cE : EvOk P)
    (c_rsv : P .rsv = true) (c_units : P .units = true) (c_xing : P .xing = true) (c_link : P .link = true)
    (c_har : P .har = true) (c_thr : P .thr = true) (c_eng : P .eng = true) (c_spw : P .spw = true)
    (c_gt : P .gt = true) :
    Ch P q9 (writeWords n w s) := by
  unfold writeWords
  repeat' first
    | (with_reducible first
        | intro _ | assumption | apply forEach_within | apply forEach_within | apply writeTracker_within)
    | split
    | dsimp only

theorem reqGtOpen_within (q : Req) (n : Byte) (reserved : BitVec 24) (words : Vector W32 11) (s : State)
    (hq : Ch P q9 s) (cE : EvOk P) (c_rsv : P .rsv = true) (c_units : P .units = true) (c_xing : P .xing = true)
    (c_link : P .link = true) (c_har : P .har = true) (c_thr : P .thr = true) (c_eng : P .eng = true)
    (c_spw : P .spw = true) (c_gt : P .gt = true) (c_host : P .host = true) :
    Ch P q9 (reqGtOpen q n reserved words s) := by
  have c_far := cE.far
  unfold reqGtOpen
  repeat' first
    | dsimp only [GRes.all_ok, GRes.all_jump, GRes.all_trap, GRes.all_stop, Ans.all_reply, Ans.all_later, Ans.all_waits]
    | (with_reducible first
        | intro _ | assumption | exact True.intro | apply ite_within | apply iteFst_within | apply State_modGt_within
        | apply carryOut_within | apply okAns_within | apply refuse_within | apply setWheel_within
        | (apply setWheel_within'; case eq0 => assumption) | apply withTracker_within | apply writeWords_within)
    | split
    | dsimp only

theorem reqGtTune_within (q : Req) (n flags missMax reserved : Byte) (noise tol : W16) (s : State) (hq : Ch P q9 s)
    (cE : EvOk P) (c_gt : P .gt = true) (c_host : P .host = true) :
    Ch P q9 (reqGtTune q n flags missMax reserved noise tol s) := by
  unfold reqGtTune
  repeat' first
    | dsimp only [GRes.all_ok, GRes.all_jump, GRes.all_trap, GRes.all_stop, Ans.all_reply, Ans.all_later, Ans.all_waits]
    | (with_reducible first
        | intro _ | assumption | exact True.intro | apply ite_within | apply State_modGt_within
        | apply carryOut_within | apply okAns_within | apply refuse_within | apply withTracker_within)
    | split
    | dsimp only

theorem reqGtClose_within (q : Req) (n : Byte) (s : State) (hq : Ch P q9 s) (cE : EvOk P) (c_units : P .units = true)
    (c_xing : P .xing = true) (c_link : P .link = true) (c_har : P .har = true) (c_thr : P .thr = true)
    (c_eng : P .eng = true) (c_spw : P .spw = true) (c_gt : P .gt = true) (c_host : P .host = true) :
    Ch P q9 (reqGtClose q n s) := by
  have c_far := cE.far
  unfold reqGtClose
  repeat' first
    | dsimp only [GRes.all_ok, GRes.all_jump, GRes.all_trap, GRes.all_stop, Ans.all_reply, Ans.all_later, Ans.all_waits]
    | (with_reducible first
        | intro _ | assumption | exact True.intro | apply ite_within | apply forEach_within | apply adoptCh_within
        | apply adoptMembers_within | apply carryOut_within | apply disableTracker_within | apply forEach_within
        | apply okAns_within | apply refuse_within | apply withTracker_within)
    | split
    | dsimp only

theorem reqGtStatus_within (q : Req) (n : Byte) (s : State) (hq : Ch P q9 s) (cE : EvOk P) (c_gt : P .gt = true)
    (c_host : P .host = true) :
    Ch P q9 (reqGtStatus q n s) := by
  unfold reqGtStatus
  repeat' first
    | dsimp only [GRes.all_ok, GRes.all_jump, GRes.all_trap, GRes.all_stop, Ans.all_reply, Ans.all_later, Ans.all_waits]
    | (with_reducible first
        | intro _ | assumption | exact True.intro | apply State_modGt_within | apply carryOut_within
        | apply okWith_within | apply withTracker_within)
    | split
    | dsimp only

theorem execGtOpen_within (q : Req) (n : Byte) (reserved : BitVec 24) (words : Vector W32 11) (s : State) {s9 : State}
    (hq : Ch P q9 s) (cE : EvOk P) (c_rsv : P .rsv = true) (c_units : P .units = true) (c_xing : P .xing = true)
    (c_link : P .link = true) (c_har : P .har = true) (c_thr : P .thr = true) (c_eng : P .eng = true)
    (c_spw : P .spw = true) (c_gt : P .gt = true) (c_host : P .host = true)
    (eq0 : execGtOpen q n reserved words s = .next s9) :
    Ch P q9 s9 := by
  unfold execGtOpen at eq0
  have e1 := Host.Outcome.next.inj eq0
  rw [← e1]
  repeat' first
    | dsimp only [GRes.all_ok, GRes.all_jump, GRes.all_trap, GRes.all_stop, Ans.all_reply, Ans.all_later, Ans.all_waits]
    | (with_reducible first | intro _ | assumption | exact True.intro | apply reqGtOpen_within)
    | split
    | dsimp only

theorem execGtTune_within (q : Req) (n flags missMax reserved : Byte) (noise tol : W16) (s : State) {s9 : State}
    (hq : Ch P q9 s) (cE : EvOk P) (c_gt : P .gt = true) (c_host : P .host = true)
    (eq0 : execGtTune q n flags missMax reserved noise tol s = .next s9) :
    Ch P q9 s9 := by
  unfold execGtTune at eq0
  have e1 := Host.Outcome.next.inj eq0
  rw [← e1]
  repeat' first
    | dsimp only [GRes.all_ok, GRes.all_jump, GRes.all_trap, GRes.all_stop, Ans.all_reply, Ans.all_later, Ans.all_waits]
    | (with_reducible first | intro _ | assumption | exact True.intro | apply reqGtTune_within)
    | split
    | dsimp only

theorem execGtClose_within (q : Req) (n : Byte) (s : State) {s9 : State} (hq : Ch P q9 s) (cE : EvOk P)
    (c_units : P .units = true) (c_xing : P .xing = true) (c_link : P .link = true) (c_har : P .har = true)
    (c_thr : P .thr = true) (c_eng : P .eng = true) (c_spw : P .spw = true) (c_gt : P .gt = true)
    (c_host : P .host = true) (eq0 : execGtClose q n s = .next s9) :
    Ch P q9 s9 := by
  unfold execGtClose at eq0
  have e1 := Host.Outcome.next.inj eq0
  rw [← e1]
  repeat' first
    | dsimp only [GRes.all_ok, GRes.all_jump, GRes.all_trap, GRes.all_stop, Ans.all_reply, Ans.all_later, Ans.all_waits]
    | (with_reducible first | intro _ | assumption | exact True.intro | apply reqGtClose_within)
    | split
    | dsimp only

theorem execGtStatus_within (q : Req) (n : Byte) (s : State) {s9 : State} (hq : Ch P q9 s) (cE : EvOk P)
    (c_gt : P .gt = true) (c_host : P .host = true) (eq0 : execGtStatus q n s = .next s9) :
    Ch P q9 s9 := by
  unfold execGtStatus at eq0
  have e1 := Host.Outcome.next.inj eq0
  rw [← e1]
  repeat' first
    | dsimp only [GRes.all_ok, GRes.all_jump, GRes.all_trap, GRes.all_stop, Ans.all_reply, Ans.all_later, Ans.all_waits]
    | (with_reducible first | intro _ | assumption | exact True.intro | apply reqGtStatus_within)
    | split
    | dsimp only

theorem reqNop_within (q : Req) (s : State) (hq : Ch P q9 s) (cE : EvOk P) (c_host : P .host = true) :
    Ch P q9 (reqNop q s) := by
  unfold reqNop
  repeat' first
    | dsimp only [GRes.all_ok, GRes.all_jump, GRes.all_trap, GRes.all_stop, Ans.all_reply, Ans.all_later, Ans.all_waits]
    | (with_reducible first | intro _ | assumption | exact True.intro | apply carryOut_within | apply okAns_within)
    | split
    | dsimp only

theorem reqIdentity_within (q : Req) (s : State) (hq : Ch P q9 s) (cE : EvOk P) (c_host : P .host = true) :
    Ch P q9 (reqIdentity q s) := by
  unfold reqIdentity
  repeat' first
    | dsimp only [GRes.all_ok, GRes.all_jump, GRes.all_trap, GRes.all_stop, Ans.all_reply, Ans.all_later, Ans.all_waits]
    | (with_reducible first | intro _ | assumption | exact True.intro | apply carryOut_within | apply okWith_within)
    | split
    | dsimp only

theorem reqState_within (q : Req) (s : State) (hq : Ch P q9 s) (cE : EvOk P) (c_host : P .host = true) :
    Ch P q9 (reqState q s) := by
  unfold reqState
  repeat' first
    | dsimp only [GRes.all_ok, GRes.all_jump, GRes.all_trap, GRes.all_stop, Ans.all_reply, Ans.all_later, Ans.all_waits]
    | (with_reducible first | intro _ | assumption | exact True.intro | apply carryOut_within | apply okWith_within)
    | split
    | dsimp only

theorem idleChannels_within (s : State) (hq : Ch P q9 s) (c_units : P .units = true) (c_far : P .far = true) :
    Ch P q9 (idleChannels s) := by
  unfold idleChannels
  repeat' first
    | (with_reducible first
        | intro _ | assumption | apply ite_within | apply forEach_within | apply adoptCh_within | apply forEach_within
        | apply writeCtrl_within)
    | split
    | dsimp only

theorem sleepTracker_within (n : Fin 2) (s : State) (hq : Ch P q9 s) (cE : EvOk P) (c_units : P .units = true)
    (c_xing : P .xing = true) (c_link : P .link = true) (c_har : P .har = true) (c_thr : P .thr = true)
    (c_eng : P .eng = true) (c_spw : P .spw = true) (c_gt : P .gt = true) :
    Ch P q9 (sleepTracker n s) := by
  unfold sleepTracker
  repeat' first
    | (with_reducible first | intro _ | assumption | apply ite_within | apply disableTracker_within)
    | split
    | dsimp only

theorem startPark_within (park : W32) (s : State) (hq : Ch P q9 s) (c_nv : P .nv = true) (c_prb : P .prb = true)
    (c_ps : P .ps = true) (c_rcd : P .rcd = true) (c_irq : P .irq = true) (c_hlt : P .hlt = true) :
    Ch P q9 (startPark park s) := by
  unfold startPark
  repeat' first
    | (with_reducible first | intro _ | assumption | apply ite_within | apply log_within | apply setStep_within)
    | (with_reducible eapply Ch.ps c_ps; first | assumption | apply log_within | apply setStep_within | apply ite_within)
    | split
    | dsimp only

theorem acceptSleep_within (st : Byte) (idle parked : Bool) (mask : W16) (park : W32) (s : State) (hq : Ch P q9 s)
    (cE : EvOk P) (c_rsv : P .rsv = true) (c_nv : P .nv = true) (c_units : P .units = true) (c_xing : P .xing = true)
    (c_link : P .link = true) (c_har : P .har = true) (c_thr : P .thr = true) (c_eng : P .eng = true)
    (c_spw : P .spw = true) (c_gt : P .gt = true) (c_prb : P .prb = true) (c_ps : P .ps = true)
    (c_rcd : P .rcd = true) :
    Ch P q9 (acceptSleep st idle parked mask park s) := by
  have c_irq := cE.irq
  have c_far := cE.far
  have c_hlt := cE.hlt
  unfold acceptSleep
  repeat' first
    | (with_reducible first
        | intro _ | assumption | apply ite_within | apply idleChannels_within | apply sleepTracker_within
        | apply startPark_within | apply withdraw_within)
    | (with_reducible eapply Ch.rsv c_rsv; eapply Ch.ps c_ps; eapply Ch.irq c_irq; eapply Ch.far c_far; first
        | assumption | apply idleChannels_within | apply sleepTracker_within | apply startPark_within
        | apply withdraw_within | apply ite_within)
    | split
    | dsimp only

theorem reqSleep_within (q : Req) (st flags : Byte) (mask : W16) (park : W32) (s : State) (hq : Ch P q9 s)
    (cE : EvOk P) (c_rsv : P .rsv = true) (c_nv : P .nv = true) (c_units : P .units = true) (c_xing : P .xing = true)
    (c_link : P .link = true) (c_har : P .har = true) (c_thr : P .thr = true) (c_eng : P .eng = true)
    (c_spw : P .spw = true) (c_gt : P .gt = true) (c_prb : P .prb = true) (c_ps : P .ps = true)
    (c_rcd : P .rcd = true) (c_host : P .host = true) :
    Ch P q9 (reqSleep q st flags mask park s) := by
  unfold reqSleep
  repeat' first
    | dsimp only [GRes.all_ok, GRes.all_jump, GRes.all_trap, GRes.all_stop, Ans.all_reply, Ans.all_later, Ans.all_waits]
    | (with_reducible first
        | intro _ | assumption | exact True.intro | apply ite_within | apply acceptSleep_within
        | apply carryOut_within | apply okAns_within | apply refuse_within)
    | split
    | dsimp only

theorem reqReset_within (q : Req) (word : W16) (s : State) (hq : Ch P q9 s) (cE : EvOk P) (c_host : P .host = true) :
    Ch P q9 (reqReset q word s) := by
  have c_far := cE.far
  unfold reqReset
  repeat' first
    | dsimp only [GRes.all_ok, GRes.all_jump, GRes.all_trap, GRes.all_stop, Ans.all_reply, Ans.all_later, Ans.all_waits]
    | (with_reducible first
        | intro _ | assumption | exact True.intro | apply ite_within | apply carryOut_within | apply okAns_within
        | apply refuse_within)
    | (with_reducible eapply Ch.far c_far; first
        | assumption | apply carryOut_within | apply okAns_within | apply refuse_within | apply ite_within)
    | split
    | dsimp only

theorem reqCauseClear_within (q : Req) (bits : Byte) (s : State) (hq : Ch P q9 s) (cE : EvOk P)
    (c_host : P .host = true) (c_pwr : P .pwr = true) :
    Ch P q9 (reqCauseClear q bits s) := by
  unfold reqCauseClear
  repeat' first
    | dsimp only [GRes.all_ok, GRes.all_jump, GRes.all_trap, GRes.all_stop, Ans.all_reply, Ans.all_later, Ans.all_waits]
    | (with_reducible first | intro _ | assumption | exact True.intro | apply carryOut_within | apply okAns_within)
    | (with_reducible eapply Ch.pwr c_pwr; first | assumption | apply carryOut_within | apply okAns_within)
    | split
    | dsimp only

theorem reqProgMsg_within (q : Req) (mx : Byte) (s : State) (hq : Ch P q9 s) (cE : EvOk P) (c_host : P .host = true) :
    Ch P q9 (reqProgMsg q mx s) := by
  have c_far := cE.far
  unfold reqProgMsg
  repeat' first
    | dsimp only [GRes.all_ok, GRes.all_jump, GRes.all_trap, GRes.all_stop, Ans.all_reply, Ans.all_later, Ans.all_waits]
    | (with_reducible first
        | intro _ | assumption | exact True.intro | apply ite_within | apply carryOut_within | apply okWith_within
        | apply refuse_within)
    | (with_reducible eapply Ch.far c_far; first
        | assumption | apply carryOut_within | apply okWith_within | apply refuse_within | apply ite_within)
    | split
    | dsimp only

theorem reqTimeGet_within (q : Req) (s : State) (hq : Ch P q9 s) (cE : EvOk P) (c_tb : P .tb = true)
    (c_host : P .host = true) :
    Ch P q9 (reqTimeGet q s) := by
  unfold reqTimeGet
  repeat' first
    | dsimp only [GRes.all_ok, GRes.all_jump, GRes.all_trap, GRes.all_stop, Ans.all_reply, Ans.all_later, Ans.all_waits]
    | (with_reducible first
        | intro _ | assumption | exact True.intro | apply carryOut_within | apply okWith_within
        | apply tbReadFx_within)
    | split
    | dsimp only

theorem reqSpread_within (q : Req) (setting : Byte) (s : State) (hq : Ch P q9 s) (cE : EvOk P) (c_tb : P .tb = true)
    (c_host : P .host = true) :
    Ch P q9 (reqSpread q setting s) := by
  unfold reqSpread
  repeat' first
    | dsimp only [GRes.all_ok, GRes.all_jump, GRes.all_trap, GRes.all_stop, Ans.all_reply, Ans.all_later, Ans.all_waits]
    | (with_reducible first
        | intro _ | assumption | exact True.intro | apply ite_within | apply carryOut_within | apply okAns_within
        | apply refuse_within | apply writeSsc_within)
    | split
    | dsimp only

theorem reqAnchor_within (q : Req) (secs : W32) (ms : W16) (source reserved : Byte) (unc : W16) (s : State)
    (hq : Ch P q9 s) (cE : EvOk P) (c_nv : P .nv = true) (c_prb : P .prb = true) (c_ps : P .ps = true)
    (c_rcd : P .rcd = true) (c_host : P .host = true) :
    Ch P q9 (reqAnchor q secs ms source reserved unc s) := by
  have c_irq := cE.irq
  have c_hlt := cE.hlt
  unfold reqAnchor
  repeat' first
    | dsimp only [GRes.all_ok, GRes.all_jump, GRes.all_trap, GRes.all_stop, Ans.all_reply, Ans.all_later, Ans.all_waits]
    | (with_reducible first
        | intro _ | assumption | exact True.intro | apply ite_within | apply carryOut_within | apply entryAns_within
        | apply refuse_within)
    | split
    | dsimp only

theorem reqDrift_within (q : Req) (source : Byte) (reserved : BitVec 24) (ppm : W32) (s : State) (hq : Ch P q9 s)
    (cE : EvOk P) (c_tb : P .tb = true) (c_nv : P .nv = true) (c_prb : P .prb = true) (c_ps : P .ps = true)
    (c_rcd : P .rcd = true) (c_host : P .host = true) :
    Ch P q9 (reqDrift q source reserved ppm s) := by
  have c_irq := cE.irq
  have c_hlt := cE.hlt
  unfold reqDrift
  repeat' first
    | dsimp only [GRes.all_ok, GRes.all_jump, GRes.all_trap, GRes.all_stop, Ans.all_reply, Ans.all_later, Ans.all_waits]
    | (with_reducible first
        | intro _ | assumption | exact True.intro | apply ite_within | apply carryOut_within | apply entryAns_within
        | apply okWith_within | apply refuse_within)
    | (with_reducible eapply Ch.tb c_tb; first
        | assumption | apply carryOut_within | apply entryAns_within | apply okWith_within | apply refuse_within
        | apply ite_within)
    | split
    | dsimp only

theorem closeEpoch_within (s : State) (hq : Ch P q9 s) (c_nv : P .nv = true) (c_prb : P .prb = true)
    (c_ps : P .ps = true) (c_rcd : P .rcd = true) (c_irq : P .irq = true) (c_hlt : P .hlt = true) :
    Ch P q9 (closeEpoch s) := by
  unfold closeEpoch
  repeat' first
    | (with_reducible first
        | intro _ | assumption | apply ite_within | apply iteFst_within | apply note_within
        | (apply note_within'; case eq0 => assumption) | apply stateLoss_within)
    | (with_reducible eapply Ch.rcd c_rcd; first
        | assumption | apply note_within | (apply note_within'; case eq0 => assumption) | apply stateLoss_within
        | apply ite_within)
    | (with_reducible eapply Ch.rcd c_rcd; dsimp only; first | (apply note_within'; case eq0 => assumption))
    | split
    | dsimp only

theorem reqNewEpoch_within (q : Req) (word : W16) (s : State) (hq : Ch P q9 s) (cE : EvOk P) (c_nv : P .nv = true)
    (c_prb : P .prb = true) (c_ps : P .ps = true) (c_rcd : P .rcd = true) (c_host : P .host = true) :
    Ch P q9 (reqNewEpoch q word s) := by
  have c_irq := cE.irq
  have c_hlt := cE.hlt
  unfold reqNewEpoch
  repeat' first
    | dsimp only [GRes.all_ok, GRes.all_jump, GRes.all_trap, GRes.all_stop, Ans.all_reply, Ans.all_later, Ans.all_waits]
    | (with_reducible first
        | intro _ | assumption | exact True.intro | (apply Ans.reply_within; case eq0 => assumption)
        | (apply Ans.later_within; case eq0 => assumption) | apply ite_within | apply carryOut_within
        | apply closeEpoch_within | apply refuse_within | apply startEpoch_within)
    | (with_reducible eapply Ch.rcd c_rcd; first
        | assumption | apply carryOut_within | apply closeEpoch_within | apply refuse_within | apply startEpoch_within
        | apply ite_within)
    | split
    | dsimp only

theorem execNop_within (q : Req) (s : State) {s9 : State} (hq : Ch P q9 s) (cE : EvOk P) (c_host : P .host = true)
    (eq0 : execNop q s = .next s9) :
    Ch P q9 s9 := by
  unfold execNop at eq0
  have e1 := Host.Outcome.next.inj eq0
  rw [← e1]
  repeat' first
    | dsimp only [GRes.all_ok, GRes.all_jump, GRes.all_trap, GRes.all_stop, Ans.all_reply, Ans.all_later, Ans.all_waits]
    | (with_reducible first | intro _ | assumption | exact True.intro | apply reqNop_within)
    | split
    | dsimp only

theorem execIdentity_within (q : Req) (s : State) {s9 : State} (hq : Ch P q9 s) (cE : EvOk P)
    (c_host : P .host = true) (eq0 : execIdentity q s = .next s9) :
    Ch P q9 s9 := by
  unfold execIdentity at eq0
  have e1 := Host.Outcome.next.inj eq0
  rw [← e1]
  repeat' first
    | dsimp only [GRes.all_ok, GRes.all_jump, GRes.all_trap, GRes.all_stop, Ans.all_reply, Ans.all_later, Ans.all_waits]
    | (with_reducible first | intro _ | assumption | exact True.intro | apply reqIdentity_within)
    | split
    | dsimp only

theorem execState_within (q : Req) (s : State) {s9 : State} (hq : Ch P q9 s) (cE : EvOk P) (c_host : P .host = true)
    (eq0 : execState q s = .next s9) :
    Ch P q9 s9 := by
  unfold execState at eq0
  have e1 := Host.Outcome.next.inj eq0
  rw [← e1]
  repeat' first
    | dsimp only [GRes.all_ok, GRes.all_jump, GRes.all_trap, GRes.all_stop, Ans.all_reply, Ans.all_later, Ans.all_waits]
    | (with_reducible first | intro _ | assumption | exact True.intro | apply reqState_within)
    | split
    | dsimp only

theorem execSleep_within (q : Req) (st flags : Byte) (mask : W16) (park : W32) (s : State) {s9 : State}
    (hq : Ch P q9 s) (cE : EvOk P) (c_rsv : P .rsv = true) (c_nv : P .nv = true) (c_units : P .units = true)
    (c_xing : P .xing = true) (c_link : P .link = true) (c_har : P .har = true) (c_thr : P .thr = true)
    (c_eng : P .eng = true) (c_spw : P .spw = true) (c_gt : P .gt = true) (c_prb : P .prb = true)
    (c_ps : P .ps = true) (c_rcd : P .rcd = true) (c_host : P .host = true)
    (eq0 : execSleep q st flags mask park s = .next s9) :
    Ch P q9 s9 := by
  unfold execSleep at eq0
  have e1 := Host.Outcome.next.inj eq0
  rw [← e1]
  repeat' first
    | dsimp only [GRes.all_ok, GRes.all_jump, GRes.all_trap, GRes.all_stop, Ans.all_reply, Ans.all_later, Ans.all_waits]
    | (with_reducible first | intro _ | assumption | exact True.intro | apply reqSleep_within)
    | split
    | dsimp only

theorem execReset_within (q : Req) (word : W16) (s : State) {s9 : State} (hq : Ch P q9 s) (cE : EvOk P)
    (c_host : P .host = true) (eq0 : execReset q word s = .next s9) :
    Ch P q9 s9 := by
  unfold execReset at eq0
  have e1 := Host.Outcome.next.inj eq0
  rw [← e1]
  repeat' first
    | dsimp only [GRes.all_ok, GRes.all_jump, GRes.all_trap, GRes.all_stop, Ans.all_reply, Ans.all_later, Ans.all_waits]
    | (with_reducible first | intro _ | assumption | exact True.intro | apply reqReset_within)
    | split
    | dsimp only

theorem execResetReplyTimeout_within (t : Instant) (s : State) {s9 : State} (hq : Ch P q9 s) (cR : RsOk P)
    (eq0 : execResetReplyTimeout t s = .next s9) :
    Ch P q9 s9 := by
  have c_tb := cR.tb
  have c_far := cR.far
  unfold execResetReplyTimeout at eq0
  try dsimp only at eq0
  repeat' first | (apply event_within; case eq0 => assumption) | split at eq0 | (injection eq0 with eq0; subst eq0) | cases eq0
  all_goals repeat' first
    | dsimp only [GRes.all_ok, GRes.all_jump, GRes.all_trap, GRes.all_stop, Ans.all_reply, Ans.all_later, Ans.all_waits]
    | (with_reducible first | intro _ | assumption | exact True.intro | apply assertReset_within)
    | (with_reducible eapply Ch.far c_far; first | assumption | apply assertReset_within)
    | split
    | dsimp only

theorem execCauseClear_within (q : Req) (bits : Byte) (s : State) {s9 : State} (hq : Ch P q9 s) (cE : EvOk P)
    (c_host : P .host = true) (c_pwr : P .pwr = true) (eq0 : execCauseClear q bits s = .next s9) :
    Ch P q9 s9 := by
  unfold execCauseClear at eq0
  have e1 := Host.Outcome.next.inj eq0
  rw [← e1]
  repeat' first
    | dsimp only [GRes.all_ok, GRes.all_jump, GRes.all_trap, GRes.all_stop, Ans.all_reply, Ans.all_later, Ans.all_waits]
    | (with_reducible first | intro _ | assumption | exact True.intro | apply reqCauseClear_within)
    | split
    | dsimp only

theorem execProgMsg_within (q : Req) (mx : Byte) (s : State) {s9 : State} (hq : Ch P q9 s) (cE : EvOk P)
    (c_host : P .host = true) (eq0 : execProgMsg q mx s = .next s9) :
    Ch P q9 s9 := by
  unfold execProgMsg at eq0
  have e1 := Host.Outcome.next.inj eq0
  rw [← e1]
  repeat' first
    | dsimp only [GRes.all_ok, GRes.all_jump, GRes.all_trap, GRes.all_stop, Ans.all_reply, Ans.all_later, Ans.all_waits]
    | (with_reducible first | intro _ | assumption | exact True.intro | apply reqProgMsg_within)
    | split
    | dsimp only

theorem execTimeGet_within (q : Req) (s : State) {s9 : State} (hq : Ch P q9 s) (cE : EvOk P) (c_tb : P .tb = true)
    (c_host : P .host = true) (eq0 : execTimeGet q s = .next s9) :
    Ch P q9 s9 := by
  unfold execTimeGet at eq0
  have e1 := Host.Outcome.next.inj eq0
  rw [← e1]
  repeat' first
    | dsimp only [GRes.all_ok, GRes.all_jump, GRes.all_trap, GRes.all_stop, Ans.all_reply, Ans.all_later, Ans.all_waits]
    | (with_reducible first | intro _ | assumption | exact True.intro | apply reqTimeGet_within)
    | split
    | dsimp only

theorem execSpread_within (q : Req) (setting : Byte) (s : State) {s9 : State} (hq : Ch P q9 s) (cE : EvOk P)
    (c_tb : P .tb = true) (c_host : P .host = true) (eq0 : execSpread q setting s = .next s9) :
    Ch P q9 s9 := by
  unfold execSpread at eq0
  have e1 := Host.Outcome.next.inj eq0
  rw [← e1]
  repeat' first
    | dsimp only [GRes.all_ok, GRes.all_jump, GRes.all_trap, GRes.all_stop, Ans.all_reply, Ans.all_later, Ans.all_waits]
    | (with_reducible first | intro _ | assumption | exact True.intro | apply reqSpread_within)
    | split
    | dsimp only

theorem execAnchor_within (q : Req) (secs : W32) (ms : W16) (source reserved : Byte) (unc : W16) (s : State)
    {s9 : State} (hq : Ch P q9 s) (cE : EvOk P) (c_nv : P .nv = true) (c_prb : P .prb = true) (c_ps : P .ps = true)
    (c_rcd : P .rcd = true) (c_host : P .host = true) (eq0 : execAnchor q secs ms source reserved unc s = .next s9) :
    Ch P q9 s9 := by
  unfold execAnchor at eq0
  have e1 := Host.Outcome.next.inj eq0
  rw [← e1]
  repeat' first
    | dsimp only [GRes.all_ok, GRes.all_jump, GRes.all_trap, GRes.all_stop, Ans.all_reply, Ans.all_later, Ans.all_waits]
    | (with_reducible first | intro _ | assumption | exact True.intro | apply reqAnchor_within)
    | split
    | dsimp only

theorem execDrift_within (q : Req) (source : Byte) (reserved : BitVec 24) (ppm : W32) (s : State) {s9 : State}
    (hq : Ch P q9 s) (cE : EvOk P) (c_tb : P .tb = true) (c_nv : P .nv = true) (c_prb : P .prb = true)
    (c_ps : P .ps = true) (c_rcd : P .rcd = true) (c_host : P .host = true)
    (eq0 : execDrift q source reserved ppm s = .next s9) :
    Ch P q9 s9 := by
  unfold execDrift at eq0
  have e1 := Host.Outcome.next.inj eq0
  rw [← e1]
  repeat' first
    | dsimp only [GRes.all_ok, GRes.all_jump, GRes.all_trap, GRes.all_stop, Ans.all_reply, Ans.all_later, Ans.all_waits]
    | (with_reducible first | intro _ | assumption | exact True.intro | apply reqDrift_within)
    | split
    | dsimp only

theorem execNewEpoch_within (q : Req) (word : W16) (s : State) {s9 : State} (hq : Ch P q9 s) (cE : EvOk P)
    (c_nv : P .nv = true) (c_prb : P .prb = true) (c_ps : P .ps = true) (c_rcd : P .rcd = true)
    (c_host : P .host = true) (eq0 : execNewEpoch q word s = .next s9) :
    Ch P q9 s9 := by
  unfold execNewEpoch at eq0
  have e1 := Host.Outcome.next.inj eq0
  rw [← e1]
  repeat' first
    | dsimp only [GRes.all_ok, GRes.all_jump, GRes.all_trap, GRes.all_stop, Ans.all_reply, Ans.all_later, Ans.all_waits]
    | (with_reducible first | intro _ | assumption | exact True.intro | apply reqNewEpoch_within)
    | split
    | dsimp only

theorem bindHarness_within (r : HOpenReq) (s : State) (hq : Ch P q9 s) (cE : EvOk P) (c_units : P .units = true)
    (c_xing : P .xing = true) (c_link : P .link = true) (c_har : P .har = true) :
    Ch P q9 (bindHarness r s) := by
  have c_far := cE.far
  unfold bindHarness
  repeat' first
    | (with_reducible first
        | intro _ | assumption | apply ite_within | apply forEach_within | apply State_modHar_within
        | apply adoptHar_within | apply feedPins_within | apply forEach_within | apply gateReact_within)
    | split
    | dsimp only

theorem reqHOpen_within (q : Req) (h kind hsd reserved : Byte) (mch : W32) (grp : W64) (mls : W16) (s : State)
    (hq : Ch P q9 s) (cE : EvOk P) (c_units : P .units = true) (c_xing : P .xing = true) (c_link : P .link = true)
    (c_har : P .har = true) (c_host : P .host = true) :
    Ch P q9 (reqHOpen q h kind hsd reserved mch grp mls s) := by
  unfold reqHOpen
  repeat' first
    | dsimp only [GRes.all_ok, GRes.all_jump, GRes.all_trap, GRes.all_stop, Ans.all_reply, Ans.all_later, Ans.all_waits]
    | (with_reducible first
        | intro _ | assumption | exact True.intro | (apply Ans.reply_within; case eq0 => assumption)
        | (apply Ans.later_within; case eq0 => assumption) | apply ite_within | apply bindHarness_within
        | apply carryOut_within | apply okAns_within | apply refuse_within)
    | (with_reducible eapply Ch.link c_link; first
        | assumption | apply bindHarness_within | apply carryOut_within | apply okAns_within | apply refuse_within
        | apply ite_within)
    | split
    | dsimp only

theorem openFinish_within (s : State) (hq : Ch P q9 s) (cE : EvOk P) (c_units : P .units = true)
    (c_xing : P .xing = true) (c_link : P .link = true) (c_har : P .har = true) (c_host : P .host = true) :
    Ch P q9 (openFinish s) := by
  unfold openFinish
  repeat' first
    | (with_reducible first
        | intro _ | assumption | apply ite_within | apply bindHarness_within | apply writeReply_within)
    | (with_reducible eapply Ch.link c_link; first | assumption | apply bindHarness_within | apply writeReply_within | apply ite_within)
    | split
    | dsimp only

theorem execChargePumpReady_within (t : Instant) (s : State) {s9 : State} (hq : Ch P q9 s) (cE : EvOk P)
    (c_tb : P .tb = true) (c_units : P .units = true) (c_xing : P .xing = true) (c_link : P .link = true)
    (c_har : P .har = true) (c_host : P .host = true) (eq0 : execChargePumpReady t s = .next s9) :
    Ch P q9 s9 := by
  unfold execChargePumpReady at eq0
  try dsimp only at eq0
  repeat' first | (apply event_within; case eq0 => assumption) | split at eq0 | (injection eq0 with eq0; subst eq0) | cases eq0
  all_goals repeat' first
    | dsimp only [GRes.all_ok, GRes.all_jump, GRes.all_trap, GRes.all_stop, Ans.all_reply, Ans.all_later, Ans.all_waits]
    | (with_reducible first | intro _ | assumption | exact True.intro | apply openFinish_within)
    | (with_reducible eapply Ch.link c_link; first | assumption | apply openFinish_within)
    | split
    | dsimp only

theorem execChargePumpTimeout_within (t : Instant) (mv : W32) (s : State) {s9 : State} (hq : Ch P q9 s) (cE : EvOk P)
    (c_tb : P .tb = true) (c_link : P .link = true) (c_host : P .host = true)
    (eq0 : execChargePumpTimeout t mv s = .next s9) :
    Ch P q9 s9 := by
  have c_irq := cE.irq
  unfold execChargePumpTimeout at eq0
  try dsimp only at eq0
  repeat' first | (apply event_within; case eq0 => assumption) | split at eq0 | (injection eq0 with eq0; subst eq0) | cases eq0
  all_goals repeat' first
    | dsimp only [GRes.all_ok, GRes.all_jump, GRes.all_trap, GRes.all_stop, Ans.all_reply, Ans.all_later, Ans.all_waits]
    | (with_reducible first
        | intro _ | assumption | exact True.intro | apply health_within | apply pulse_within | apply writeReply_within)
    | (with_reducible eapply Ch.link c_link; first | assumption | apply health_within | apply pulse_within | apply writeReply_within)
    | split
    | dsimp only

theorem withHarness_within (h : Byte) (body : HarnessId → State → Ans) (s : State) (hq : Ch P q9 s)
    (k_body : ∀ a0 x, Ch P q9 x → (body a0 x).All fun t => Ch P q9 t) :
    (withHarness h body s).All fun t => Ch P q9 t := by
  unfold withHarness
  repeat' first
    | dsimp only [GRes.all_ok, GRes.all_jump, GRes.all_trap, GRes.all_stop, Ans.all_reply, Ans.all_later, Ans.all_waits]
    | (with_reducible first
        | intro _ | assumption | exact True.intro | apply ite_within | apply k_body | apply refuse_within)
    | split
    | dsimp only

theorem changeHarness_within (h : Byte) (body : HarnessId → State → Ans) (s : State) (hq : Ch P q9 s)
    (k_body : ∀ a0 x, Ch P q9 x → (body a0 x).All fun t => Ch P q9 t) :
    (changeHarness h body s).All fun t => Ch P q9 t := by
  unfold changeHarness
  repeat' first
    | dsimp only [GRes.all_ok, GRes.all_jump, GRes.all_trap, GRes.all_stop, Ans.all_reply, Ans.all_later, Ans.all_waits]
    | (with_reducible first
        | intro _ | assumption | exact True.intro | apply ite_within | apply k_body | apply refuse_within
        | apply withHarness_within)
    | split
    | dsimp only

theorem reqHClose_within (q : Req) (h : Byte) (s : State) (hq : Ch P q9 s) (cE : EvOk P) (c_units : P .units = true)
    (c_xing : P .xing = true) (c_link : P .link = true) (c_har : P .har = true) (c_spw : P .spw = true)
    (c_host : P .host = true) :
    Ch P q9 (reqHClose q h s) := by
  unfold reqHClose
  repeat' first
    | dsimp only [GRes.all_ok, GRes.all_jump, GRes.all_trap, GRes.all_stop, Ans.all_reply, Ans.all_later, Ans.all_waits]
    | (with_reducible first
        | intro _ | assumption | exact True.intro | apply ite_within | apply carryOut_within
        | apply changeHarness_within | apply closeHarness_within | apply okAns_within | apply refuse_within)
    | split
    | dsimp only

theorem writeSection_within (q : Req) (h : HarnessId) (base : Nat) (raw : List W32) (scaled : List W32) (s : State)
    (hq : Ch P q9 s) (cE : EvOk P) (c_units : P .units = true) (c_xing : P .xing = true) (c_link : P .link = true)
    (c_har : P .har = true) :
    (writeSection q h base raw scaled s).All fun t => Ch P q9 t := by
  unfold writeSection
  repeat' first
    | dsimp only [GRes.all_ok, GRes.all_jump, GRes.all_trap, GRes.all_stop, Ans.all_reply, Ans.all_later, Ans.all_waits]
    | (with_reducible first
        | intro _ | assumption | exact True.intro | apply ite_within | apply forEach_within | apply forEach_within
        | apply harCfgErr_within | apply harWrite_within | apply okAns_within | apply refuse_within)
    | (with_reducible eapply Ch.link c_link; first
        | assumption | apply forEach_within | apply harCfgErr_within | apply harWrite_within | apply okAns_within
        | apply refuse_within | apply ite_within | apply forEach_within)
    | split
    | dsimp only

theorem reqHCfg_within (q : Req) (h sec : Byte) (reserved : W16) (w0 w1 w2 : W32) (s : State) (hq : Ch P q9 s)
    (cE : EvOk P) (c_units : P .units = true) (c_xing : P .xing = true) (c_link : P .link = true)
    (c_har : P .har = true) (c_host : P .host = true) :
    Ch P q9 (reqHCfg q h sec reserved w0 w1 w2 s) := by
  unfold reqHCfg
  repeat' first
    | dsimp only [GRes.all_ok, GRes.all_jump, GRes.all_trap, GRes.all_stop, Ans.all_reply, Ans.all_later, Ans.all_waits]
    | (with_reducible first
        | intro _ | assumption | exact True.intro | apply ite_within | apply carryOut_within
        | apply changeHarness_within | apply refuse_within | apply writeSection_within)
    | split
    | dsimp only

theorem reqHAct_within (q : Req) (h : Byte) (reserved : BitVec 24) (word : W32) (s : State) (hq : Ch P q9 s)
    (cE : EvOk P) (c_units : P .units = true) (c_xing : P .xing = true) (c_link : P .link = true)
    (c_har : P .har = true) (c_host : P .host = true) :
    Ch P q9 (reqHAct q h reserved word s) := by
  have c_far := cE.far
  unfold reqHAct
  repeat' first
    | dsimp only [GRes.all_ok, GRes.all_jump, GRes.all_trap, GRes.all_stop, Ans.all_reply, Ans.all_later, Ans.all_waits]
    | (with_reducible first
        | intro _ | assumption | exact True.intro | apply ite_within | apply State_modHar_within
        | apply actHarness_within | apply adoptMembers_within | apply carryOut_within | apply changeHarness_within
        | apply okAns_within | apply refuse_within)
    | split
    | dsimp only

theorem reqHStatus_within (q : Req) (h : Byte) (s : State) (hq : Ch P q9 s) (cE : EvOk P) (c_har : P .har = true)
    (c_host : P .host = true) :
    Ch P q9 (reqHStatus q h s) := by
  unfold reqHStatus
  repeat' first
    | dsimp only [GRes.all_ok, GRes.all_jump, GRes.all_trap, GRes.all_stop, Ans.all_reply, Ans.all_later, Ans.all_waits]
    | (with_reducible first
        | intro _ | assumption | exact True.intro | apply State_modHar_within | apply carryOut_within
        | apply okWith_within | apply withHarness_within)
    | split
    | dsimp only

theorem reqHClear_within (q : Req) (h : Byte) (reserved : BitVec 24) (mask : W32) (s : State) (hq : Ch P q9 s)
    (cE : EvOk P) (c_har : P .har = true) (c_host : P .host = true) :
    Ch P q9 (reqHClear q h reserved mask s) := by
  have c_far := cE.far
  unfold reqHClear
  repeat' first
    | dsimp only [GRes.all_ok, GRes.all_jump, GRes.all_trap, GRes.all_stop, Ans.all_reply, Ans.all_later, Ans.all_waits]
    | (with_reducible first
        | intro _ | assumption | exact True.intro | apply ite_within | apply adoptHar_within | apply carryOut_within
        | apply changeHarness_within | apply clearFaults_within | apply okAns_within | apply refuse_within)
    | split
    | dsimp only

theorem reqHRide_within (q : Req) (h v : Byte) (s : State) (hq : Ch P q9 s) (cE : EvOk P) (c_har : P .har = true)
    (c_host : P .host = true) :
    Ch P q9 (reqHRide q h v s) := by
  unfold reqHRide
  repeat' first
    | dsimp only [GRes.all_ok, GRes.all_jump, GRes.all_trap, GRes.all_stop, Ans.all_reply, Ans.all_later, Ans.all_waits]
    | (with_reducible first
        | intro _ | assumption | exact True.intro | apply ite_within | apply State_modHar_within
        | apply carryOut_within | apply changeHarness_within | apply okAns_within | apply refuse_within)
    | split
    | dsimp only

theorem execHOpen_within (q : Req) (h kind hsd reserved : Byte) (mch : W32) (grp : W64) (mls : W16) (s : State)
    {s9 : State} (hq : Ch P q9 s) (cE : EvOk P) (c_units : P .units = true) (c_xing : P .xing = true)
    (c_link : P .link = true) (c_har : P .har = true) (c_host : P .host = true)
    (eq0 : execHOpen q h kind hsd reserved mch grp mls s = .next s9) :
    Ch P q9 s9 := by
  unfold execHOpen at eq0
  have e1 := Host.Outcome.next.inj eq0
  rw [← e1]
  repeat' first
    | dsimp only [GRes.all_ok, GRes.all_jump, GRes.all_trap, GRes.all_stop, Ans.all_reply, Ans.all_later, Ans.all_waits]
    | (with_reducible first | intro _ | assumption | exact True.intro | apply reqHOpen_within)
    | split
    | dsimp only

theorem execHClose_within (q : Req) (h : Byte) (s : State) {s9 : State} (hq : Ch P q9 s) (cE : EvOk P)
    (c_units : P .units = true) (c_xing : P .xing = true) (c_link : P .link = true) (c_har : P .har = true)
    (c_spw : P .spw = true) (c_host : P .host = true) (eq0 : execHClose q h s = .next s9) :
    Ch P q9 s9 := by
  unfold execHClose at eq0
  have e1 := Host.Outcome.next.inj eq0
  rw [← e1]
  repeat' first
    | dsimp only [GRes.all_ok, GRes.all_jump, GRes.all_trap, GRes.all_stop, Ans.all_reply, Ans.all_later, Ans.all_waits]
    | (with_reducible first | intro _ | assumption | exact True.intro | apply reqHClose_within)
    | split
    | dsimp only

theorem execHCfg_within (q : Req) (h sec : Byte) (reserved : W16) (w0 w1 w2 : W32) (s : State) {s9 : State}
    (hq : Ch P q9 s) (cE : EvOk P) (c_units : P .units = true) (c_xing : P .xing = true) (c_link : P .link = true)
    (c_har : P .har = true) (c_host : P .host = true) (eq0 : execHCfg q h sec reserved w0 w1 w2 s = .next s9) :
    Ch P q9 s9 := by
  unfold execHCfg at eq0
  have e1 := Host.Outcome.next.inj eq0
  rw [← e1]
  repeat' first
    | dsimp only [GRes.all_ok, GRes.all_jump, GRes.all_trap, GRes.all_stop, Ans.all_reply, Ans.all_later, Ans.all_waits]
    | (with_reducible first | intro _ | assumption | exact True.intro | apply reqHCfg_within)
    | split
    | dsimp only

theorem execHAct_within (q : Req) (h : Byte) (reserved : BitVec 24) (word : W32) (s : State) {s9 : State}
    (hq : Ch P q9 s) (cE : EvOk P) (c_units : P .units = true) (c_xing : P .xing = true) (c_link : P .link = true)
    (c_har : P .har = true) (c_host : P .host = true) (eq0 : execHAct q h reserved word s = .next s9) :
    Ch P q9 s9 := by
  unfold execHAct at eq0
  have e1 := Host.Outcome.next.inj eq0
  rw [← e1]
  repeat' first
    | dsimp only [GRes.all_ok, GRes.all_jump, GRes.all_trap, GRes.all_stop, Ans.all_reply, Ans.all_later, Ans.all_waits]
    | (with_reducible first | intro _ | assumption | exact True.intro | apply reqHAct_within)
    | split
    | dsimp only

theorem execHStatus_within (q : Req) (h : Byte) (s : State) {s9 : State} (hq : Ch P q9 s) (cE : EvOk P)
    (c_har : P .har = true) (c_host : P .host = true) (eq0 : execHStatus q h s = .next s9) :
    Ch P q9 s9 := by
  unfold execHStatus at eq0
  have e1 := Host.Outcome.next.inj eq0
  rw [← e1]
  repeat' first
    | dsimp only [GRes.all_ok, GRes.all_jump, GRes.all_trap, GRes.all_stop, Ans.all_reply, Ans.all_later, Ans.all_waits]
    | (with_reducible first | intro _ | assumption | exact True.intro | apply reqHStatus_within)
    | split
    | dsimp only

theorem execHClear_within (q : Req) (h : Byte) (reserved : BitVec 24) (mask : W32) (s : State) {s9 : State}
    (hq : Ch P q9 s) (cE : EvOk P) (c_har : P .har = true) (c_host : P .host = true)
    (eq0 : execHClear q h reserved mask s = .next s9) :
    Ch P q9 s9 := by
  unfold execHClear at eq0
  have e1 := Host.Outcome.next.inj eq0
  rw [← e1]
  repeat' first
    | dsimp only [GRes.all_ok, GRes.all_jump, GRes.all_trap, GRes.all_stop, Ans.all_reply, Ans.all_later, Ans.all_waits]
    | (with_reducible first | intro _ | assumption | exact True.intro | apply reqHClear_within)
    | split
    | dsimp only

theorem execHRide_within (q : Req) (h v : Byte) (s : State) {s9 : State} (hq : Ch P q9 s) (cE : EvOk P)
    (c_har : P .har = true) (c_host : P .host = true) (eq0 : execHRide q h v s = .next s9) :
    Ch P q9 s9 := by
  unfold execHRide at eq0
  have e1 := Host.Outcome.next.inj eq0
  rw [← e1]
  repeat' first
    | dsimp only [GRes.all_ok, GRes.all_jump, GRes.all_trap, GRes.all_stop, Ans.all_reply, Ans.all_later, Ans.all_waits]
    | (with_reducible first | intro _ | assumption | exact True.intro | apply reqHRide_within)
    | split
    | dsimp only

theorem reqHealthSum_within (q : Req) (s : State) (hq : Ch P q9 s) (cE : EvOk P) (c_host : P .host = true) :
    Ch P q9 (reqHealthSum q s) := by
  unfold reqHealthSum
  repeat' first
    | dsimp only [GRes.all_ok, GRes.all_jump, GRes.all_trap, GRes.all_stop, Ans.all_reply, Ans.all_later, Ans.all_waits]
    | (with_reducible first
        | intro _ | assumption | exact True.intro | apply foldl_within | apply foldlFst_within | apply carryOut_within
        | apply okWith_within)
    | split
    | dsimp only

theorem reqHealthDet_within (q : Req) (cls idx : Byte) (s : State) (hq : Ch P q9 s) (cE : EvOk P)
    (c_host : P .host = true) :
    Ch P q9 (reqHealthDet q cls idx s) := by
  unfold reqHealthDet
  repeat' first
    | dsimp only [GRes.all_ok, GRes.all_jump, GRes.all_trap, GRes.all_stop, Ans.all_reply, Ans.all_later, Ans.all_waits]
    | (with_reducible first
        | intro _ | assumption | exact True.intro | apply ite_within | apply carryOut_within | apply okWith_within
        | apply refuse_within)
    | split
    | dsimp only

theorem reqInjOpen1_within (q : Req) (word : W32) (s : State) (hq : Ch P q9 s) (cE : EvOk P)
    (c_host : P .host = true) :
    Ch P q9 (reqInjOpen1 q word s) := by
  have c_far := cE.far
  unfold reqInjOpen1
  repeat' first
    | dsimp only [GRes.all_ok, GRes.all_jump, GRes.all_trap, GRes.all_stop, Ans.all_reply, Ans.all_later, Ans.all_waits]
    | (with_reducible first
        | intro _ | assumption | exact True.intro | apply ite_within | apply carryOut_within | apply okWith_within
        | apply refuse_within)
    | (with_reducible eapply Ch.far c_far; first
        | assumption | apply carryOut_within | apply okWith_within | apply refuse_within | apply ite_within)
    | split
    | dsimp only

theorem reqInjOpen2_within (q : Req) (word : W16) (s : State) (hq : Ch P q9 s) (cE : EvOk P)
    (c_host : P .host = true) :
    Ch P q9 (reqInjOpen2 q word s) := by
  have c_irq := cE.irq
  have c_far := cE.far
  unfold reqInjOpen2
  repeat' first
    | dsimp only [GRes.all_ok, GRes.all_jump, GRes.all_trap, GRes.all_stop, Ans.all_reply, Ans.all_later, Ans.all_waits]
    | (with_reducible first
        | intro _ | assumption | exact True.intro | apply ite_within | apply carryOut_within | apply okAns_within
        | apply pulse_within | apply refuse_within)
    | (with_reducible eapply Ch.far c_far; first
        | assumption | apply carryOut_within | apply okAns_within | apply pulse_within | apply refuse_within
        | apply ite_within)
    | split
    | dsimp only

theorem reqInjFire_within (q : Req) (cls idx : Byte) (reserved : W16) (par : W32) (s : State) (hq : Ch P q9 s)
    (cR : RsOk P) (c_nv : P .nv = true) :
    Ch P q9 (reqInjFire q cls idx reserved par s) := by
  have cE := cR.toEvOk
  have c_host := cR.host
  have c_irq := cR.irq
  unfold reqInjFire
  repeat' first
    | dsimp only [GRes.all_ok, GRes.all_jump, GRes.all_trap, GRes.all_stop, Ans.all_reply, Ans.all_later, Ans.all_waits]
    | (with_reducible first
        | intro _ | assumption | exact True.intro | apply ite_within | apply carryOut_within
        | (apply inject_within; case eq0 => assumption) | apply okAns_within | apply pulse_within
        | apply refuse_within)
    | split
    | dsimp only

theorem reqInjClose_within (q : Req) (s : State) (hq : Ch P q9 s) (cE : EvOk P) (c_host : P .host = true) :
    Ch P q9 (reqInjClose q s) := by
  have c_far := cE.far
  unfold reqInjClose
  repeat' first
    | dsimp only [GRes.all_ok, GRes.all_jump, GRes.all_trap, GRes.all_stop, Ans.all_reply, Ans.all_later, Ans.all_waits]
    | (with_reducible first | intro _ | assumption | exact True.intro | apply carryOut_within | apply okAns_within)
    | (with_reducible eapply Ch.far c_far; first | assumption | apply carryOut_within | apply okAns_within)
    | split
    | dsimp only

theorem reqCalRead_within (q : Req) (off : W16) (len : Byte) (s : State) (hq : Ch P q9 s) (cE : EvOk P)
    (c_host : P .host = true) :
    Ch P q9 (reqCalRead q off len s) := by
  unfold reqCalRead
  repeat' first
    | dsimp only [GRes.all_ok, GRes.all_jump, GRes.all_trap, GRes.all_stop, Ans.all_reply, Ans.all_later, Ans.all_waits]
    | (with_reducible first
        | intro _ | assumption | exact True.intro | apply ite_within | apply carryOut_within | apply nvBad_within
        | apply okWith_within | apply refuse_within)
    | split
    | dsimp only

theorem putCal_within (off : Nat) (data : List Byte) (s : State) (hq : Ch P q9 s) (c_nv : P .nv = true) :
    Ch P q9 (putCal off data s) := by
  unfold putCal
  repeat' first
    | (with_reducible first | intro _ | assumption | apply ite_within)
    | (with_reducible eapply Ch.nv c_nv; first | assumption | apply ite_within)
    | split
    | dsimp only

theorem reqCalWrite_within (q : Req) (off : W16) (len res1 : Byte) (word res2 : W16) (data : List Byte) (s : State)
    (hq : Ch P q9 s) (cE : EvOk P) (c_nv : P .nv = true) (c_prb : P .prb = true) (c_ps : P .ps = true)
    (c_rcd : P .rcd = true) (c_host : P .host = true) :
    Ch P q9 (reqCalWrite q off len res1 word res2 data s) := by
  have c_irq := cE.irq
  have c_hlt := cE.hlt
  unfold reqCalWrite
  repeat' first
    | dsimp only [GRes.all_ok, GRes.all_jump, GRes.all_trap, GRes.all_stop, Ans.all_reply, Ans.all_later, Ans.all_waits]
    | (with_reducible first
        | intro _ | assumption | exact True.intro | apply ite_within | apply iteFst_within | apply carryOut_within
        | apply putCal_within | apply refuse_within | apply withNote_within
        | (apply withNote_within'; case eq0 => assumption))
    | split
    | dsimp only

theorem reqCalProc_within (q : Req) (proc : Byte) (s : State) (hq : Ch P q9 s) (cE : EvOk P)
    (c_host : P .host = true) :
    Ch P q9 (reqCalProc q proc s) := by
  have c_far := cE.far
  unfold reqCalProc
  repeat' first
    | dsimp only [GRes.all_ok, GRes.all_jump, GRes.all_trap, GRes.all_stop, Ans.all_reply, Ans.all_later, Ans.all_waits]
    | (with_reducible first
        | intro _ | assumption | exact True.intro | (apply Ans.reply_within; case eq0 => assumption)
        | (apply Ans.later_within; case eq0 => assumption) | apply ite_within | apply carryOut_within
        | apply refuse_within)
    | (with_reducible eapply Ch.far c_far; first | assumption | apply carryOut_within | apply refuse_within | apply ite_within)
    | split
    | dsimp only

theorem execCalProcDone_within (m0 m1 m2 m3 : W32) (s : State) {s9 : State} (hq : Ch P q9 s) (c_nv : P .nv = true)
    (c_prb : P .prb = true) (c_ps : P .ps = true) (c_rcd : P .rcd = true) (c_host : P .host = true)
    (c_irq : P .irq = true) (c_far : P .far = true) (c_hlt : P .hlt = true)
    (eq0 : execCalProcDone m0 m1 m2 m3 s = .next s9) :
    Ch P q9 s9 := by
  unfold execCalProcDone at eq0
  have e1 := Host.Outcome.next.inj eq0
  rw [← e1]
  repeat' first
    | dsimp only [GRes.all_ok, GRes.all_jump, GRes.all_trap, GRes.all_stop, Ans.all_reply, Ans.all_later, Ans.all_waits]
    | (with_reducible first
        | intro _ | assumption | exact True.intro | apply ite_within | apply iteFst_within | apply putCal_within
        | apply withNote_within | (apply withNote_within'; case eq0 => assumption) | apply writeReply_within)
    | (with_reducible eapply Ch.far c_far; first
        | assumption | apply putCal_within | apply withNote_within | (apply withNote_within'; case eq0 => assumption)
        | apply writeReply_within | apply ite_within)
    | (with_reducible eapply Ch.far c_far; dsimp only; first | (apply withNote_within'; case eq0 => assumption))
    | split
    | dsimp only

theorem reqTagRead_within (q : Req) (lch : Byte) (s : State) (hq : Ch P q9 s) (cE : EvOk P)
    (c_host : P .host = true) :
    Ch P q9 (reqTagRead q lch s) := by
  unfold reqTagRead
  repeat' first
    | dsimp only [GRes.all_ok, GRes.all_jump, GRes.all_trap, GRes.all_stop, Ans.all_reply, Ans.all_later, Ans.all_waits]
    | (with_reducible first
        | intro _ | assumption | exact True.intro | apply ite_within | apply carryOut_within | apply okWith_within
        | apply refuse_within | apply tagReport_within)
    | split
    | dsimp only

theorem reqTagWrite_within (q : Req) (lch sec : Byte) (reserved : W16) (data : List Byte) (s : State) (hq : Ch P q9 s)
    (cE : EvOk P) (c_nv : P .nv = true) (c_units : P .units = true) (c_host : P .host = true) :
    Ch P q9 (reqTagWrite q lch sec reserved data s) := by
  unfold reqTagWrite
  repeat' first
    | dsimp only [GRes.all_ok, GRes.all_jump, GRes.all_trap, GRes.all_stop, Ans.all_reply, Ans.all_later, Ans.all_waits]
    | (with_reducible first
        | intro _ | assumption | exact True.intro | apply ite_within | apply carryOut_within | apply loadTrims_within
        | apply okAns_within | apply refuse_within)
    | (with_reducible eapply Ch.nv c_nv; first
        | assumption | apply carryOut_within | apply loadTrims_within | apply okAns_within | apply refuse_within
        | apply ite_within)
    | split
    | dsimp only

theorem reqPatchData_within (q : Req) (off : W32) (data : List Byte) (s : State) (hq : Ch P q9 s) (cE : EvOk P)
    (c_host : P .host = true) :
    Ch P q9 (reqPatchData q off data s) := by
  have c_far := cE.far
  unfold reqPatchData
  repeat' first
    | dsimp only [GRes.all_ok, GRes.all_jump, GRes.all_trap, GRes.all_stop, Ans.all_reply, Ans.all_later, Ans.all_waits]
    | (with_reducible first
        | intro _ | assumption | exact True.intro | apply ite_within | apply carryOut_within | apply okAns_within
        | apply refuse_within)
    | (with_reducible eapply Ch.far c_far; first
        | assumption | apply carryOut_within | apply okAns_within | apply refuse_within | apply ite_within)
    | split
    | dsimp only

theorem reqPatchRun_within (q : Req) (s : State) (hq : Ch P q9 s) (cE : EvOk P) (c_tb : P .tb = true)
    (c_rsv : P .rsv = true) (c_nv : P .nv = true) (c_units : P .units = true) (c_xing : P .xing = true)
    (c_link : P .link = true) (c_har : P .har = true) (c_thr : P .thr = true) (c_eng : P .eng = true)
    (c_prog : P .prog = true) (c_frm : P .frm = true) (c_lmap : P .lmap = true) (c_spw : P .spw = true)
    (c_gt : P .gt = true) (c_conv : P .conv = true) (c_prb : P .prb = true) (c_ps : P .ps = true)
    (c_rcd : P .rcd = true) (c_host : P .host = true) (c_pwr : P .pwr = true) :
    Ch P q9 (reqPatchRun q s) := by
  have c_far := cE.far
  unfold reqPatchRun
  repeat' first
    | dsimp only [GRes.all_ok, GRes.all_jump, GRes.all_trap, GRes.all_stop, Ans.all_reply, Ans.all_later, Ans.all_waits]
    | (with_reducible first
        | intro _ | assumption | exact True.intro | apply ite_within | apply carryOut_within | apply finishBoot_within
        | apply okWith_within | apply refuse_within | apply startPatch_within)
    | split
    | dsimp only

theorem reqBootContinue_within (q : Req) (s : State) (hq : Ch P q9 s) (cE : EvOk P) (c_tb : P .tb = true)
    (c_rsv : P .rsv = true) (c_nv : P .nv = true) (c_units : P .units = true) (c_xing : P .xing = true)
    (c_link : P .link = true) (c_har : P .har = true) (c_thr : P .thr = true) (c_eng : P .eng = true)
    (c_prog : P .prog = true) (c_frm : P .frm = true) (c_lmap : P .lmap = true) (c_spw : P .spw = true)
    (c_gt : P .gt = true) (c_conv : P .conv = true) (c_prb : P .prb = true) (c_ps : P .ps = true)
    (c_rcd : P .rcd = true) (c_host : P .host = true) (c_pwr : P .pwr = true) :
    Ch P q9 (reqBootContinue q s) := by
  unfold reqBootContinue
  repeat' first
    | dsimp only [GRes.all_ok, GRes.all_jump, GRes.all_trap, GRes.all_stop, Ans.all_reply, Ans.all_later, Ans.all_waits]
    | (with_reducible first
        | intro _ | assumption | exact True.intro | apply ite_within | apply carryOut_within | apply finishBoot_within
        | apply okAns_within)
    | split
    | dsimp only

theorem execHealthSum_within (q : Req) (s : State) {s9 : State} (hq : Ch P q9 s) (cE : EvOk P)
    (c_host : P .host = true) (eq0 : execHealthSum q s = .next s9) :
    Ch P q9 s9 := by
  unfold execHealthSum at eq0
  have e1 := Host.Outcome.next.inj eq0
  rw [← e1]
  repeat' first
    | dsimp only [GRes.all_ok, GRes.all_jump, GRes.all_trap, GRes.all_stop, Ans.all_reply, Ans.all_later, Ans.all_waits]
    | (with_reducible first | intro _ | assumption | exact True.intro | apply reqHealthSum_within)
    | split
    | dsimp only

theorem execHealthDet_within (q : Req) (cls idx : Byte) (s : State) {s9 : State} (hq : Ch P q9 s) (cE : EvOk P)
    (c_host : P .host = true) (eq0 : execHealthDet q cls idx s = .next s9) :
    Ch P q9 s9 := by
  unfold execHealthDet at eq0
  have e1 := Host.Outcome.next.inj eq0
  rw [← e1]
  repeat' first
    | dsimp only [GRes.all_ok, GRes.all_jump, GRes.all_trap, GRes.all_stop, Ans.all_reply, Ans.all_later, Ans.all_waits]
    | (with_reducible first | intro _ | assumption | exact True.intro | apply reqHealthDet_within)
    | split
    | dsimp only

theorem execInjOpen1_within (q : Req) (word : W32) (s : State) {s9 : State} (hq : Ch P q9 s) (cE : EvOk P)
    (c_host : P .host = true) (eq0 : execInjOpen1 q word s = .next s9) :
    Ch P q9 s9 := by
  unfold execInjOpen1 at eq0
  have e1 := Host.Outcome.next.inj eq0
  rw [← e1]
  repeat' first
    | dsimp only [GRes.all_ok, GRes.all_jump, GRes.all_trap, GRes.all_stop, Ans.all_reply, Ans.all_later, Ans.all_waits]
    | (with_reducible first | intro _ | assumption | exact True.intro | apply reqInjOpen1_within)
    | split
    | dsimp only

theorem execInjOpen2_within (q : Req) (word : W16) (s : State) {s9 : State} (hq : Ch P q9 s) (cE : EvOk P)
    (c_host : P .host = true) (eq0 : execInjOpen2 q word s = .next s9) :
    Ch P q9 s9 := by
  unfold execInjOpen2 at eq0
  have e1 := Host.Outcome.next.inj eq0
  rw [← e1]
  repeat' first
    | dsimp only [GRes.all_ok, GRes.all_jump, GRes.all_trap, GRes.all_stop, Ans.all_reply, Ans.all_later, Ans.all_waits]
    | (with_reducible first | intro _ | assumption | exact True.intro | apply reqInjOpen2_within)
    | split
    | dsimp only

theorem execInjFire_within (q : Req) (cls idx : Byte) (reserved : W16) (par : W32) (s : State) {s9 : State}
    (hq : Ch P q9 s) (cR : RsOk P) (c_nv : P .nv = true) (eq0 : execInjFire q cls idx reserved par s = .next s9) :
    Ch P q9 s9 := by
  unfold execInjFire at eq0
  have e1 := Host.Outcome.next.inj eq0
  rw [← e1]
  repeat' first
    | dsimp only [GRes.all_ok, GRes.all_jump, GRes.all_trap, GRes.all_stop, Ans.all_reply, Ans.all_later, Ans.all_waits]
    | (with_reducible first | intro _ | assumption | exact True.intro | apply reqInjFire_within)
    | split
    | dsimp only

theorem execInjClose_within (q : Req) (s : State) {s9 : State} (hq : Ch P q9 s) (cE : EvOk P)
    (c_host : P .host = true) (eq0 : execInjClose q s = .next s9) :
    Ch P q9 s9 := by
  unfold execInjClose at eq0
  have e1 := Host.Outcome.next.inj eq0
  rw [← e1]
  repeat' first
    | dsimp only [GRes.all_ok, GRes.all_jump, GRes.all_trap, GRes.all_stop, Ans.all_reply, Ans.all_later, Ans.all_waits]
    | (with_reducible first | intro _ | assumption | exact True.intro | apply reqInjClose_within)
    | split
    | dsimp only

theorem execCalRead_within (q : Req) (off : W16) (len : Byte) (s : State) {s9 : State} (hq : Ch P q9 s) (cE : EvOk P)
    (c_host : P .host = true) (eq0 : execCalRead q off len s = .next s9) :
    Ch P q9 s9 := by
  unfold execCalRead at eq0
  have e1 := Host.Outcome.next.inj eq0
  rw [← e1]
  repeat' first
    | dsimp only [GRes.all_ok, GRes.all_jump, GRes.all_trap, GRes.all_stop, Ans.all_reply, Ans.all_later, Ans.all_waits]
    | (with_reducible first | intro _ | assumption | exact True.intro | apply reqCalRead_within)
    | split
    | dsimp only

theorem execCalWrite_within (q : Req) (off : W16) (len res1 : Byte) (word res2 : W16) (data : List Byte) (s : State)
    {s9 : State} (hq : Ch P q9 s) (cE : EvOk P) (c_nv : P .nv = true) (c_prb : P .prb = true) (c_ps : P .ps = true)
    (c_rcd : P .rcd = true) (c_host : P .host = true)
    (eq0 : execCalWrite q off len res1 word res2 data s = .next s9) :
    Ch P q9 s9 := by
  unfold execCalWrite at eq0
  have e1 := Host.Outcome.next.inj eq0
  rw [← e1]
  repeat' first
    | dsimp only [GRes.all_ok, GRes.all_jump, GRes.all_trap, GRes.all_stop, Ans.all_reply, Ans.all_later, Ans.all_waits]
    | (with_reducible first | intro _ | assumption | exact True.intro | apply reqCalWrite_within)
    | split
    | dsimp only

theorem execCalProc_within (q : Req) (proc : Byte) (s : State) {s9 : State} (hq : Ch P q9 s) (cE : EvOk P)
    (c_host : P .host = true) (eq0 : execCalProc q proc s = .next s9) :
    Ch P q9 s9 := by
  unfold execCalProc at eq0
  have e1 := Host.Outcome.next.inj eq0
  rw [← e1]
  repeat' first
    | dsimp only [GRes.all_ok, GRes.all_jump, GRes.all_trap, GRes.all_stop, Ans.all_reply, Ans.all_later, Ans.all_waits]
    | (with_reducible first | intro _ | assumption | exact True.intro | apply reqCalProc_within)
    | split
    | dsimp only

theorem execTagRead_within (q : Req) (lch : Byte) (s : State) {s9 : State} (hq : Ch P q9 s) (cE : EvOk P)
    (c_host : P .host = true) (eq0 : execTagRead q lch s = .next s9) :
    Ch P q9 s9 := by
  unfold execTagRead at eq0
  have e1 := Host.Outcome.next.inj eq0
  rw [← e1]
  repeat' first
    | dsimp only [GRes.all_ok, GRes.all_jump, GRes.all_trap, GRes.all_stop, Ans.all_reply, Ans.all_later, Ans.all_waits]
    | (with_reducible first | intro _ | assumption | exact True.intro | apply reqTagRead_within)
    | split
    | dsimp only

theorem execTagWrite_within (q : Req) (lch sec : Byte) (reserved : W16) (data : List Byte) (s : State) {s9 : State}
    (hq : Ch P q9 s) (cE : EvOk P) (c_nv : P .nv = true) (c_units : P .units = true) (c_host : P .host = true)
    (eq0 : execTagWrite q lch sec reserved data s = .next s9) :
    Ch P q9 s9 := by
  unfold execTagWrite at eq0
  have e1 := Host.Outcome.next.inj eq0
  rw [← e1]
  repeat' first
    | dsimp only [GRes.all_ok, GRes.all_jump, GRes.all_trap, GRes.all_stop, Ans.all_reply, Ans.all_later, Ans.all_waits]
    | (with_reducible first | intro _ | assumption | exact True.intro | apply reqTagWrite_within)
    | split
    | dsimp only

theorem execPatchData_within (q : Req) (off : W32) (data : List Byte) (s : State) {s9 : State} (hq : Ch P q9 s)
    (cE : EvOk P) (c_host : P .host = true) (eq0 : execPatchData q off data s = .next s9) :
    Ch P q9 s9 := by
  unfold execPatchData at eq0
  have e1 := Host.Outcome.next.inj eq0
  rw [← e1]
  repeat' first
    | dsimp only [GRes.all_ok, GRes.all_jump, GRes.all_trap, GRes.all_stop, Ans.all_reply, Ans.all_later, Ans.all_waits]
    | (with_reducible first | intro _ | assumption | exact True.intro | apply reqPatchData_within)
    | split
    | dsimp only

theorem execPatchRun_within (q : Req) (s : State) {s9 : State} (hq : Ch P q9 s) (cE : EvOk P) (c_tb : P .tb = true)
    (c_rsv : P .rsv = true) (c_nv : P .nv = true) (c_units : P .units = true) (c_xing : P .xing = true)
    (c_link : P .link = true) (c_har : P .har = true) (c_thr : P .thr = true) (c_eng : P .eng = true)
    (c_prog : P .prog = true) (c_frm : P .frm = true) (c_lmap : P .lmap = true) (c_spw : P .spw = true)
    (c_gt : P .gt = true) (c_conv : P .conv = true) (c_prb : P .prb = true) (c_ps : P .ps = true)
    (c_rcd : P .rcd = true) (c_host : P .host = true) (c_pwr : P .pwr = true) (eq0 : execPatchRun q s = .next s9) :
    Ch P q9 s9 := by
  unfold execPatchRun at eq0
  have e1 := Host.Outcome.next.inj eq0
  rw [← e1]
  repeat' first
    | dsimp only [GRes.all_ok, GRes.all_jump, GRes.all_trap, GRes.all_stop, Ans.all_reply, Ans.all_later, Ans.all_waits]
    | (with_reducible first | intro _ | assumption | exact True.intro | apply reqPatchRun_within)
    | split
    | dsimp only

theorem execBootContinue_within (q : Req) (s : State) {s9 : State} (hq : Ch P q9 s) (cE : EvOk P)
    (c_tb : P .tb = true) (c_rsv : P .rsv = true) (c_nv : P .nv = true) (c_units : P .units = true)
    (c_xing : P .xing = true) (c_link : P .link = true) (c_har : P .har = true) (c_thr : P .thr = true)
    (c_eng : P .eng = true) (c_prog : P .prog = true) (c_frm : P .frm = true) (c_lmap : P .lmap = true)
    (c_spw : P .spw = true) (c_gt : P .gt = true) (c_conv : P .conv = true) (c_prb : P .prb = true)
    (c_ps : P .ps = true) (c_rcd : P .rcd = true) (c_host : P .host = true) (c_pwr : P .pwr = true)
    (eq0 : execBootContinue q s = .next s9) :
    Ch P q9 s9 := by
  unfold execBootContinue at eq0
  have e1 := Host.Outcome.next.inj eq0
  rw [← e1]
  repeat' first
    | dsimp only [GRes.all_ok, GRes.all_jump, GRes.all_trap, GRes.all_stop, Ans.all_reply, Ans.all_later, Ans.all_waits]
    | (with_reducible first | intro _ | assumption | exact True.intro | apply reqBootContinue_within)
    | split
    | dsimp only

theorem residentPage_within (p : ProgId) (page : Nat) (pin : Bool) (words : List W32) (s : State) (hq : Ch P q9 s)
    (c_frm : P .frm = true) (c_far : P .far = true) (c_hlt : P .hlt = true) :
    Ch P q9 (residentPage p page pin words s) := by
  unfold residentPage
  repeat' first
    | (with_reducible first
        | intro _ | assumption | apply State_modFrm_within | apply clearMarks_within
        | (apply takeFrame_within; case eq0 => assumption))
    | split
    | dsimp only

theorem placeAll_within (p : ProgId) (tab : List ThrEnt) (s : State) {s9 : State} {x9 : List ThrEnt} (hq : Ch P q9 s)
    (c_thr : P .thr = true) (c_eng : P .eng = true) (c_far : P .far = true)
    (eq0 : placeAll p tab s = some (s9, x9)) : Ch P q9 s9 := by
  unfold placeAll at eq0
  have key : ∀ (l : List ThrEnt) (a : Option (State × List ThrEnt)), (∀ y, a = some y → Ch P q9 y.1) → ∀ y,
      l.foldl (fun a e => match a with
        | none => none
        | some (s, done) =>
          match (idxs 64).find? fun t => s.thr[t].st == .free with
          | none => none
          | some t => (placeThread p e t s).map fun s => (s, done ++ [{ e with tid := BitVec.ofFin t }])) a = some y → Ch P q9 y.1 := by
    intro l
    induction l with
    | nil => intro a h y e; exact h y e
    | cons e r ih =>
      intro a h y eq
      refine ih _ ?_ y eq
      intro z hz
      dsimp only at hz
      split at hz
      · cases hz
      · split at hz
        · cases hz
        · obtain ⟨s1, h1, rfl⟩ := Option.map_eq_some_iff.mp hz
          have k := h _ rfl
          exact placeThread_within _ _ _ _ k (by assumption) (by assumption) (by assumption) h1
  exact key tab (some (s, [])) (by intro y hy; cases hy; exact hq) (s9, x9) eq0

theorem clearLocal_within (tab : List ThrEnt) (s : State) (hq : Ch P q9 s) (c_thr : P .thr = true)
    (c_hlt : P .hlt = true) :
    Ch P q9 (clearLocal tab s) := by
  unfold clearLocal
  repeat' first
    | (with_reducible first
        | intro _ | assumption | apply forEach_within | apply State_modThr_within | apply clearMarks_within
        | apply forEach_within)
    | split
    | dsimp only

theorem bindChannels_within (chs : List Lch) (tab : List ThrEnt) (s : State) (hq : Ch P q9 s)
    (c_lmap : P .lmap = true) (c_far : P .far = true) :
    Ch P q9 (bindChannels chs tab s) := by
  unfold bindChannels
  repeat' first
    | (with_reducible first
        | intro _ | assumption | apply forEach_within | apply State_modLMap_within | apply choose_within
        | (apply choose_within'; case eq0 => assumption) | apply forEach_within)
    | split
    | dsimp only

theorem openImage_within (p : ProgId) (g : Image) (m : Mem) (base : Nat) (staged : Bool) (ch : W64) (hm : W16)
    (bm : W64) (s : State) {s9 : State} (hq : Ch P q9 s) (cE : EvOk P) (c_thr : P .thr = true) (c_eng : P .eng = true)
    (c_prog : P .prog = true) (c_frm : P .frm = true) (c_lmap : P .lmap = true) (c_spw : P .spw = true)
    (eq0 : openImage p g m base staged ch hm bm s = .inl s9) :
    Ch P q9 s9 := by
  have c_ost := cE.ost
  have c_far := cE.far
  have c_hlt := cE.hlt
  unfold openImage at eq0
  try dsimp only at eq0
  repeat' first | split at eq0 | (with_reducible rw [Option.bind_eq_some_iff] at eq0; obtain ⟨_, _, eq0⟩ := eq0) | (with_reducible rw [Option.map_eq_some_iff] at eq0; obtain ⟨_, _, rfl⟩ := eq0) | cases eq0
  all_goals repeat' first
    | (with_reducible first
        | intro _ | assumption | apply ite_within | apply forEach_within | apply State_modProg_within
        | apply bindChannels_within | apply choose_within | (apply choose_within'; case eq0 => assumption)
        | apply clearLocal_within | apply clearMarks_within | apply forEach_within
        | (apply placeAll_within; case eq0 => assumption) | apply residentPage_within | apply startThread_within)
    | (with_reducible eapply Ch.ost c_ost; first
        | assumption | apply State_modProg_within | apply bindChannels_within | apply choose_within
        | (apply choose_within'; case eq0 => assumption) | apply clearLocal_within | apply clearMarks_within
        | apply forEach_within | (apply placeAll_within; case eq0 => assumption) | apply residentPage_within
        | apply startThread_within | apply ite_within | apply forEach_within)
    | (with_reducible eapply Ch.ost c_ost; dsimp only; first
        | (apply choose_within'; case eq0 => assumption) | (apply placeAll_within; case eq0 => assumption))
    | split
    | dsimp only

theorem reqProgOpen_within (q : Req) (source : Byte) (res1 : BitVec 24) (off : W32) (chMask : W64) (hMask res2 : W16)
    (bMask : W64) (s : State) (hq : Ch P q9 s) (cE : EvOk P) (c_thr : P .thr = true) (c_eng : P .eng = true)
    (c_prog : P .prog = true) (c_frm : P .frm = true) (c_lmap : P .lmap = true) (c_spw : P .spw = true)
    (c_host : P .host = true) :
    Ch P q9 (reqProgOpen q source res1 off chMask hMask res2 bMask s) := by
  have c_far := cE.far
  unfold reqProgOpen
  repeat' first
    | dsimp only [GRes.all_ok, GRes.all_jump, GRes.all_trap, GRes.all_stop, Ans.all_reply, Ans.all_later, Ans.all_waits]
    | (with_reducible first
        | intro _ | assumption | exact True.intro | apply ite_within | apply carryOut_within | apply okWith_within
        | (apply openImage_within; case eq0 => assumption) | apply refuse_within)
    | (with_reducible eapply Ch.far c_far; first
        | assumption | apply carryOut_within | apply okWith_within | (apply openImage_within; case eq0 => assumption)
        | apply refuse_within | apply ite_within)
    | (with_reducible eapply Ch.far c_far; dsimp only; first | (apply openImage_within; case eq0 => assumption))
    | split
    | dsimp only

theorem reqProgUpload_within (q : Req) (off : W32) (data : List Byte) (s : State) (hq : Ch P q9 s) (cE : EvOk P)
    (c_host : P .host = true) :
    Ch P q9 (reqProgUpload q off data s) := by
  have c_far := cE.far
  unfold reqProgUpload
  repeat' first
    | dsimp only [GRes.all_ok, GRes.all_jump, GRes.all_trap, GRes.all_stop, Ans.all_reply, Ans.all_later, Ans.all_waits]
    | (with_reducible first
        | intro _ | assumption | exact True.intro | apply ite_within | apply carryOut_within | apply okAns_within
        | apply refuse_within)
    | (with_reducible eapply Ch.far c_far; first
        | assumption | apply carryOut_within | apply okAns_within | apply refuse_within | apply ite_within)
    | split
    | dsimp only

theorem withProg_within (p : Byte) (body : ProgId → State → Ans) (s : State) (hq : Ch P q9 s)
    (k_body : ∀ a0 x, Ch P q9 x → (body a0 x).All fun t => Ch P q9 t) :
    (withProg p body s).All fun t => Ch P q9 t := by
  unfold withProg
  repeat' first
    | dsimp only [GRes.all_ok, GRes.all_jump, GRes.all_trap, GRes.all_stop, Ans.all_reply, Ans.all_later, Ans.all_waits]
    | (with_reducible first
        | intro _ | assumption | exact True.intro | apply ite_within | apply k_body | apply refuse_within)
    | split
    | dsimp only

theorem reqProgClose_within (q : Req) (p : Byte) (s : State) (hq : Ch P q9 s) (cE : EvOk P) (c_har : P .har = true)
    (c_thr : P .thr = true) (c_eng : P .eng = true) (c_prog : P .prog = true) (c_frm : P .frm = true)
    (c_lmap : P .lmap = true) (c_spw : P .spw = true) (c_host : P .host = true) :
    Ch P q9 (reqProgClose q p s) := by
  have c_ost := cE.ost
  have c_far := cE.far
  unfold reqProgClose
  repeat' first
    | dsimp only [GRes.all_ok, GRes.all_jump, GRes.all_trap, GRes.all_stop, Ans.all_reply, Ans.all_later, Ans.all_waits]
    | (with_reducible first
        | intro _ | assumption | exact True.intro | apply ite_within | apply State_modMot_within
        | apply carryOut_within | apply closeProgram_within | apply okAns_within | apply refuse_within
        | apply withProg_within)
    | split
    | dsimp only

theorem reqProgDoorbell_within (q : Req) (p idx : Byte) (reserved : W16) (word : W32) (s : State) (hq : Ch P q9 s)
    (cE : EvOk P) (c_thr : P .thr = true) (c_eng : P .eng = true) (c_host : P .host = true) :
    Ch P q9 (reqProgDoorbell q p idx reserved word s) := by
  unfold reqProgDoorbell
  repeat' first
    | dsimp only [GRes.all_ok, GRes.all_jump, GRes.all_trap, GRes.all_stop, Ans.all_reply, Ans.all_later, Ans.all_waits]
    | (with_reducible first
        | intro _ | assumption | exact True.intro | apply ite_within | apply carryOut_within | apply enqueue_within
        | apply okAns_within | apply refuse_within | apply withProg_within)
    | split
    | dsimp only

theorem reqThreadInfo_within (q : Req) (tid : Byte) (s : State) (hq : Ch P q9 s) (cE : EvOk P) (c_thr : P .thr = true)
    (c_host : P .host = true) :
    Ch P q9 (reqThreadInfo q tid s) := by
  unfold reqThreadInfo
  repeat' first
    | dsimp only [GRes.all_ok, GRes.all_jump, GRes.all_trap, GRes.all_stop, Ans.all_reply, Ans.all_later, Ans.all_waits]
    | (with_reducible first
        | intro _ | assumption | exact True.intro | apply State_modThr_within | apply carryOut_within
        | apply okWith_within | apply refuse_within)
    | split
    | dsimp only

theorem reqHeadroom_within (q : Req) (v : W16) (s : State) (hq : Ch P q9 s) (cE : EvOk P) (c_host : P .host = true) :
    Ch P q9 (reqHeadroom q v s) := by
  have c_ost := cE.ost
  unfold reqHeadroom
  repeat' first
    | dsimp only [GRes.all_ok, GRes.all_jump, GRes.all_trap, GRes.all_stop, Ans.all_reply, Ans.all_later, Ans.all_waits]
    | (with_reducible first
        | intro _ | assumption | exact True.intro | apply ite_within | apply carryOut_within | apply okAns_within
        | apply refuse_within)
    | (with_reducible eapply Ch.ost c_ost; first
        | assumption | apply carryOut_within | apply okAns_within | apply refuse_within | apply ite_within)
    | split
    | dsimp only

theorem reqSdWrite_within (q : Req) (p reserved : Byte) (off : W16) (data : List Byte) (s : State) (hq : Ch P q9 s)
    (cE : EvOk P) (c_prog : P .prog = true) (c_host : P .host = true) :
    Ch P q9 (reqSdWrite q p reserved off data s) := by
  have c_hlt := cE.hlt
  unfold reqSdWrite
  repeat' first
    | dsimp only [GRes.all_ok, GRes.all_jump, GRes.all_trap, GRes.all_stop, Ans.all_reply, Ans.all_later, Ans.all_waits]
    | (with_reducible first
        | intro _ | assumption | exact True.intro | apply ite_within | apply State_modProg_within
        | apply carryOut_within | apply clearMarks_within | apply okAns_within | apply refuse_within
        | apply withProg_within)
    | split
    | dsimp only

theorem reqSdRead_within (q : Req) (p reserved : Byte) (off : W16) (len : Byte) (s : State) (hq : Ch P q9 s)
    (cR : RsOk P) :
    Ch P q9 (reqSdRead q p reserved off len s) := by
  have cE := cR.toEvOk
  have c_host := cR.host
  unfold reqSdRead
  repeat' first
    | dsimp only [GRes.all_ok, GRes.all_jump, GRes.all_trap, GRes.all_stop, Ans.all_reply, Ans.all_later, Ans.all_waits]
    | (with_reducible first
        | intro _ | assumption | exact True.intro | apply ite_within | apply forEach_within | apply carryOut_within
        | apply forEach_within | apply okWith_within | apply readWord_within | apply refuse_within
        | apply withProg_within)
    | split
    | dsimp only

theorem execProgUpload_within (q : Req) (off : W32) (data : List Byte) (s : State) {s9 : State} (hq : Ch P q9 s)
    (cE : EvOk P) (c_host : P .host = true) (eq0 : execProgUpload q off data s = .next s9) :
    Ch P q9 s9 := by
  unfold execProgUpload at eq0
  have e1 := Host.Outcome.next.inj eq0
  rw [← e1]
  repeat' first
    | dsimp only [GRes.all_ok, GRes.all_jump, GRes.all_trap, GRes.all_stop, Ans.all_reply, Ans.all_later, Ans.all_waits]
    | (with_reducible first | intro _ | assumption | exact True.intro | apply reqProgUpload_within)
    | split
    | dsimp only

theorem execProgOpen_within (q : Req) (source : Byte) (res1 : BitVec 24) (off : W32) (chMask : W64) (hMask res2 : W16)
    (bMask : W64) (s : State) {s9 : State} (hq : Ch P q9 s) (cE : EvOk P) (c_thr : P .thr = true)
    (c_eng : P .eng = true) (c_prog : P .prog = true) (c_frm : P .frm = true) (c_lmap : P .lmap = true)
    (c_spw : P .spw = true) (c_host : P .host = true)
    (eq0 : execProgOpen q source res1 off chMask hMask res2 bMask s = .next s9) :
    Ch P q9 s9 := by
  unfold execProgOpen at eq0
  have e1 := Host.Outcome.next.inj eq0
  rw [← e1]
  repeat' first
    | dsimp only [GRes.all_ok, GRes.all_jump, GRes.all_trap, GRes.all_stop, Ans.all_reply, Ans.all_later, Ans.all_waits]
    | (with_reducible first | intro _ | assumption | exact True.intro | apply reqProgOpen_within)
    | split
    | dsimp only

theorem execProgClose_within (q : Req) (p : Byte) (s : State) {s9 : State} (hq : Ch P q9 s) (cE : EvOk P)
    (c_har : P .har = true) (c_thr : P .thr = true) (c_eng : P .eng = true) (c_prog : P .prog = true)
    (c_frm : P .frm = true) (c_lmap : P .lmap = true) (c_spw : P .spw = true) (c_host : P .host = true)
    (eq0 : execProgClose q p s = .next s9) :
    Ch P q9 s9 := by
  unfold execProgClose at eq0
  have e1 := Host.Outcome.next.inj eq0
  rw [← e1]
  repeat' first
    | dsimp only [GRes.all_ok, GRes.all_jump, GRes.all_trap, GRes.all_stop, Ans.all_reply, Ans.all_later, Ans.all_waits]
    | (with_reducible first | intro _ | assumption | exact True.intro | apply reqProgClose_within)
    | split
    | dsimp only

theorem execProgDoorbell_within (q : Req) (p idx : Byte) (reserved : W16) (word : W32) (s : State) {s9 : State}
    (hq : Ch P q9 s) (cE : EvOk P) (c_thr : P .thr = true) (c_eng : P .eng = true) (c_host : P .host = true)
    (eq0 : execProgDoorbell q p idx reserved word s = .next s9) :
    Ch P q9 s9 := by
  unfold execProgDoorbell at eq0
  have e1 := Host.Outcome.next.inj eq0
  rw [← e1]
  repeat' first
    | dsimp only [GRes.all_ok, GRes.all_jump, GRes.all_trap, GRes.all_stop, Ans.all_reply, Ans.all_later, Ans.all_waits]
    | (with_reducible first | intro _ | assumption | exact True.intro | apply reqProgDoorbell_within)
    | split
    | dsimp only

theorem execThreadInfo_within (q : Req) (tid : Byte) (s : State) {s9 : State} (hq : Ch P q9 s) (cE : EvOk P)
    (c_thr : P .thr = true) (c_host : P .host = true) (eq0 : execThreadInfo q tid s = .next s9) :
    Ch P q9 s9 := by
  unfold execThreadInfo at eq0
  have e1 := Host.Outcome.next.inj eq0
  rw [← e1]
  repeat' first
    | dsimp only [GRes.all_ok, GRes.all_jump, GRes.all_trap, GRes.all_stop, Ans.all_reply, Ans.all_later, Ans.all_waits]
    | (with_reducible first | intro _ | assumption | exact True.intro | apply reqThreadInfo_within)
    | split
    | dsimp only

theorem execHeadroom_within (q : Req) (v : W16) (s : State) {s9 : State} (hq : Ch P q9 s) (cE : EvOk P)
    (c_host : P .host = true) (eq0 : execHeadroom q v s = .next s9) :
    Ch P q9 s9 := by
  unfold execHeadroom at eq0
  have e1 := Host.Outcome.next.inj eq0
  rw [← e1]
  repeat' first
    | dsimp only [GRes.all_ok, GRes.all_jump, GRes.all_trap, GRes.all_stop, Ans.all_reply, Ans.all_later, Ans.all_waits]
    | (with_reducible first | intro _ | assumption | exact True.intro | apply reqHeadroom_within)
    | split
    | dsimp only

theorem execSdWrite_within (q : Req) (p reserved : Byte) (off : W16) (data : List Byte) (s : State) {s9 : State}
    (hq : Ch P q9 s) (cE : EvOk P) (c_prog : P .prog = true) (c_host : P .host = true)
    (eq0 : execSdWrite q p reserved off data s = .next s9) :
    Ch P q9 s9 := by
  unfold execSdWrite at eq0
  have e1 := Host.Outcome.next.inj eq0
  rw [← e1]
  repeat' first
    | dsimp only [GRes.all_ok, GRes.all_jump, GRes.all_trap, GRes.all_stop, Ans.all_reply, Ans.all_later, Ans.all_waits]
    | (with_reducible first | intro _ | assumption | exact True.intro | apply reqSdWrite_within)
    | split
    | dsimp only

theorem execSdRead_within (q : Req) (p reserved : Byte) (off : W16) (len : Byte) (s : State) {s9 : State}
    (hq : Ch P q9 s) (cR : RsOk P) (eq0 : execSdRead q p reserved off len s = .next s9) :
    Ch P q9 s9 := by
  unfold execSdRead at eq0
  have e1 := Host.Outcome.next.inj eq0
  rw [← e1]
  repeat' first
    | dsimp only [GRes.all_ok, GRes.all_jump, GRes.all_trap, GRes.all_stop, Ans.all_reply, Ans.all_later, Ans.all_waits]
    | (with_reducible first | intro _ | assumption | exact True.intro | apply reqSdRead_within)
    | split
    | dsimp only

theorem setPhases_within (h : HarnessId) (s : State) (hq : Ch P q9 s) (c_units : P .units = true)
    (c_far : P .far = true) :
    Ch P q9 (setPhases h s) := by
  unfold setPhases
  repeat' first
    | (with_reducible first
        | intro _ | assumption | apply ite_within | apply forEach_within | apply adoptCh_within | apply forEach_within
        | apply writeCtrl_within)
    | split
    | dsimp only

theorem openShipped_within (h : HarnessId) (bridge : Bool) (p : ProgId) (s : State) {s9 : State} (hq : Ch P q9 s)
    (cE : EvOk P) (c_units : P .units = true) (c_har : P .har = true) (c_thr : P .thr = true) (c_eng : P .eng = true)
    (c_prog : P .prog = true) (c_frm : P .frm = true) (c_spw : P .spw = true)
    (eq0 : openShipped h bridge p s = some s9) :
    Ch P q9 s9 := by
  have c_far := cE.far
  have c_hlt := cE.hlt
  unfold openShipped at eq0
  try dsimp only at eq0
  repeat' first | split at eq0 | (with_reducible rw [Option.bind_eq_some_iff] at eq0; obtain ⟨_, _, eq0⟩ := eq0) | (with_reducible rw [Option.map_eq_some_iff] at eq0; obtain ⟨_, _, rfl⟩ := eq0) | cases eq0
  all_goals repeat' first
    | (with_reducible first
        | intro _ | assumption | apply ite_within | apply forEach_within | apply foldl_within | apply foldlFst_within
        | apply State_modHar_within | apply State_modMot_within | apply State_modProg_within | apply choose_within
        | (apply choose_within'; case eq0 => assumption) | apply clearLocal_within | apply forEach_within
        | (apply placeAll_within; case eq0 => assumption) | apply residentPage_within | apply setPhases_within
        | apply startThread_within)
    | (with_reducible eapply Ch.far c_far; first
        | assumption | apply State_modHar_within | apply State_modMot_within | apply State_modProg_within
        | apply choose_within | (apply choose_within'; case eq0 => assumption) | apply clearLocal_within
        | apply forEach_within | (apply placeAll_within; case eq0 => assumption) | apply residentPage_within
        | apply setPhases_within | apply startThread_within | apply ite_within | apply forEach_within
        | apply foldl_within)
    | (with_reducible eapply Ch.far c_far; dsimp only; first
        | (apply choose_within'; case eq0 => assumption) | (apply placeAll_within; case eq0 => assumption))
    | split
    | dsimp only

theorem reqMotOpen_within (q : Req) (h p : Byte) (s : State) (hq : Ch P q9 s) (cE : EvOk P)
    (c_units : P .units = true) (c_har : P .har = true) (c_thr : P .thr = true) (c_eng : P .eng = true)
    (c_prog : P .prog = true) (c_frm : P .frm = true) (c_spw : P .spw = true) (c_host : P .host = true) :
    Ch P q9 (reqMotOpen q h p s) := by
  unfold reqMotOpen
  repeat' first
    | dsimp only [GRes.all_ok, GRes.all_jump, GRes.all_trap, GRes.all_stop, Ans.all_reply, Ans.all_later, Ans.all_waits]
    | (with_reducible first
        | intro _ | assumption | exact True.intro | apply ite_within | apply carryOut_within | apply okWith_within
        | (apply openShipped_within; case eq0 => assumption) | apply refuse_within | apply withHarness_within)
    | split
    | dsimp only

theorem withMotion_within (h : Byte) (body : HarnessId → State → Ans) (s : State) (hq : Ch P q9 s)
    (k_body : ∀ a0 x, Ch P q9 x → (body a0 x).All fun t => Ch P q9 t) :
    (withMotion h body s).All fun t => Ch P q9 t := by
  unfold withMotion
  repeat' first
    | dsimp only [GRes.all_ok, GRes.all_jump, GRes.all_trap, GRes.all_stop, Ans.all_reply, Ans.all_later, Ans.all_waits]
    | (with_reducible first
        | intro _ | assumption | exact True.intro | apply ite_within | apply k_body | apply refuse_within
        | apply withHarness_within)
    | split
    | dsimp only

theorem reqMotParam_within (q : Req) (h id : Byte) (reserved : W16) (v : W32) (s : State) (hq : Ch P q9 s)
    (cE : EvOk P) (c_units : P .units = true) (c_xing : P .xing = true) (c_link : P .link = true)
    (c_har : P .har = true) (c_lmap : P .lmap = true) (c_host : P .host = true) :
    Ch P q9 (reqMotParam q h id reserved v s) := by
  have c_far := cE.far
  unfold reqMotParam
  repeat' first
    | dsimp only [GRes.all_ok, GRes.all_jump, GRes.all_trap, GRes.all_stop, Ans.all_reply, Ans.all_later, Ans.all_waits]
    | (with_reducible first
        | intro _ | assumption | exact True.intro | apply ite_within | apply State_modMot_within
        | apply carryOut_within | apply okAns_within | apply refuse_within | apply setDuty_within
        | apply setPhases_within | apply withMotion_within)
    | (dsimp only [id]; assumption)
    | split
    | dsimp only

theorem reqMotStart_within (q : Req) (h : Byte) (s : State) (hq : Ch P q9 s) (cE : EvOk P) (c_units : P .units = true)
    (c_link : P .link = true) (c_har : P .har = true) (c_thr : P .thr = true) (c_host : P .host = true) :
    Ch P q9 (reqMotStart q h s) := by
  unfold reqMotStart
  repeat' first
    | dsimp only [GRes.all_ok, GRes.all_jump, GRes.all_trap, GRes.all_stop, Ans.all_reply, Ans.all_later, Ans.all_waits]
    | (with_reducible first
        | intro _ | assumption | exact True.intro | (apply Ans.reply_within; case eq0 => assumption)
        | (apply Ans.later_within; case eq0 => assumption) | apply ite_within | apply State_modMot_within
        | apply beginCatch_within | apply carryOut_within | apply refuse_within | apply withMotion_within)
    | split
    | dsimp only

theorem stopBridge_within (h : HarnessId) (mode : Byte) (s : State) (hq : Ch P q9 s) (cE : EvOk P)
    (c_units : P .units = true) (c_link : P .link = true) (c_har : P .har = true) (c_thr : P .thr = true)
    (c_host : P .host = true) :
    Ch P q9 (stopBridge h mode s) := by
  unfold stopBridge
  repeat' first
    | (with_reducible first
        | intro _ | assumption | apply ite_within | apply State_modMot_within | apply answerStart_within
        | apply beginBrake_within | apply stopped_within)
    | split
    | dsimp only

theorem stopAxis_within (h : HarnessId) (hard : Bool) (s : State) (hq : Ch P q9 s) (cE : EvOk P)
    (c_har : P .har = true) (c_thr : P .thr = true) :
    Ch P q9 (stopAxis h hard s) := by
  unfold stopAxis
  repeat' first
    | (with_reducible first
        | intro _ | assumption | apply ite_within | apply State_modMot_within | apply axisDone_within)
    | split
    | dsimp only

theorem reqMotStop_within (q : Req) (h mode : Byte) (s : State) (hq : Ch P q9 s) (cE : EvOk P)
    (c_units : P .units = true) (c_link : P .link = true) (c_har : P .har = true) (c_thr : P .thr = true)
    (c_host : P .host = true) :
    Ch P q9 (reqMotStop q h mode s) := by
  unfold reqMotStop
  repeat' first
    | dsimp only [GRes.all_ok, GRes.all_jump, GRes.all_trap, GRes.all_stop, Ans.all_reply, Ans.all_later, Ans.all_waits]
    | (with_reducible first
        | intro _ | assumption | exact True.intro | apply ite_within | apply carryOut_within | apply okAns_within
        | apply refuse_within | apply stopAxis_within | apply stopBridge_within | apply withMotion_within)
    | split
    | dsimp only

theorem withAxis_within (h : Byte) (body : HarnessId → State → Ans) (s : State) (hq : Ch P q9 s)
    (k_body : ∀ a0 x, Ch P q9 x → (body a0 x).All fun t => Ch P q9 t) :
    (withAxis h body s).All fun t => Ch P q9 t := by
  unfold withAxis
  repeat' first
    | dsimp only [GRes.all_ok, GRes.all_jump, GRes.all_trap, GRes.all_stop, Ans.all_reply, Ans.all_later, Ans.all_waits]
    | (with_reducible first
        | intro _ | assumption | exact True.intro | apply ite_within | apply k_body | apply refuse_within
        | apply withMotion_within)
    | split
    | dsimp only

theorem axisTarget_within (h : HarnessId) (target : W32) (s : State) (hq : Ch P q9 s) (cE : EvOk P)
    (c_units : P .units = true) (c_xing : P .xing = true) (c_link : P .link = true) (c_har : P .har = true)
    (c_thr : P .thr = true) (c_lmap : P .lmap = true) :
    Ch P q9 (axisTarget h target s) := by
  unfold axisTarget
  repeat' first
    | (with_reducible first
        | intro _ | assumption | apply ite_within | apply State_modMot_within | apply axisDone_within
        | apply postMotion_within | apply turnAxis_within)
    | split
    | dsimp only

theorem reqAxisMove_within (q : Req) (h : Byte) (reserved : BitVec 24) (target : W32) (s : State) (hq : Ch P q9 s)
    (cE : EvOk P) (c_units : P .units = true) (c_xing : P .xing = true) (c_link : P .link = true)
    (c_har : P .har = true) (c_thr : P .thr = true) (c_lmap : P .lmap = true) (c_host : P .host = true) :
    Ch P q9 (reqAxisMove q h reserved target s) := by
  unfold reqAxisMove
  repeat' first
    | dsimp only [GRes.all_ok, GRes.all_jump, GRes.all_trap, GRes.all_stop, Ans.all_reply, Ans.all_later, Ans.all_waits]
    | (with_reducible first
        | intro _ | assumption | exact True.intro | apply ite_within | apply axisTarget_within | apply carryOut_within
        | apply okAns_within | apply refuse_within | apply withAxis_within)
    | split
    | dsimp only

theorem reqAxisHome_within (q : Req) (h : Byte) (reserved : BitVec 24) (pos : W32) (s : State) (hq : Ch P q9 s)
    (cE : EvOk P) (c_har : P .har = true) (c_host : P .host = true) :
    Ch P q9 (reqAxisHome q h reserved pos s) := by
  unfold reqAxisHome
  repeat' first
    | dsimp only [GRes.all_ok, GRes.all_jump, GRes.all_trap, GRes.all_stop, Ans.all_reply, Ans.all_later, Ans.all_waits]
    | (with_reducible first
        | intro _ | assumption | exact True.intro | apply ite_within | apply State_modMot_within
        | apply carryOut_within | apply okAns_within | apply refuse_within | apply withAxis_within)
    | split
    | dsimp only

theorem reqMotStatus_within (q : Req) (h : Byte) (s : State) (hq : Ch P q9 s) (cE : EvOk P)
    (c_host : P .host = true) :
    Ch P q9 (reqMotStatus q h s) := by
  unfold reqMotStatus
  repeat' first
    | dsimp only [GRes.all_ok, GRes.all_jump, GRes.all_trap, GRes.all_stop, Ans.all_reply, Ans.all_later, Ans.all_waits]
    | (with_reducible first
        | intro _ | assumption | exact True.intro | apply carryOut_within | apply okWith_within
        | apply withMotion_within)
    | split
    | dsimp only

theorem execMotOpen_within (q : Req) (h p : Byte) (s : State) {s9 : State} (hq : Ch P q9 s) (cE : EvOk P)
    (c_units : P .units = true) (c_har : P .har = true) (c_thr : P .thr = true) (c_eng : P .eng = true)
    (c_prog : P .prog = true) (c_frm : P .frm = true) (c_spw : P .spw = true) (c_host : P .host = true)
    (eq0 : execMotOpen q h p s = .next s9) :
    Ch P q9 s9 := by
  unfold execMotOpen at eq0
  have e1 := Host.Outcome.next.inj eq0
  rw [← e1]
  repeat' first
    | dsimp only [GRes.all_ok, GRes.all_jump, GRes.all_trap, GRes.all_stop, Ans.all_reply, Ans.all_later, Ans.all_waits]
    | (with_reducible first | intro _ | assumption | exact True.intro | apply reqMotOpen_within)
    | split
    | dsimp only

theorem execMotParam_within (q : Req) (h id : Byte) (reserved : W16) (v : W32) (s : State) {s9 : State}
    (hq : Ch P q9 s) (cE : EvOk P) (c_units : P .units = true) (c_xing : P .xing = true) (c_link : P .link = true)
    (c_har : P .har = true) (c_lmap : P .lmap = true) (c_host : P .host = true)
    (eq0 : execMotParam q h id reserved v s = .next s9) :
    Ch P q9 s9 := by
  unfold execMotParam at eq0
  have e1 := Host.Outcome.next.inj eq0
  rw [← e1]
  repeat' first
    | dsimp only [GRes.all_ok, GRes.all_jump, GRes.all_trap, GRes.all_stop, Ans.all_reply, Ans.all_later, Ans.all_waits]
    | (with_reducible first | intro _ | assumption | exact True.intro | apply reqMotParam_within)
    | (dsimp only [id]; assumption)
    | split
    | dsimp only

theorem execMotStart_within (q : Req) (h : Byte) (s : State) {s9 : State} (hq : Ch P q9 s) (cE : EvOk P)
    (c_units : P .units = true) (c_link : P .link = true) (c_har : P .har = true) (c_thr : P .thr = true)
    (c_host : P .host = true) (eq0 : execMotStart q h s = .next s9) :
    Ch P q9 s9 := by
  unfold execMotStart at eq0
  have e1 := Host.Outcome.next.inj eq0
  rw [← e1]
  repeat' first
    | dsimp only [GRes.all_ok, GRes.all_jump, GRes.all_trap, GRes.all_stop, Ans.all_reply, Ans.all_later, Ans.all_waits]
    | (with_reducible first | intro _ | assumption | exact True.intro | apply reqMotStart_within)
    | split
    | dsimp only

theorem execMotStop_within (q : Req) (h mode : Byte) (s : State) {s9 : State} (hq : Ch P q9 s) (cE : EvOk P)
    (c_units : P .units = true) (c_link : P .link = true) (c_har : P .har = true) (c_thr : P .thr = true)
    (c_host : P .host = true) (eq0 : execMotStop q h mode s = .next s9) :
    Ch P q9 s9 := by
  unfold execMotStop at eq0
  have e1 := Host.Outcome.next.inj eq0
  rw [← e1]
  repeat' first
    | dsimp only [GRes.all_ok, GRes.all_jump, GRes.all_trap, GRes.all_stop, Ans.all_reply, Ans.all_later, Ans.all_waits]
    | (with_reducible first | intro _ | assumption | exact True.intro | apply reqMotStop_within)
    | split
    | dsimp only

theorem execAxisMove_within (q : Req) (h : Byte) (reserved : BitVec 24) (target : W32) (s : State) {s9 : State}
    (hq : Ch P q9 s) (cE : EvOk P) (c_units : P .units = true) (c_xing : P .xing = true) (c_link : P .link = true)
    (c_har : P .har = true) (c_thr : P .thr = true) (c_lmap : P .lmap = true) (c_host : P .host = true)
    (eq0 : execAxisMove q h reserved target s = .next s9) :
    Ch P q9 s9 := by
  unfold execAxisMove at eq0
  have e1 := Host.Outcome.next.inj eq0
  rw [← e1]
  repeat' first
    | dsimp only [GRes.all_ok, GRes.all_jump, GRes.all_trap, GRes.all_stop, Ans.all_reply, Ans.all_later, Ans.all_waits]
    | (with_reducible first | intro _ | assumption | exact True.intro | apply reqAxisMove_within)
    | split
    | dsimp only

theorem execAxisHome_within (q : Req) (h : Byte) (reserved : BitVec 24) (pos : W32) (s : State) {s9 : State}
    (hq : Ch P q9 s) (cE : EvOk P) (c_har : P .har = true) (c_host : P .host = true)
    (eq0 : execAxisHome q h reserved pos s = .next s9) :
    Ch P q9 s9 := by
  unfold execAxisHome at eq0
  have e1 := Host.Outcome.next.inj eq0
  rw [← e1]
  repeat' first
    | dsimp only [GRes.all_ok, GRes.all_jump, GRes.all_trap, GRes.all_stop, Ans.all_reply, Ans.all_later, Ans.all_waits]
    | (with_reducible first | intro _ | assumption | exact True.intro | apply reqAxisHome_within)
    | split
    | dsimp only

theorem execMotStatus_within (q : Req) (h : Byte) (s : State) {s9 : State} (hq : Ch P q9 s) (cE : EvOk P)
    (c_host : P .host = true) (eq0 : execMotStatus q h s = .next s9) :
    Ch P q9 s9 := by
  unfold execMotStatus at eq0
  have e1 := Host.Outcome.next.inj eq0
  rw [← e1]
  repeat' first
    | dsimp only [GRes.all_ok, GRes.all_jump, GRes.all_trap, GRes.all_stop, Ans.all_reply, Ans.all_later, Ans.all_waits]
    | (with_reducible first | intro _ | assumption | exact True.intro | apply reqMotStatus_within)
    | split
    | dsimp only

theorem reqPrbSched_within (q : Req) (measInt : W32) (c0 c1 : ConvBlk) (topen tshort : W16) (s : State)
    (hq : Ch P q9 s) (cE : EvOk P) (c_nv : P .nv = true) (c_conv : P .conv = true) (c_prb : P .prb = true)
    (c_ps : P .ps = true) (c_rcd : P .rcd = true) (c_host : P .host = true) :
    Ch P q9 (reqPrbSched q measInt c0 c1 topen tshort s) := by
  have c_irq := cE.irq
  have c_hlt := cE.hlt
  unfold reqPrbSched
  repeat' first
    | dsimp only [GRes.all_ok, GRes.all_jump, GRes.all_trap, GRes.all_stop, Ans.all_reply, Ans.all_later, Ans.all_waits]
    | (with_reducible first
        | intro _ | assumption | exact True.intro | apply ite_within | apply iteFst_within | apply carryOut_within
        | apply loadSched_within | apply refuse_within | apply withNote_within
        | (apply withNote_within'; case eq0 => assumption))
    | split
    | dsimp only

theorem reqPrbCoef_within (q : Req) (p : Byte) (reserved : BitVec 24) (a b c3 : W64) (off : W32) (s : State)
    (hq : Ch P q9 s) (cE : EvOk P) (c_prb : P .prb = true) (c_host : P .host = true) :
    Ch P q9 (reqPrbCoef q p reserved a b c3 off s) := by
  unfold reqPrbCoef
  repeat' first
    | dsimp only [GRes.all_ok, GRes.all_jump, GRes.all_trap, GRes.all_stop, Ans.all_reply, Ans.all_later, Ans.all_waits]
    | (with_reducible first
        | intro _ | assumption | exact True.intro | apply ite_within | apply State_modPrb_within
        | apply carryOut_within | apply okAns_within | apply refuse_within)
    | split
    | dsimp only

theorem reqPrbRead_within (q : Req) (p : Byte) (s : State) (hq : Ch P q9 s) (cE : EvOk P) (c_host : P .host = true) :
    Ch P q9 (reqPrbRead q p s) := by
  unfold reqPrbRead
  repeat' first
    | dsimp only [GRes.all_ok, GRes.all_jump, GRes.all_trap, GRes.all_stop, Ans.all_reply, Ans.all_later, Ans.all_waits]
    | (with_reducible first
        | intro _ | assumption | exact True.intro | apply carryOut_within | apply okWith_within | apply refuse_within)
    | split
    | dsimp only

theorem reqPrbStop_within (q : Req) (s : State) (hq : Ch P q9 s) (cE : EvOk P) (c_ps : P .ps = true)
    (c_host : P .host = true) :
    Ch P q9 (reqPrbStop q s) := by
  unfold reqPrbStop
  repeat' first
    | dsimp only [GRes.all_ok, GRes.all_jump, GRes.all_trap, GRes.all_stop, Ans.all_reply, Ans.all_later, Ans.all_waits]
    | (with_reducible first | intro _ | assumption | exact True.intro | apply carryOut_within | apply okAns_within)
    | (with_reducible eapply Ch.ps c_ps; first | assumption | apply carryOut_within | apply okAns_within)
    | split
    | dsimp only

theorem reqRecRead_within (q : Req) (flags count : Byte) (epoch : W16) (seq : W32) (s : State) (hq : Ch P q9 s)
    (cE : EvOk P) (c_host : P .host = true) :
    Ch P q9 (reqRecRead q flags count epoch seq s) := by
  unfold reqRecRead
  repeat' first
    | dsimp only [GRes.all_ok, GRes.all_jump, GRes.all_trap, GRes.all_stop, Ans.all_reply, Ans.all_later, Ans.all_waits]
    | (with_reducible first
        | intro _ | assumption | exact True.intro | apply ite_within | apply carryOut_within | apply okWith_within
        | apply refuse_within)
    | split
    | dsimp only

theorem releaseEntries_within (i : Nat) (s : State) (hq : Ch P q9 s) (c_nv : P .nv = true) (c_prb : P .prb = true)
    (c_ps : P .ps = true) (c_rcd : P .rcd = true) (c_irq : P .irq = true) (c_hlt : P .hlt = true) :
    Ch P q9 (releaseEntries i s) := by
  unfold releaseEntries
  repeat' first
    | (with_reducible first | intro _ | assumption | apply rateRestore_within)
    | (with_reducible eapply Ch.rcd c_rcd; first | assumption | apply rateRestore_within)
    | split
    | dsimp only

theorem reqRecAck_within (q : Req) (epoch reserved : W16) (seq : W32) (s : State) (hq : Ch P q9 s) (cE : EvOk P)
    (c_nv : P .nv = true) (c_prb : P .prb = true) (c_ps : P .ps = true) (c_rcd : P .rcd = true)
    (c_host : P .host = true) :
    Ch P q9 (reqRecAck q epoch reserved seq s) := by
  have c_irq := cE.irq
  have c_hlt := cE.hlt
  unfold reqRecAck
  repeat' first
    | dsimp only [GRes.all_ok, GRes.all_jump, GRes.all_trap, GRes.all_stop, Ans.all_reply, Ans.all_later, Ans.all_waits]
    | (with_reducible first
        | intro _ | assumption | exact True.intro | apply ite_within | apply carryOut_within | apply okWith_within
        | apply refuse_within | apply releaseEntries_within)
    | split
    | dsimp only

theorem reqRecEvent_within (q : Req) (kind source : Byte) (flags : W16) (value : W32) (s : State) (hq : Ch P q9 s)
    (cE : EvOk P) (c_nv : P .nv = true) (c_prb : P .prb = true) (c_ps : P .ps = true) (c_rcd : P .rcd = true)
    (c_host : P .host = true) :
    Ch P q9 (reqRecEvent q kind source flags value s) := by
  have c_irq := cE.irq
  have c_hlt := cE.hlt
  unfold reqRecEvent
  repeat' first
    | dsimp only [GRes.all_ok, GRes.all_jump, GRes.all_trap, GRes.all_stop, Ans.all_reply, Ans.all_later, Ans.all_waits]
    | (with_reducible first
        | intro _ | assumption | exact True.intro | apply ite_within | apply carryOut_within | apply entryAns_within
        | apply refuse_within)
    | split
    | dsimp only

theorem reqRecProvision_within (q : Req) (key : List Byte) (s : State) (hq : Ch P q9 s) (cE : EvOk P)
    (c_nv : P .nv = true) (c_rcd : P .rcd = true) (c_host : P .host = true) :
    Ch P q9 (reqRecProvision q key s) := by
  have c_irq := cE.irq
  have c_hlt := cE.hlt
  unfold reqRecProvision
  repeat' first
    | dsimp only [GRes.all_ok, GRes.all_jump, GRes.all_trap, GRes.all_stop, Ans.all_reply, Ans.all_later, Ans.all_waits]
    | (with_reducible first
        | intro _ | assumption | exact True.intro | (apply Ans.reply_within; case eq0 => assumption)
        | (apply Ans.later_within; case eq0 => assumption) | apply ite_within | apply carryOut_within
        | apply refuse_within | apply startEpoch_within)
    | (with_reducible eapply Ch.nv c_nv; eapply Ch.rcd c_rcd; eapply Ch.host c_host; first
        | assumption | apply carryOut_within | apply refuse_within | apply startEpoch_within | apply ite_within)
    | (with_reducible eapply Ch.rcd c_rcd; first
        | assumption | apply carryOut_within | apply refuse_within | apply startEpoch_within | apply ite_within)
    | split
    | dsimp only

theorem reqRecDecommission_within (q : Req) (word : W16) (s : State) (hq : Ch P q9 s) (cE : EvOk P)
    (c_nv : P .nv = true) (c_prb : P .prb = true) (c_ps : P .ps = true) (c_rcd : P .rcd = true)
    (c_host : P .host = true) :
    Ch P q9 (reqRecDecommission q word s) := by
  have c_irq := cE.irq
  have c_hlt := cE.hlt
  unfold reqRecDecommission
  repeat' first
    | dsimp only [GRes.all_ok, GRes.all_jump, GRes.all_trap, GRes.all_stop, Ans.all_reply, Ans.all_later, Ans.all_waits]
    | (with_reducible first
        | intro _ | assumption | exact True.intro | (apply Ans.reply_within; case eq0 => assumption)
        | (apply Ans.later_within; case eq0 => assumption) | apply ite_within | apply iteFst_within
        | apply carryOut_within | apply note_within | (apply note_within'; case eq0 => assumption)
        | apply refuse_within)
    | (with_reducible eapply Ch.rcd c_rcd; first
        | assumption | apply carryOut_within | apply note_within | (apply note_within'; case eq0 => assumption)
        | apply refuse_within | apply ite_within)
    | (with_reducible eapply Ch.rcd c_rcd; dsimp only; first | (apply note_within'; case eq0 => assumption))
    | split
    | dsimp only

theorem reqRecStatus_within (q : Req) (s : State) (hq : Ch P q9 s) (cE : EvOk P) (c_host : P .host = true) :
    Ch P q9 (reqRecStatus q s) := by
  unfold reqRecStatus
  repeat' first
    | dsimp only [GRes.all_ok, GRes.all_jump, GRes.all_trap, GRes.all_stop, Ans.all_reply, Ans.all_later, Ans.all_waits]
    | (with_reducible first | intro _ | assumption | exact True.intro | apply carryOut_within | apply okWith_within)
    | split
    | dsimp only

theorem execPrbSched_within (q : Req) (measInt : W32) (c0 c1 : ConvBlk) (topen tshort : W16) (s : State) {s9 : State}
    (hq : Ch P q9 s) (cE : EvOk P) (c_nv : P .nv = true) (c_conv : P .conv = true) (c_prb : P .prb = true)
    (c_ps : P .ps = true) (c_rcd : P .rcd = true) (c_host : P .host = true)
    (eq0 : execPrbSched q measInt c0 c1 topen tshort s = .next s9) :
    Ch P q9 s9 := by
  unfold execPrbSched at eq0
  have e1 := Host.Outcome.next.inj eq0
  rw [← e1]
  repeat' first
    | dsimp only [GRes.all_ok, GRes.all_jump, GRes.all_trap, GRes.all_stop, Ans.all_reply, Ans.all_later, Ans.all_waits]
    | (with_reducible first | intro _ | assumption | exact True.intro | apply reqPrbSched_within)
    | split
    | dsimp only

theorem execPrbCoef_within (q : Req) (p : Byte) (reserved : BitVec 24) (a b c3 : W64) (off : W32) (s : State)
    {s9 : State} (hq : Ch P q9 s) (cE : EvOk P) (c_prb : P .prb = true) (c_host : P .host = true)
    (eq0 : execPrbCoef q p reserved a b c3 off s = .next s9) :
    Ch P q9 s9 := by
  unfold execPrbCoef at eq0
  have e1 := Host.Outcome.next.inj eq0
  rw [← e1]
  repeat' first
    | dsimp only [GRes.all_ok, GRes.all_jump, GRes.all_trap, GRes.all_stop, Ans.all_reply, Ans.all_later, Ans.all_waits]
    | (with_reducible first | intro _ | assumption | exact True.intro | apply reqPrbCoef_within)
    | split
    | dsimp only

theorem execPrbRead_within (q : Req) (p : Byte) (s : State) {s9 : State} (hq : Ch P q9 s) (cE : EvOk P)
    (c_host : P .host = true) (eq0 : execPrbRead q p s = .next s9) :
    Ch P q9 s9 := by
  unfold execPrbRead at eq0
  have e1 := Host.Outcome.next.inj eq0
  rw [← e1]
  repeat' first
    | dsimp only [GRes.all_ok, GRes.all_jump, GRes.all_trap, GRes.all_stop, Ans.all_reply, Ans.all_later, Ans.all_waits]
    | (with_reducible first | intro _ | assumption | exact True.intro | apply reqPrbRead_within)
    | split
    | dsimp only

theorem execPrbStop_within (q : Req) (s : State) {s9 : State} (hq : Ch P q9 s) (cE : EvOk P) (c_ps : P .ps = true)
    (c_host : P .host = true) (eq0 : execPrbStop q s = .next s9) :
    Ch P q9 s9 := by
  unfold execPrbStop at eq0
  have e1 := Host.Outcome.next.inj eq0
  rw [← e1]
  repeat' first
    | dsimp only [GRes.all_ok, GRes.all_jump, GRes.all_trap, GRes.all_stop, Ans.all_reply, Ans.all_later, Ans.all_waits]
    | (with_reducible first | intro _ | assumption | exact True.intro | apply reqPrbStop_within)
    | split
    | dsimp only

theorem execRecRead_within (q : Req) (flags count : Byte) (epoch : W16) (seq : W32) (s : State) {s9 : State}
    (hq : Ch P q9 s) (cE : EvOk P) (c_host : P .host = true)
    (eq0 : execRecRead q flags count epoch seq s = .next s9) :
    Ch P q9 s9 := by
  unfold execRecRead at eq0
  have e1 := Host.Outcome.next.inj eq0
  rw [← e1]
  repeat' first
    | dsimp only [GRes.all_ok, GRes.all_jump, GRes.all_trap, GRes.all_stop, Ans.all_reply, Ans.all_later, Ans.all_waits]
    | (with_reducible first | intro _ | assumption | exact True.intro | apply reqRecRead_within)
    | split
    | dsimp only

theorem execRecAck_within (q : Req) (epoch reserved : W16) (seq : W32) (s : State) {s9 : State} (hq : Ch P q9 s)
    (cE : EvOk P) (c_nv : P .nv = true) (c_prb : P .prb = true) (c_ps : P .ps = true) (c_rcd : P .rcd = true)
    (c_host : P .host = true) (eq0 : execRecAck q epoch reserved seq s = .next s9) :
    Ch P q9 s9 := by
  unfold execRecAck at eq0
  have e1 := Host.Outcome.next.inj eq0
  rw [← e1]
  repeat' first
    | dsimp only [GRes.all_ok, GRes.all_jump, GRes.all_trap, GRes.all_stop, Ans.all_reply, Ans.all_later, Ans.all_waits]
    | (with_reducible first | intro _ | assumption | exact True.intro | apply reqRecAck_within)
    | split
    | dsimp only

theorem execRecEvent_within (q : Req) (kind source : Byte) (flags : W16) (value : W32) (s : State) {s9 : State}
    (hq : Ch P q9 s) (cE : EvOk P) (c_nv : P .nv = true) (c_prb : P .prb = true) (c_ps : P .ps = true)
    (c_rcd : P .rcd = true) (c_host : P .host = true) (eq0 : execRecEvent q kind source flags value s = .next s9) :
    Ch P q9 s9 := by
  unfold execRecEvent at eq0
  have e1 := Host.Outcome.next.inj eq0
  rw [← e1]
  repeat' first
    | dsimp only [GRes.all_ok, GRes.all_jump, GRes.all_trap, GRes.all_stop, Ans.all_reply, Ans.all_later, Ans.all_waits]
    | (with_reducible first | intro _ | assumption | exact True.intro | apply reqRecEvent_within)
    | split
    | dsimp only

theorem execRecProvision_within (q : Req) (key : List Byte) (s : State) {s9 : State} (hq : Ch P q9 s) (cE : EvOk P)
    (c_nv : P .nv = true) (c_rcd : P .rcd = true) (c_host : P .host = true)
    (eq0 : execRecProvision q key s = .next s9) :
    Ch P q9 s9 := by
  unfold execRecProvision at eq0
  have e1 := Host.Outcome.next.inj eq0
  rw [← e1]
  repeat' first
    | dsimp only [GRes.all_ok, GRes.all_jump, GRes.all_trap, GRes.all_stop, Ans.all_reply, Ans.all_later, Ans.all_waits]
    | (with_reducible first | intro _ | assumption | exact True.intro | apply reqRecProvision_within)
    | split
    | dsimp only

theorem execRecDecommission_within (q : Req) (word : W16) (s : State) {s9 : State} (hq : Ch P q9 s) (cE : EvOk P)
    (c_nv : P .nv = true) (c_prb : P .prb = true) (c_ps : P .ps = true) (c_rcd : P .rcd = true)
    (c_host : P .host = true) (eq0 : execRecDecommission q word s = .next s9) :
    Ch P q9 s9 := by
  unfold execRecDecommission at eq0
  have e1 := Host.Outcome.next.inj eq0
  rw [← e1]
  repeat' first
    | dsimp only [GRes.all_ok, GRes.all_jump, GRes.all_trap, GRes.all_stop, Ans.all_reply, Ans.all_later, Ans.all_waits]
    | (with_reducible first | intro _ | assumption | exact True.intro | apply reqRecDecommission_within)
    | split
    | dsimp only

theorem execRecStatus_within (q : Req) (s : State) {s9 : State} (hq : Ch P q9 s) (cE : EvOk P)
    (c_host : P .host = true) (eq0 : execRecStatus q s = .next s9) :
    Ch P q9 s9 := by
  unfold execRecStatus at eq0
  have e1 := Host.Outcome.next.inj eq0
  rw [← e1]
  repeat' first
    | dsimp only [GRes.all_ok, GRes.all_jump, GRes.all_trap, GRes.all_stop, Ans.all_reply, Ans.all_later, Ans.all_waits]
    | (with_reducible first | intro _ | assumption | exact True.intro | apply reqRecStatus_within)
    | split
    | dsimp only

theorem runRequest_within (cmd : Nat) (q : Req) (p : List Byte) (s : State) (hq : Ch P q9 s) (cR : RsOk P)
    (c_nv : P .nv = true) :
    Ch P q9 (runRequest cmd q p s) := by
  have cE := cR.toEvOk
  have c_tb := cR.tb
  have c_rsv := cR.rsv
  have c_units := cR.units
  have c_tio := cR.tio
  have c_xing := cR.xing
  have c_link := cR.link
  have c_har := cR.har
  have c_thr := cR.thr
  have c_eng := cR.eng
  have c_prog := cR.prog
  have c_frm := cR.frm
  have c_lmap := cR.lmap
  have c_spw := cR.spw
  have c_gt := cR.gt
  have c_conv := cR.conv
  have c_prb := cR.prb
  have c_ps := cR.ps
  have c_rcd := cR.rcd
  have c_host := cR.host
  have c_pwr := cR.pwr
  unfold runRequest
  repeat' first
    | (with_reducible first
        | intro _ | assumption | apply reqAnchor_within | apply reqAxisHome_within | apply reqAxisMove_within
        | apply reqBClose_within | apply reqBOpen_within | apply reqBSet_within | apply reqBootContinue_within
        | apply reqCalProc_within | apply reqCalRead_within | apply reqCalWrite_within | apply reqCauseClear_within
        | apply reqChCfg_within | apply reqChClose_within | apply reqChCtl_within | apply reqChOpen_within
        | apply reqChRead_within | apply reqChWrite_within | apply reqDrift_within | apply reqGtClose_within
        | apply reqGtOpen_within | apply reqGtStatus_within | apply reqGtTune_within | apply reqHAct_within
        | apply reqHCfg_within | apply reqHClear_within | apply reqHClose_within | apply reqHOpen_within
        | apply reqHRide_within | apply reqHStatus_within | apply reqHeadroom_within | apply reqHealthDet_within
        | apply reqHealthSum_within | apply reqIdentity_within | apply reqInjClose_within | apply reqInjFire_within
        | apply reqInjOpen1_within | apply reqInjOpen2_within | apply reqMotOpen_within | apply reqMotParam_within
        | apply reqMotStart_within | apply reqMotStatus_within | apply reqMotStop_within | apply reqNewEpoch_within
        | apply reqNop_within | apply reqPatchData_within | apply reqPatchRun_within | apply reqPrbCoef_within
        | apply reqPrbRead_within | apply reqPrbSched_within | apply reqPrbStop_within | apply reqProgClose_within
        | apply reqProgDoorbell_within | apply reqProgMsg_within | apply reqProgOpen_within
        | apply reqProgUpload_within | apply reqRecAck_within | apply reqRecDecommission_within
        | apply reqRecEvent_within | apply reqRecProvision_within | apply reqRecRead_within
        | apply reqRecStatus_within | apply reqReset_within | apply reqSdRead_within | apply reqSdWrite_within
        | apply reqSleep_within | apply reqSpread_within | apply reqState_within | apply reqTagRead_within
        | apply reqTagWrite_within | apply reqThreadInfo_within | apply reqTimeGet_within | apply reqTioSet_within)
    | split
    | dsimp only

theorem takeRequest_within (m : MailboxId) (s : State) (hq : Ch P q9 s) (cR : RsOk P) (c_nv : P .nv = true) :
    Ch P q9 (takeRequest m s) := by
  have cE := cR.toEvOk
  have c_host := cR.host
  unfold takeRequest
  repeat' first
    | (with_reducible first
        | intro _ | assumption | apply ite_within | apply refuseMalformed_within | apply runRequest_within
        | apply writeReply_within)
    | split
    | dsimp only

theorem execFarrierTakeRequest_within (s : State) {s9 : State} (hq : Ch P q9 s) (cR : RsOk P) (c_nv : P .nv = true)
    (eq0 : execFarrierTakeRequest s = .next s9) :
    Ch P q9 s9 := by
  unfold execFarrierTakeRequest at eq0
  have e1 := Host.Outcome.next.inj eq0
  rw [← e1]
  repeat' first
    | dsimp only [GRes.all_ok, GRes.all_jump, GRes.all_trap, GRes.all_stop, Ans.all_reply, Ans.all_later, Ans.all_waits]
    | (with_reducible first | intro _ | assumption | exact True.intro | apply ite_within | apply takeRequest_within)
    | split
    | dsimp only

end Sys2Proof.Machine
end

