-- ==== Sys2Proof/Laws/PartsDebug.lean ====
section
/-! SUPPORT. For each function of the model, the parts of the state it may change: DebugOps, Debug. -/

namespace Sys2Proof.Machine

open Sys2Proof.Claims

set_option maxRecDepth 4096

variable {P : Part → Bool} {q9 : State}

theorem State_modDbg_within (s : State) (f : Debug → Debug) (hq : Ch P q9 s) (c_dbg : P .dbg = true) :
    Ch P q9 (State.modDbg s f) := by
  unfold State.modDbg
  repeat' first
    | (with_reducible first | intro _ | assumption)
    | (with_reducible eapply Ch.dbg c_dbg; assumption)
    | split
    | dsimp only

theorem tapSelect_within (ir : BitVec 5) (tdo : BitVec 147) (s : State) (hq : Ch P q9 s) (cE : EvOk P)
    (c_units : P .units = true) (c_xing : P .xing = true) (c_dbg : P .dbg = true) :
    Ch P q9 (tapSelect ir tdo s) := by
  unfold tapSelect
  repeat' first
    | (with_reducible first
        | intro _ | assumption | apply ite_within | apply forEach_within | apply State_modDbg_within
        | apply feedPad_within | apply forEach_within)
    | split
    | dsimp only

theorem haltFarrier_within (cause : BitVec 3) (s : State) (hq : Ch P q9 s) (c_far : P .far = true)
    (c_dbg : P .dbg = true) :
    Ch P q9 (haltFarrier cause s) := by
  unfold haltFarrier
  repeat' first
    | (with_reducible first | intro _ | assumption | apply State_modDbg_within | apply stopWdt_within)
    | (with_reducible eapply Ch.far c_far; first | assumption | apply State_modDbg_within | apply stopWdt_within)
    | split
    | dsimp only

theorem requestHaltF_within (s : State) (hq : Ch P q9 s) (c_far : P .far = true) (c_dbg : P .dbg = true) :
    Ch P q9 (requestHaltF s) := by
  unfold requestHaltF
  repeat' first
    | (with_reducible first | intro _ | assumption | apply ite_within | apply haltFarrier_within)
    | split
    | dsimp only

theorem requestResumeF_within (s : State) (hq : Ch P q9 s) (cE : EvOk P) (c_tb : P .tb = true) (c_rsv : P .rsv = true)
    (c_nv : P .nv = true) (c_units : P .units = true) (c_xing : P .xing = true) (c_link : P .link = true)
    (c_har : P .har = true) (c_thr : P .thr = true) (c_eng : P .eng = true) (c_prog : P .prog = true)
    (c_frm : P .frm = true) (c_lmap : P .lmap = true) (c_spw : P .spw = true) (c_gt : P .gt = true)
    (c_conv : P .conv = true) (c_prb : P .prb = true) (c_ps : P .ps = true) (c_rcd : P .rcd = true)
    (c_host : P .host = true) (c_pwr : P .pwr = true) :
    Ch P q9 (requestResumeF s) := by
  have c_irq := cE.irq
  have c_far := cE.far
  have c_hlt := cE.hlt
  unfold requestResumeF
  repeat' first
    | (with_reducible first
        | intro _ | assumption | apply ite_within | apply cfgFinish_within | apply completeBoot_within
        | apply completeRestart_within | apply finishWake_within | apply goWdt_within | apply openFinish_within
        | apply storeMeans_within | apply writeDue_within)
    | (with_reducible eapply Ch.far c_far; first
        | assumption | apply cfgFinish_within | apply completeBoot_within | apply completeRestart_within
        | apply finishWake_within | apply goWdt_within | apply openFinish_within | apply storeMeans_within
        | apply writeDue_within | apply ite_within)
    | split
    | dsimp only

theorem requestStepF_within (s : State) (hq : Ch P q9 s) (c_far : P .far = true) (c_dbg : P .dbg = true) :
    Ch P q9 (requestStepF s) := by
  unfold requestStepF
  repeat' first
    | (with_reducible first | intro _ | assumption | apply ite_within | apply haltFarrier_within)
    | split
    | dsimp only

theorem parkThread_within (tid : Tid) (s : State) (hq : Ch P q9 s) (c_thr : P .thr = true) :
    Ch P q9 (parkThread tid s) := by
  unfold parkThread
  repeat' first
    | (with_reducible first | intro _ | assumption | apply ite_within | apply State_modThr_within)
    | split
    | dsimp only

theorem requestHaltEng_within (e : EngineId) (s : State) (hq : Ch P q9 s) (c_thr : P .thr = true)
    (c_eng : P .eng = true) :
    Ch P q9 (requestHaltEng e s) := by
  unfold requestHaltEng
  repeat' first
    | (with_reducible first
        | intro _ | assumption | apply forEach_within | apply State_modEng_within | apply forEach_within
        | apply parkThread_within)
    | split
    | dsimp only

theorem releaseThread_within (tid : Tid) (s : State) (hq : Ch P q9 s) (c_thr : P .thr = true)
    (c_eng : P .eng = true) :
    Ch P q9 (releaseThread tid s) := by
  unfold releaseThread
  repeat' first
    | (with_reducible first
        | intro _ | assumption | apply ite_within | apply State_modEng_within | apply State_modThr_within)
    | split
    | dsimp only

theorem requestResumeEng_within (e : EngineId) (s : State) (hq : Ch P q9 s) (c_thr : P .thr = true)
    (c_eng : P .eng = true) :
    Ch P q9 (requestResumeEng e s) := by
  unfold requestResumeEng
  repeat' first
    | (with_reducible first
        | intro _ | assumption | apply forEach_within | apply State_modEng_within | apply forEach_within
        | apply releaseThread_within)
    | split
    | dsimp only

theorem requestHaltT_within (tid : Tid) (s : State) (hq : Ch P q9 s) (c_thr : P .thr = true) (c_eng : P .eng = true) :
    Ch P q9 (requestHaltT tid s) := by
  unfold requestHaltT
  repeat' first
    | (with_reducible first
        | intro _ | assumption | apply ite_within | apply State_modEng_within | apply haltThread_within)
    | split
    | dsimp only

theorem requestResumeT_within (tid : Tid) (s : State) (hq : Ch P q9 s) (c_thr : P .thr = true)
    (c_eng : P .eng = true) :
    Ch P q9 (requestResumeT tid s) := by
  unfold requestResumeT
  repeat' first
    | (with_reducible first | intro _ | assumption | apply State_modThr_within | apply releaseThread_within)
    | split
    | dsimp only

theorem runGroom_within (i : Instr) (s : State) {s9 : State} (hq : Ch P q9 s) (cR : RsOk P)
    (eq0 : runGroom i s = .next s9) : Ch P q9 s9 := by
  unfold runGroom at eq0
  split at eq0
  · exact execAdd_within _ _ s hq cR eq0
  · exact execSub_within _ _ s hq cR eq0
  · exact execAnd_within _ _ s hq cR eq0
  · exact execOr_within _ _ s hq cR eq0
  · exact execXor_within _ _ s hq cR eq0
  · exact execShl_within _ _ s hq cR eq0
  · exact execShr_within _ _ s hq cR eq0
  · exact execSar_within _ _ s hq cR eq0
  · exact execMin_within _ _ s hq cR eq0
  · exact execMax_within _ _ s hq cR eq0
  · exact execCmp_within _ _ s hq cR eq0
  · exact execTadd_within _ _ s hq cR eq0
  · exact execTsub_within _ _ s hq cR eq0
  · exact execMul_within _ _ s hq cR eq0
  · exact execDivu_within _ _ s hq cR eq0
  · exact execRemu_within _ _ s hq cR eq0
  · exact execAddi_within _ _ s hq cR eq0
  · exact execAndi_within _ _ s hq cR eq0
  · exact execOri_within _ _ s hq cR eq0
  · exact execXori_within _ _ s hq cR eq0
  · exact execShli_within _ _ s hq cR eq0
  · exact execShri_within _ _ s hq cR eq0
  · exact execSari_within _ _ s hq cR eq0
  · exact execCmpi_within _ _ s hq cR eq0
  · exact execMovi_within _ _ s hq cR eq0
  · exact execLdw_within _ _ s hq cR eq0
  · exact execLdd_within _ _ s hq cR eq0
  · exact execStw_within _ _ s hq cR eq0
  · exact execStd_within _ _ s hq cR eq0
  · exact execFadd_within _ _ s hq cR eq0
  · exact execSwap_within _ _ s hq cR eq0
  · exact execBcond_within _ _ s hq cR eq0
  · exact execCall_within _ _ s hq cR eq0
  · exact execJr_within _ _ s hq cR eq0
  · exact execWait_within _ _ s hq cR eq0
  · exact execNow_within _ _ s hq cR eq0
  · exact execSig_within _ _ s hq cR eq0
  · exact execDbf_within _ _ s hq cR eq0
  · exact execAttn_within _ _ s hq cR eq0
  · exact execMfs_within _ _ s hq cR eq0
  · exact execTrap_within _ _ s hq cR eq0
  · exact execCarm_within _ _ s hq cR eq0
  · exact execCshd_within _ _ s hq cR eq0
  · exact execCdis_within _ _ s hq cR eq0
  · exact execCfrc_within _ _ s hq cR eq0
  · exact execClock_within _ _ s hq cR eq0
  · exact execCcap_within _ _ s hq cR eq0
  · exact execHact_within _ _ s hq cR eq0
  · exact execBpost_within _ _ s hq cR eq0
  · exact execBread_within _ _ s hq cR eq0
  · exact execBack_within _ _ s hq cR eq0
  · exact execSpw_within _ _ s hq cR eq0
  · exact execAconv_within _ _ s hq cR eq0
  · exact execLsn_within _ _ s hq cR eq0
  · exact execUlsn_within _ _ s hq cR eq0
  · exact execTimer_within _ _ s hq cR eq0
  · exact execTimerx_within _ _ s hq cR eq0
  · exact execSpc_within _ _ s hq cR eq0
  · exact execSpx_within _ _ s hq cR eq0
  · exact execTper_within _ _ s hq cR eq0
  · exact execTlast_within _ _ s hq cR eq0
  · cases eq0; exact hq

theorem requestStepT_within (tid : Tid) (s : State) {s9 : State} (hq : Ch P q9 s) (cR : RsOk P)
    (eq0 : requestStepT tid s = .next s9) :
    Ch P q9 s9 := by
  have c_thr := cR.thr
  unfold requestStepT at eq0
  try dsimp only at eq0
  repeat' first | (apply runGroom_within; case eq0 => assumption) | split at eq0 | (injection eq0 with eq0; subst eq0) | cases eq0
  all_goals repeat' first
    | dsimp only [GRes.all_ok, GRes.all_jump, GRes.all_trap, GRes.all_stop, Ans.all_reply, Ans.all_later, Ans.all_waits]
    | (with_reducible first
        | intro _ | assumption | exact True.intro | apply ite_within | apply iteFst_within | apply State_modThr_within
        | apply fetchPage_within | (apply fetchPage_within'; case eq0 => assumption) | apply issue_within)
    | split
    | dsimp only

theorem requestWalkEnter_within (tide : TideCnt) (s : State) (hq : Ch P q9 s) (cE : EvOk P) (c_tb : P .tb = true)
    (c_rsv : P .rsv = true) (c_units : P .units = true) (c_xing : P .xing = true) (c_link : P .link = true)
    (c_har : P .har = true) (c_rcd : P .rcd = true) (c_pwr : P .pwr = true) (c_dbg : P .dbg = true) :
    Ch P q9 (requestWalkEnter tide s) := by
  have c_irq := cE.irq
  unfold requestWalkEnter
  repeat' first
    | (with_reducible first
        | intro _ | assumption | apply ite_within | apply State_modDbg_within | apply latchPair_within
        | apply pulse_within | apply safePower_within | apply startCoarse_within | apply tideTo_within)
    | (with_reducible eapply Ch.tb c_tb; eapply Ch.pwr c_pwr; eapply Ch.dbg c_dbg; first
        | assumption | apply State_modDbg_within | apply latchPair_within | apply pulse_within
        | apply safePower_within | apply startCoarse_within | apply tideTo_within | apply ite_within)
    | split
    | dsimp only

theorem requestWalkExit_within (s : State) (hq : Ch P q9 s) (c_irq : P .irq = true) (c_pwr : P .pwr = true)
    (c_dbg : P .dbg = true) :
    Ch P q9 (requestWalkExit s) := by
  unfold requestWalkExit
  repeat' first
    | (with_reducible first | intro _ | assumption | apply ite_within | apply pulse_within)
    | (with_reducible eapply Ch.pwr c_pwr; eapply Ch.dbg c_dbg; first | assumption | apply pulse_within | apply ite_within)
    | split
    | dsimp only

theorem startFuse_within (idx : Byte) (s : State) (hq : Ch P q9 s) (c_dbg : P .dbg = true) :
    Ch P q9 (startFuse idx s) := by
  unfold startFuse
  repeat' first
    | (with_reducible first | intro _ | assumption | apply ite_within | apply State_modDbg_within)
    | split
    | dsimp only

theorem whenBit_within (b : Bool) (f : State → State) (s : State) (hq : Ch P q9 s)
    (k_f : ∀ x, Ch P q9 x → Ch P q9 (f x)) :
    Ch P q9 (whenBit b f s) := by
  unfold whenBit
  repeat' first
    | (with_reducible first | intro _ | assumption | apply ite_within | apply k_f)
    | split
    | dsimp only

theorem farrierRequests_within (v : W32) (s : State) (hq : Ch P q9 s) (cR : RsOk P) (c_nv : P .nv = true) :
    Ch P q9 (farrierRequests v s) := by
  have cE := cR.toEvOk
  have c_tb := cR.tb
  have c_rsv := cR.rsv
  have c_units := cR.units
  have c_xing := cR.xing
  have c_link := cR.link
  have c_har := cR.har
  have c_thr := cR.thr
  have c_eng := cR.eng
  have c_prog := cR.prog
  have c_frm := cR.frm
  have c_lmap := cR.lmap
  have c_spw := cR.spw
  have c_gt := cR.gt
  have c_conv := cR.conv
  have c_prb := cR.prb
  have c_ps := cR.ps
  have c_rcd := cR.rcd
  have c_host := cR.host
  have c_irq := cR.irq
  have c_far := cR.far
  have c_pwr := cR.pwr
  have c_dbg := cR.dbg
  unfold farrierRequests
  repeat' first
    | (with_reducible first
        | intro _ | assumption | apply assertReset_within | apply requestHaltF_within | apply requestResumeF_within
        | apply requestStepF_within | apply requestWalkEnter_within | apply requestWalkExit_within
        | apply whenBit_within)
    | split
    | dsimp only

theorem engineRequests_within (e : EngineId) (v : W32) (s : State) {s9 : State} (hq : Ch P q9 s) (cR : RsOk P)
    (eq0 : engineRequests e v s = .next s9) :
    Ch P q9 s9 := by
  have c_thr := cR.thr
  have c_eng := cR.eng
  unfold engineRequests at eq0
  try dsimp only at eq0
  repeat' first | (apply requestStepT_within; case eq0 => assumption) | split at eq0 | (injection eq0 with eq0; subst eq0) | cases eq0
  all_goals repeat' first
    | dsimp only [GRes.all_ok, GRes.all_jump, GRes.all_trap, GRes.all_stop, Ans.all_reply, Ans.all_later, Ans.all_waits]
    | (with_reducible first
        | intro _ | assumption | exact True.intro | apply ite_within | apply requestHaltEng_within
        | apply requestHaltT_within | apply requestResumeEng_within | apply requestResumeT_within
        | apply whenBit_within)
    | split
    | dsimp only

theorem dbgWrite_within (idx : Nat) (v : W32) (s : State) {s9 : State} (hq : Ch P q9 s) (cR : RsOk P)
    (c_nv : P .nv = true) (eq0 : dbgWrite idx v s = .next s9) :
    Ch P q9 s9 := by
  have c_eng := cR.eng
  have c_dbg := cR.dbg
  unfold dbgWrite at eq0
  try dsimp only at eq0
  repeat' first | (apply engineRequests_within; case eq0 => assumption) | split at eq0 | (injection eq0 with eq0; subst eq0) | cases eq0
  all_goals repeat' first
    | dsimp only [GRes.all_ok, GRes.all_jump, GRes.all_trap, GRes.all_stop, Ans.all_reply, Ans.all_later, Ans.all_waits]
    | (with_reducible first
        | intro _ | assumption | exact True.intro | apply ite_within | apply State_modDbg_within
        | apply State_modEng_within | apply farrierRequests_within)
    | split
    | dsimp only

theorem debugReadFx_within (a : W32) (s : State) (hq : Ch P q9 s) (cR : RsOk P) :
    Ch P q9 (debugReadFx a s) := by
  unfold debugReadFx
  repeat' first
    | (with_reducible first | intro _ | assumption | apply ite_within | apply busReadFx_within)
    | split
    | dsimp only

theorem debugAccess_within (s : State) (hq : Ch P q9 s) (cR : RsOk P) :
    Ch P q9 (debugAccess s) := by
  have c_dbg := cR.dbg
  unfold debugAccess
  repeat' first
    | (with_reducible first
        | intro _ | assumption | apply ite_within | apply State_modDbg_within | apply busWrite_within
        | apply debugReadFx_within)
    | split
    | dsimp only

theorem onTap_within (f : State → State) (s : State) {s9 : State} (hq : Ch P q9 s)
    (k_f : ∀ x, Ch P q9 x → Ch P q9 (f x)) (eq0 : onTap f s = .next s9) :
    Ch P q9 s9 := by
  unfold onTap at eq0
  have e1 := Host.Outcome.next.inj eq0
  rw [← e1]
  repeat' first
    | dsimp only [GRes.all_ok, GRes.all_jump, GRes.all_trap, GRes.all_stop, Ans.all_reply, Ans.all_later, Ans.all_waits]
    | (with_reducible first | intro _ | assumption | exact True.intro | apply ite_within | apply k_f)
    | split
    | dsimp only

theorem execTapReset_within (s : State) {s9 : State} (hq : Ch P q9 s) (cE : EvOk P) (c_units : P .units = true)
    (c_xing : P .xing = true) (c_dbg : P .dbg = true) (eq0 : execTapReset s = .next s9) :
    Ch P q9 s9 := by
  unfold execTapReset at eq0
  try dsimp only at eq0
  repeat' first | (apply onTap_within; case eq0 => assumption) | split at eq0 | (injection eq0 with eq0; subst eq0) | cases eq0
  all_goals repeat' first
    | dsimp only [GRes.all_ok, GRes.all_jump, GRes.all_trap, GRes.all_stop, Ans.all_reply, Ans.all_later, Ans.all_waits]
    | (with_reducible first | intro _ | assumption | exact True.intro | apply tapSelect_within)
    | split
    | dsimp only

theorem execExtest_within (s : State) {s9 : State} (hq : Ch P q9 s) (cE : EvOk P) (c_units : P .units = true)
    (c_xing : P .xing = true) (c_link : P .link = true) (c_har : P .har = true) (c_dbg : P .dbg = true)
    (eq0 : execExtest s = .next s9) :
    Ch P q9 s9 := by
  have c_far := cE.far
  unfold execExtest at eq0
  try dsimp only at eq0
  repeat' first | (apply onTap_within; case eq0 => assumption) | split at eq0 | (injection eq0 with eq0; subst eq0) | cases eq0
  all_goals repeat' first
    | dsimp only [GRes.all_ok, GRes.all_jump, GRes.all_trap, GRes.all_stop, Ans.all_reply, Ans.all_later, Ans.all_waits]
    | (with_reducible first | intro _ | assumption | exact True.intro | apply safePower_within | apply tapSelect_within)
    | (with_reducible eapply Ch.far c_far; first | assumption | apply safePower_within | apply tapSelect_within)
    | split
    | dsimp only

theorem execIdcode_within (s : State) {s9 : State} (hq : Ch P q9 s) (cE : EvOk P) (c_units : P .units = true)
    (c_xing : P .xing = true) (c_dbg : P .dbg = true) (eq0 : execIdcode s = .next s9) :
    Ch P q9 s9 := by
  unfold execIdcode at eq0
  try dsimp only at eq0
  repeat' first | (apply onTap_within; case eq0 => assumption) | split at eq0 | (injection eq0 with eq0; subst eq0) | cases eq0
  all_goals repeat' first
    | dsimp only [GRes.all_ok, GRes.all_jump, GRes.all_trap, GRes.all_stop, Ans.all_reply, Ans.all_later, Ans.all_waits]
    | (with_reducible first | intro _ | assumption | exact True.intro | apply tapSelect_within)
    | split
    | dsimp only

theorem execSamplePreload_within (v : BitVec 147) (s : State) {s9 : State} (hq : Ch P q9 s) (cE : EvOk P)
    (c_units : P .units = true) (c_xing : P .xing = true) (c_dbg : P .dbg = true)
    (eq0 : execSamplePreload v s = .next s9) :
    Ch P q9 s9 := by
  have c_far := cE.far
  unfold execSamplePreload at eq0
  try dsimp only at eq0
  repeat' first | (apply onTap_within; case eq0 => assumption) | split at eq0 | (injection eq0 with eq0; subst eq0) | cases eq0
  all_goals repeat' first
    | dsimp only [GRes.all_ok, GRes.all_jump, GRes.all_trap, GRes.all_stop, Ans.all_reply, Ans.all_later, Ans.all_waits]
    | (with_reducible first | intro _ | assumption | exact True.intro | apply tapSelect_within)
    | (with_reducible eapply Ch.far c_far; eapply Ch.dbg c_dbg; first | assumption | apply tapSelect_within)
    | split
    | dsimp only

theorem execClamp_within (s : State) {s9 : State} (hq : Ch P q9 s) (cE : EvOk P) (c_units : P .units = true)
    (c_xing : P .xing = true) (c_link : P .link = true) (c_har : P .har = true) (c_dbg : P .dbg = true)
    (eq0 : execClamp s = .next s9) :
    Ch P q9 s9 := by
  unfold execClamp at eq0
  try dsimp only at eq0
  repeat' first | (apply onTap_within; case eq0 => assumption) | split at eq0 | (injection eq0 with eq0; subst eq0) | cases eq0
  all_goals repeat' first
    | dsimp only [GRes.all_ok, GRes.all_jump, GRes.all_trap, GRes.all_stop, Ans.all_reply, Ans.all_later, Ans.all_waits]
    | (with_reducible first | intro _ | assumption | exact True.intro | apply safePower_within | apply tapSelect_within)
    | split
    | dsimp only

theorem execHighz_within (s : State) {s9 : State} (hq : Ch P q9 s) (cE : EvOk P) (c_units : P .units = true)
    (c_xing : P .xing = true) (c_link : P .link = true) (c_har : P .har = true) (c_dbg : P .dbg = true)
    (eq0 : execHighz s = .next s9) :
    Ch P q9 s9 := by
  unfold execHighz at eq0
  try dsimp only at eq0
  repeat' first | (apply onTap_within; case eq0 => assumption) | split at eq0 | (injection eq0 with eq0; subst eq0) | cases eq0
  all_goals repeat' first
    | dsimp only [GRes.all_ok, GRes.all_jump, GRes.all_trap, GRes.all_stop, Ans.all_reply, Ans.all_later, Ans.all_waits]
    | (with_reducible first | intro _ | assumption | exact True.intro | apply safePower_within | apply tapSelect_within)
    | split
    | dsimp only

theorem execBypass_within (s : State) {s9 : State} (hq : Ch P q9 s) (cE : EvOk P) (c_units : P .units = true)
    (c_xing : P .xing = true) (c_dbg : P .dbg = true) (eq0 : execBypass s = .next s9) :
    Ch P q9 s9 := by
  unfold execBypass at eq0
  try dsimp only at eq0
  repeat' first | (apply onTap_within; case eq0 => assumption) | split at eq0 | (injection eq0 with eq0; subst eq0) | cases eq0
  all_goals repeat' first
    | dsimp only [GRes.all_ok, GRes.all_jump, GRes.all_trap, GRes.all_stop, Ans.all_reply, Ans.all_later, Ans.all_waits]
    | (with_reducible first | intro _ | assumption | exact True.intro | apply tapSelect_within)
    | split
    | dsimp only

theorem execDbgReg_within (v : BitVec 48) (s : State) {s9 : State} (hq : Ch P q9 s) (cR : RsOk P)
    (c_nv : P .nv = true) (eq0 : execDbgReg v s = .next s9) :
    Ch P q9 s9 := by
  have cE := cR.toEvOk
  have c_units := cR.units
  have c_xing := cR.xing
  have c_far := cR.far
  have c_dbg := cR.dbg
  unfold execDbgReg at eq0
  try dsimp only at eq0
  repeat' first | (apply dbgWrite_within; case eq0 => assumption) | split at eq0 | (injection eq0 with eq0; subst eq0) | cases eq0
  all_goals repeat' first
    | dsimp only [GRes.all_ok, GRes.all_jump, GRes.all_trap, GRes.all_stop, Ans.all_reply, Ans.all_later, Ans.all_waits]
    | (with_reducible first
        | intro _ | assumption | exact True.intro | apply ite_within | apply State_modDbg_within
        | apply tapSelect_within)
    | (with_reducible eapply Ch.far c_far; first | assumption | apply State_modDbg_within | apply tapSelect_within | apply ite_within)
    | split
    | dsimp only

theorem execDbgMem_within (v : BitVec 66) (s : State) {s9 : State} (hq : Ch P q9 s) (cE : EvOk P)
    (c_units : P .units = true) (c_xing : P .xing = true) (c_dbg : P .dbg = true) (eq0 : execDbgMem v s = .next s9) :
    Ch P q9 s9 := by
  unfold execDbgMem at eq0
  have e1 := Host.Outcome.next.inj eq0
  rw [← e1]
  repeat' first
    | dsimp only [GRes.all_ok, GRes.all_jump, GRes.all_trap, GRes.all_stop, Ans.all_reply, Ans.all_later, Ans.all_waits]
    | (with_reducible first
        | intro _ | assumption | exact True.intro | apply ite_within | apply State_modDbg_within
        | apply tapSelect_within)
    | split
    | dsimp only

theorem execDbgMemDone_within (s : State) {s9 : State} (hq : Ch P q9 s) (cR : RsOk P)
    (eq0 : execDbgMemDone s = .next s9) :
    Ch P q9 s9 := by
  unfold execDbgMemDone at eq0
  have e1 := Host.Outcome.next.inj eq0
  rw [← e1]
  repeat' first
    | dsimp only [GRes.all_ok, GRes.all_jump, GRes.all_trap, GRes.all_stop, Ans.all_reply, Ans.all_later, Ans.all_waits]
    | (with_reducible first | intro _ | assumption | exact True.intro | apply ite_within | apply debugAccess_within)
    | split
    | dsimp only

theorem execFuse_within (v : BitVec 24) (s : State) {s9 : State} (hq : Ch P q9 s) (cE : EvOk P)
    (c_units : P .units = true) (c_xing : P .xing = true) (c_dbg : P .dbg = true) (eq0 : execFuse v s = .next s9) :
    Ch P q9 s9 := by
  unfold execFuse at eq0
  have e1 := Host.Outcome.next.inj eq0
  rw [← e1]
  repeat' first
    | dsimp only [GRes.all_ok, GRes.all_jump, GRes.all_trap, GRes.all_stop, Ans.all_reply, Ans.all_later, Ans.all_waits]
    | (with_reducible first
        | intro _ | assumption | exact True.intro | apply ite_within | apply startFuse_within | apply tapSelect_within)
    | split
    | dsimp only

theorem execFuseBlowDone_within (s : State) {s9 : State} (hq : Ch P q9 s) (c_nv : P .nv = true)
    (c_dbg : P .dbg = true) (eq0 : execFuseBlowDone s = .next s9) :
    Ch P q9 s9 := by
  unfold execFuseBlowDone at eq0
  have e1 := Host.Outcome.next.inj eq0
  rw [← e1]
  repeat' first
    | dsimp only [GRes.all_ok, GRes.all_jump, GRes.all_trap, GRes.all_stop, Ans.all_reply, Ans.all_later, Ans.all_waits]
    | (with_reducible first | intro _ | assumption | exact True.intro | apply ite_within)
    | (with_reducible eapply Ch.nv c_nv; eapply Ch.dbg c_dbg; first | assumption | apply ite_within)
    | split
    | dsimp only

theorem onDebug_within (f : State → State) (s : State) {s9 : State} (hq : Ch P q9 s)
    (k_f : ∀ x, Ch P q9 x → Ch P q9 (f x)) (eq0 : onDebug f s = .next s9) :
    Ch P q9 s9 := by
  unfold onDebug at eq0
  have e1 := Host.Outcome.next.inj eq0
  rw [← e1]
  repeat' first
    | dsimp only [GRes.all_ok, GRes.all_jump, GRes.all_trap, GRes.all_stop, Ans.all_reply, Ans.all_later, Ans.all_waits]
    | (with_reducible first | intro _ | assumption | exact True.intro | apply ite_within | apply k_f)
    | split
    | dsimp only

theorem execHaltF_within (s : State) {s9 : State} (hq : Ch P q9 s) (c_far : P .far = true) (c_dbg : P .dbg = true)
    (eq0 : execHaltF s = .next s9) :
    Ch P q9 s9 := by
  unfold execHaltF at eq0
  try dsimp only at eq0
  repeat' first | (apply onDebug_within; case eq0 => assumption) | split at eq0 | (injection eq0 with eq0; subst eq0) | cases eq0
  all_goals repeat' first
    | dsimp only [GRes.all_ok, GRes.all_jump, GRes.all_trap, GRes.all_stop, Ans.all_reply, Ans.all_later, Ans.all_waits]
    | (with_reducible first | intro _ | assumption | exact True.intro | apply requestHaltF_within)
    | split
    | dsimp only

theorem execResumeF_within (s : State) {s9 : State} (hq : Ch P q9 s) (cE : EvOk P) (c_tb : P .tb = true)
    (c_rsv : P .rsv = true) (c_nv : P .nv = true) (c_units : P .units = true) (c_xing : P .xing = true)
    (c_link : P .link = true) (c_har : P .har = true) (c_thr : P .thr = true) (c_eng : P .eng = true)
    (c_prog : P .prog = true) (c_frm : P .frm = true) (c_lmap : P .lmap = true) (c_spw : P .spw = true)
    (c_gt : P .gt = true) (c_conv : P .conv = true) (c_prb : P .prb = true) (c_ps : P .ps = true)
    (c_rcd : P .rcd = true) (c_host : P .host = true) (c_pwr : P .pwr = true) (eq0 : execResumeF s = .next s9) :
    Ch P q9 s9 := by
  unfold execResumeF at eq0
  try dsimp only at eq0
  repeat' first | (apply onDebug_within; case eq0 => assumption) | split at eq0 | (injection eq0 with eq0; subst eq0) | cases eq0
  all_goals repeat' first
    | dsimp only [GRes.all_ok, GRes.all_jump, GRes.all_trap, GRes.all_stop, Ans.all_reply, Ans.all_later, Ans.all_waits]
    | (with_reducible first | intro _ | assumption | exact True.intro | apply requestResumeF_within)
    | split
    | dsimp only

theorem execStepF_within (s : State) {s9 : State} (hq : Ch P q9 s) (c_far : P .far = true) (c_dbg : P .dbg = true)
    (eq0 : execStepF s = .next s9) :
    Ch P q9 s9 := by
  unfold execStepF at eq0
  try dsimp only at eq0
  repeat' first | (apply onDebug_within; case eq0 => assumption) | split at eq0 | (injection eq0 with eq0; subst eq0) | cases eq0
  all_goals repeat' first
    | dsimp only [GRes.all_ok, GRes.all_jump, GRes.all_trap, GRes.all_stop, Ans.all_reply, Ans.all_later, Ans.all_waits]
    | (with_reducible first | intro _ | assumption | exact True.intro | apply requestStepF_within)
    | split
    | dsimp only

theorem execDbgrst_within (s : State) {s9 : State} (hq : Ch P q9 s) (cR : RsOk P) (eq0 : execDbgrst s = .next s9) :
    Ch P q9 s9 := by
  unfold execDbgrst at eq0
  try dsimp only at eq0
  repeat' first | (apply onDebug_within; case eq0 => assumption) | split at eq0 | (injection eq0 with eq0; subst eq0) | cases eq0
  all_goals repeat' first
    | dsimp only [GRes.all_ok, GRes.all_jump, GRes.all_trap, GRes.all_stop, Ans.all_reply, Ans.all_later, Ans.all_waits]
    | (with_reducible first | intro _ | assumption | exact True.intro | apply assertReset_within)
    | split
    | dsimp only

theorem execWalkEnter_within (t : Instant) (tide : TideCnt) (s : State) {s9 : State} (hq : Ch P q9 s) (cE : EvOk P)
    (c_tb : P .tb = true) (c_rsv : P .rsv = true) (c_units : P .units = true) (c_xing : P .xing = true)
    (c_link : P .link = true) (c_har : P .har = true) (c_rcd : P .rcd = true) (c_pwr : P .pwr = true)
    (c_dbg : P .dbg = true) (eq0 : execWalkEnter t tide s = .next s9) :
    Ch P q9 s9 := by
  unfold execWalkEnter at eq0
  try dsimp only at eq0
  repeat' first | (apply onDebug_within; case eq0 => assumption) | split at eq0 | (injection eq0 with eq0; subst eq0) | cases eq0
  all_goals repeat' first
    | dsimp only [GRes.all_ok, GRes.all_jump, GRes.all_trap, GRes.all_stop, Ans.all_reply, Ans.all_later, Ans.all_waits]
    | (with_reducible first
        | intro _ | assumption | exact True.intro | apply advanceTo_within | apply requestWalkEnter_within)
    | split
    | dsimp only

theorem execWalkExit_within (s : State) {s9 : State} (hq : Ch P q9 s) (c_irq : P .irq = true) (c_pwr : P .pwr = true)
    (c_dbg : P .dbg = true) (eq0 : execWalkExit s = .next s9) :
    Ch P q9 s9 := by
  unfold execWalkExit at eq0
  try dsimp only at eq0
  repeat' first | (apply onDebug_within; case eq0 => assumption) | split at eq0 | (injection eq0 with eq0; subst eq0) | cases eq0
  all_goals repeat' first
    | dsimp only [GRes.all_ok, GRes.all_jump, GRes.all_trap, GRes.all_stop, Ans.all_reply, Ans.all_later, Ans.all_waits]
    | (with_reducible first | intro _ | assumption | exact True.intro | apply requestWalkExit_within)
    | split
    | dsimp only

theorem execHaltEng_within (e : EngineId) (s : State) {s9 : State} (hq : Ch P q9 s) (c_thr : P .thr = true)
    (c_eng : P .eng = true) (eq0 : execHaltEng e s = .next s9) :
    Ch P q9 s9 := by
  unfold execHaltEng at eq0
  try dsimp only at eq0
  repeat' first | (apply onDebug_within; case eq0 => assumption) | split at eq0 | (injection eq0 with eq0; subst eq0) | cases eq0
  all_goals repeat' first
    | dsimp only [GRes.all_ok, GRes.all_jump, GRes.all_trap, GRes.all_stop, Ans.all_reply, Ans.all_later, Ans.all_waits]
    | (with_reducible first | intro _ | assumption | exact True.intro | apply requestHaltEng_within)
    | split
    | dsimp only

theorem execResumeEng_within (e : EngineId) (s : State) {s9 : State} (hq : Ch P q9 s) (c_thr : P .thr = true)
    (c_eng : P .eng = true) (eq0 : execResumeEng e s = .next s9) :
    Ch P q9 s9 := by
  unfold execResumeEng at eq0
  try dsimp only at eq0
  repeat' first | (apply onDebug_within; case eq0 => assumption) | split at eq0 | (injection eq0 with eq0; subst eq0) | cases eq0
  all_goals repeat' first
    | dsimp only [GRes.all_ok, GRes.all_jump, GRes.all_trap, GRes.all_stop, Ans.all_reply, Ans.all_later, Ans.all_waits]
    | (with_reducible first | intro _ | assumption | exact True.intro | apply requestResumeEng_within)
    | split
    | dsimp only

theorem execHaltT_within (tid : Tid) (s : State) {s9 : State} (hq : Ch P q9 s) (c_thr : P .thr = true)
    (c_eng : P .eng = true) (eq0 : execHaltT tid s = .next s9) :
    Ch P q9 s9 := by
  unfold execHaltT at eq0
  try dsimp only at eq0
  repeat' first | (apply onDebug_within; case eq0 => assumption) | split at eq0 | (injection eq0 with eq0; subst eq0) | cases eq0
  all_goals repeat' first
    | dsimp only [GRes.all_ok, GRes.all_jump, GRes.all_trap, GRes.all_stop, Ans.all_reply, Ans.all_later, Ans.all_waits]
    | (with_reducible first | intro _ | assumption | exact True.intro | apply requestHaltT_within)
    | split
    | dsimp only

theorem execResumeT_within (tid : Tid) (s : State) {s9 : State} (hq : Ch P q9 s) (c_thr : P .thr = true)
    (c_eng : P .eng = true) (eq0 : execResumeT tid s = .next s9) :
    Ch P q9 s9 := by
  unfold execResumeT at eq0
  try dsimp only at eq0
  repeat' first | (apply onDebug_within; case eq0 => assumption) | split at eq0 | (injection eq0 with eq0; subst eq0) | cases eq0
  all_goals repeat' first
    | dsimp only [GRes.all_ok, GRes.all_jump, GRes.all_trap, GRes.all_stop, Ans.all_reply, Ans.all_later, Ans.all_waits]
    | (with_reducible first | intro _ | assumption | exact True.intro | apply requestResumeT_within)
    | split
    | dsimp only

theorem execStepT_within (tid : Tid) (s : State) {s9 : State} (hq : Ch P q9 s) (cR : RsOk P)
    (eq0 : execStepT tid s = .next s9) :
    Ch P q9 s9 := by
  unfold execStepT at eq0
  try dsimp only at eq0
  repeat' first | (apply requestStepT_within; case eq0 => assumption) | split at eq0 | (injection eq0 with eq0; subst eq0) | cases eq0
  all_goals repeat' first
    | dsimp only [GRes.all_ok, GRes.all_jump, GRes.all_trap, GRes.all_stop, Ans.all_reply, Ans.all_later, Ans.all_waits]
    | (with_reducible first | intro _ | assumption | exact True.intro | apply ite_within)
    | split
    | dsimp only

end Sys2Proof.Machine
end

