-- ==== Sys2Proof/Laws/PartsExec.lean ====
section
/-! SUPPORT. Every command changes only the parts of the state that `Claims.parts` lists for it. -/

namespace Sys2Proof.Laws

open Sys2Proof Sys2Proof.Machine Sys2Proof.Claims

theorem parts_spreadTakesEffect (t : Instant) (s s1 : State) (hx : execSpreadTakesEffect t s = .next s1) :
    Within (parts (.spreadTakesEffect t)) s s1 :=
  within_of_ch (execSpreadTakesEffect_within t s (Ch.refl _ s) rfl hx)

theorem parts_tideErrorMeasurement (t : Instant) (trc : Bool) (dtTicks : W64) (s s1 : State)
    (hx : execTideErrorMeasurement t trc dtTicks s = .next s1) :
    Within (parts (.tideErrorMeasurement t trc dtTicks)) s s1 :=
  within_of_ch (execTideErrorMeasurement_within t trc dtTicks s (Ch.refl _ s) (evOk rfl) rfl rfl rfl rfl rfl rfl rfl rfl rfl rfl rfl hx)

theorem parts_tidePairRefresh (t : Instant) (tide : TideCnt) (s s1 : State)
    (hx : execTidePairRefresh t tide s = .next s1) :
    Within (parts (.tidePairRefresh t tide)) s s1 :=
  within_of_ch (execTidePairRefresh_within t tide s (Ch.refl _ s) (evOk rfl) rfl rfl rfl rfl rfl rfl rfl rfl rfl hx)

theorem parts_tideCrystalStop (t : Instant) (tide : TideCnt) (s s1 : State)
    (hx : execTideCrystalStop t tide s = .next s1) :
    Within (parts (.tideCrystalStop t tide)) s s1 :=
  within_of_ch (execTideCrystalStop_within t tide s (Ch.refl _ s) (evOk rfl) rfl rfl rfl rfl rfl rfl rfl rfl rfl rfl rfl hx)

theorem parts_tideReturnToCrystal (t : Instant) (tide : TideCnt) (s s1 : State)
    (hx : execTideReturnToCrystal t tide s = .next s1) :
    Within (parts (.tideReturnToCrystal t tide)) s s1 :=
  within_of_ch (execTideReturnToCrystal_within t tide s (Ch.refl _ s) (evOk rfl) rfl rfl rfl rfl rfl rfl rfl rfl rfl rfl rfl hx)

theorem parts_trcFail (t : Instant) (s s1 : State) (hx : execTrcFail t s = .next s1) :
    Within (parts (.trcFail t)) s s1 :=
  within_of_ch (execTrcFail_within t s (Ch.refl _ s) rfl rfl hx)

theorem parts_tideAlarm (t : Instant) (tide : TideCnt) (s s1 : State) (hx : execTideAlarm t tide s = .next s1) :
    Within (parts (.tideAlarm t tide)) s s1 :=
  within_of_ch (execTideAlarm_within t tide s (Ch.refl _ s) (evOk rfl) rfl rfl rfl rfl rfl rfl rfl rfl hx)

theorem parts_talarmWrite (hi : Bool) (v : W32) (s s1 : State) (hx : execTalarmWrite hi v s = .next s1) :
    Within (parts (.talarmWrite hi v)) s s1 :=
  within_of_ch (execTalarmWrite_within hi v s (Ch.refl _ s) rfl rfl rfl rfl rfl hx)

theorem parts_xtalFail (t : Instant) (s s1 : State) (hx : execXtalFail t s = .next s1) :
    Within (parts (.xtalFail t)) s s1 :=
  within_of_ch (execXtalFail_within t s (Ch.refl _ s) (rsOk rfl) hx)

theorem parts_pllRelocked (t : Instant) (tide : TideCnt) (s s1 : State) (hx : execPllRelocked t tide s = .next s1) :
    Within (parts (.pllRelocked t tide)) s s1 :=
  within_of_ch (execPllRelocked_within t tide s (Ch.refl _ s) (evOk rfl) rfl rfl rfl rfl rfl rfl rfl rfl rfl rfl rfl hx)

theorem parts_disciplineWindow (t : Instant) (m : W32) (s s1 : State) (hx : execDisciplineWindow t m s = .next s1) :
    Within (parts (.disciplineWindow t m)) s s1 :=
  within_of_ch (execDisciplineWindow_within t m s (Ch.refl _ s) rfl hx)

theorem parts_xtalRestore (t : Instant) (s s1 : State) (hx : execXtalRestore t s = .next s1) :
    Within (parts (.xtalRestore t)) s s1 :=
  within_of_ch (execXtalRestore_within t s (Ch.refl _ s) rfl rfl rfl rfl rfl rfl rfl hx)

theorem parts_pllUnlock (t : Instant) (s s1 : State) (hx : execPllUnlock t s = .next s1) :
    Within (parts (.pllUnlock t)) s s1 :=
  within_of_ch (execPllUnlock_within t s (Ch.refl _ s) (rsOk rfl) hx)

theorem parts_pllUnlockTimeout (t : Instant) (s s1 : State) (hx : execPllUnlockTimeout t s = .next s1) :
    Within (parts (.pllUnlockTimeout t)) s s1 :=
  within_of_ch (execPllUnlockTimeout_within t s (Ch.refl _ s) (rsOk rfl) hx)

theorem parts_epochZero (s s1 : State) (hx : execEpochZero s = .next s1) :
    Within (parts (.epochZero)) s s1 :=
  within_of_ch (execEpochZero_within s (Ch.refl _ s) rfl rfl rfl rfl rfl rfl rfl rfl rfl rfl rfl rfl rfl rfl rfl rfl rfl rfl rfl rfl hx)

theorem parts_sleepEntryBegin (csnHigh : Bool) (s s1 : State) (hx : execSleepEntryBegin csnHigh s = .next s1) :
    Within (parts (.sleepEntryBegin csnHigh)) s s1 :=
  within_of_ch (execSleepEntryBegin_within csnHigh s (Ch.refl _ s) rfl rfl hx)

theorem parts_sleepTideLatch (t : Instant) (tide : TideCnt) (s s1 : State)
    (hx : execSleepTideLatch t tide s = .next s1) :
    Within (parts (.sleepTideLatch t tide)) s s1 :=
  within_of_ch (execSleepTideLatch_within t tide s (Ch.refl _ s) (rsOk rfl) hx)

theorem parts_wakeLatchSet (which : Fin 11) (rise : Bool) (s s1 : State)
    (hx : execWakeLatchSet which rise s = .next s1) :
    Within (parts (.wakeLatchSet which rise)) s s1 :=
  within_of_ch (execWakeLatchSet_within which rise s (Ch.refl _ s) rfl rfl rfl rfl rfl hx)

theorem parts_wakePllLock (s s1 : State) (hx : execWakePllLock s = .next s1) :
    Within (parts (.wakePllLock)) s s1 :=
  within_of_ch (execWakePllLock_within s (Ch.refl _ s) rfl rfl hx)

theorem parts_wakeReseed (tide : TideCnt) (s s1 : State) (hx : execWakeReseed tide s = .next s1) :
    Within (parts (.wakeReseed tide)) s s1 :=
  within_of_ch (execWakeReseed_within tide s (Ch.refl _ s) (evOk rfl) rfl rfl rfl rfl rfl rfl rfl rfl rfl rfl rfl hx)

theorem parts_domainClocksRelease (t : Instant) (s s1 : State) (hx : execDomainClocksRelease t s = .next s1) :
    Within (parts (.domainClocksRelease t)) s s1 :=
  within_of_ch (execDomainClocksRelease_within t s (Ch.refl _ s) (evOk rfl) rfl rfl rfl rfl rfl rfl rfl rfl rfl rfl rfl rfl hx)

theorem parts_loWordLatchRead (addr : W32) (s s1 : State) (hx : execLoWordLatchRead addr s = .next s1) :
    Within (parts (.loWordLatchRead addr)) s s1 :=
  within_of_ch (execLoWordLatchRead_within addr s (Ch.refl _ s) (rsOk rfl) hx)

theorem parts_capHiRead (u : UnitId) (fall : Bool) (s s1 : State) (hx : execCapHiRead u fall s = .next s1) :
    Within (parts (.capHiRead u fall)) s s1 :=
  within_of_ch (execCapHiRead_within u fall s (Ch.refl _ s) rfl hx)

theorem parts_pwRead (u : UnitId) (s s1 : State) (hx : execPwRead u s = .next s1) :
    Within (parts (.pwRead u)) s s1 :=
  within_of_ch (execPwRead_within u s (Ch.refl _ s) rfl hx)

theorem parts_rcFieldRead (addr : W32) (inc : BitVec 4) (max : W16) (s s1 : State)
    (hx : execRcFieldRead addr inc max s = .next s1) :
    Within (parts (.rcFieldRead addr inc max)) s s1 :=
  within_of_ch (execRcFieldRead_within addr inc max s (Ch.refl _ s) (rsOk rfl) hx)

theorem parts_ratioRead (p : Fin 16) (s s1 : State) (hx : execRatioRead p s = .next s1) :
    Within (parts (.ratioRead p)) s s1 :=
  within_of_ch (execRatioRead_within p s (Ch.refl _ s) rfl hx)

theorem parts_registerWrite (addr : W32) (v : W32) (hw : W32) (s s1 : State)
    (hx : execRegisterWrite addr v hw s = .next s1) :
    Within (parts (.registerWrite addr v hw)) s s1 :=
  within_of_ch (execRegisterWrite_within addr v hw s (Ch.refl _ s) (rsOk rfl) hx)

theorem parts_eventDispatch (t : Instant) (x : Fin 68) (s s1 : State) (hx : execEventDispatch t x s = .next s1) :
    Within (parts (.eventDispatch t x)) s s1 :=
  within_of_ch (execEventDispatch_within t x s (Ch.refl _ s) (evOk rfl) rfl rfl rfl rfl rfl rfl rfl rfl rfl rfl rfl hx)

theorem parts_linkWriteFrame (s s1 : State) (hx : execLinkWriteFrame s = .next s1) :
    Within (parts (.linkWriteFrame)) s s1 :=
  within_of_ch (execLinkWriteFrame_within s (Ch.refl _ s) rfl rfl rfl hx)

theorem parts_linkFrameCrcFail (t : Instant) (own : Bool) (s s1 : State)
    (hx : execLinkFrameCrcFail t own s = .next s1) :
    Within (parts (.linkFrameCrcFail t own)) s s1 :=
  within_of_ch (execLinkFrameCrcFail_within t own s (Ch.refl _ s) (evOk rfl) rfl rfl rfl rfl rfl rfl hx)

theorem parts_faultFrame (t : Instant) (h : HarnessId) (code : Byte) (member : Byte) (sense : BitVec 10)
    (s s1 : State) (hx : execFaultFrame t h code member sense s = .next s1) :
    Within (parts (.faultFrame t h code member sense)) s s1 :=
  within_of_ch (execFaultFrame_within t h code member sense s (Ch.refl _ s) (evOk rfl) rfl rfl rfl rfl rfl rfl hx)

theorem parts_ctrlWrite (u : UnitId) (v : W32) (s s1 : State) (hx : execCtrlWrite u v s = .next s1) :
    Within (parts (.ctrlWrite u v)) s s1 :=
  within_of_ch (execCtrlWrite_within u v s (Ch.refl _ s) rfl hx)

theorem parts_channelEnable (t : Instant) (u : UnitId) (v : W32) (s s1 : State)
    (hx : execChannelEnable t u v s = .next s1) :
    Within (parts (.channelEnable t u v)) s s1 :=
  within_of_ch (execChannelEnable_within t u v s (Ch.refl _ s) rfl rfl hx)

theorem parts_channelDisable (u : UnitId) (v : W32) (s s1 : State) (hx : execChannelDisable u v s = .next s1) :
    Within (parts (.channelDisable u v)) s s1 :=
  within_of_ch (execChannelDisable_within u v s (Ch.refl _ s) rfl hx)

theorem parts_cmpLoWrite (u : UnitId) (which : Fin 4) (v : W32) (s s1 : State)
    (hx : execCmpLoWrite u which v s = .next s1) :
    Within (parts (.cmpLoWrite u which v)) s s1 :=
  within_of_ch (execCmpLoWrite_within u which v s (Ch.refl _ s) rfl hx)

theorem parts_cmpHiWrite (u : UnitId) (b : Bool) (v : W16) (s s1 : State) (hx : execCmpHiWrite u b v s = .next s1) :
    Within (parts (.cmpHiWrite u b v)) s s1 :=
  within_of_ch (execCmpHiWrite_within u b v s (Ch.refl _ s) rfl hx)

theorem parts_compareEffective (t : Instant) (u : UnitId) (b : Bool) (s s1 : State)
    (hx : execCompareEffective t u b s = .next s1) :
    Within (parts (.compareEffective t u b)) s s1 :=
  within_of_ch (execCompareEffective_within t u b s (Ch.refl _ s) (evOk rfl) rfl rfl rfl rfl rfl hx)

theorem parts_compareMatch (t : Instant) (u : UnitId) (b : Bool) (s s1 : State)
    (hx : execCompareMatch t u b s = .next s1) :
    Within (parts (.compareMatch t u b)) s s1 :=
  within_of_ch (execCompareMatch_within t u b s (Ch.refl _ s) (evOk rfl) rfl rfl rfl rfl rfl hx)

theorem parts_localMatch (t : Instant) (u : UnitId) (b : Bool) (down : Bool) (s s1 : State)
    (hx : execLocalMatch t u b down s = .next s1) :
    Within (parts (.localMatch t u b down)) s s1 :=
  within_of_ch (execLocalMatch_within t u b down s (Ch.refl _ s) (evOk rfl) rfl rfl rfl rfl rfl hx)

theorem parts_periodBoundary (t : Instant) (u : UnitId) (s s1 : State) (hx : execPeriodBoundary t u s = .next s1) :
    Within (parts (.periodBoundary t u)) s s1 :=
  within_of_ch (execPeriodBoundary_within t u s (Ch.refl _ s) (evOk rfl) rfl rfl rfl rfl rfl hx)

theorem parts_shadowWrite (u : UnitId) (which : Fin 3) (v : W32) (s s1 : State)
    (hx : execShadowWrite u which v s = .next s1) :
    Within (parts (.shadowWrite u which v)) s s1 :=
  within_of_ch (execShadowWrite_within u which v s (Ch.refl _ s) rfl hx)

theorem parts_disarmA (u : UnitId) (s s1 : State) (hx : execDisarmA u s = .next s1) :
    Within (parts (.disarmA u)) s s1 :=
  within_of_ch (execDisarmA_within u s (Ch.refl _ s) rfl hx)

theorem parts_disarmB (u : UnitId) (s s1 : State) (hx : execDisarmB u s = .next s1) :
    Within (parts (.disarmB u)) s s1 :=
  within_of_ch (execDisarmB_within u s (Ch.refl _ s) rfl hx)

theorem parts_forceHigh (u : UnitId) (s s1 : State) (hx : execForceHigh u s = .next s1) :
    Within (parts (.forceHigh u)) s s1 :=
  within_of_ch (execForceHigh_within u s (Ch.refl _ s) (evOk rfl) rfl rfl rfl rfl hx)

theorem parts_forceLow (u : UnitId) (s s1 : State) (hx : execForceLow u s = .next s1) :
    Within (parts (.forceLow u)) s s1 :=
  within_of_ch (execForceLow_within u s (Ch.refl _ s) (evOk rfl) rfl rfl rfl rfl hx)

theorem parts_forceSafe (u : UnitId) (s s1 : State) (hx : execForceSafe u s = .next s1) :
    Within (parts (.forceSafe u)) s s1 :=
  within_of_ch (execForceSafe_within u s (Ch.refl _ s) (evOk rfl) rfl rfl rfl rfl hx)

theorem parts_inputEdge (t : Instant) (u : UnitId) (level : Bool) (z : Bool) (s s1 : State)
    (hx : execInputEdge t u level z s = .next s1) :
    Within (parts (.inputEdge t u level z)) s s1 :=
  within_of_ch (execInputEdge_within t u level z s (Ch.refl _ s) (evOk rfl) rfl rfl rfl rfl rfl rfl hx)

theorem parts_filterAccept (t : Instant) (u : UnitId) (s s1 : State) (hx : execFilterAccept t u s = .next s1) :
    Within (parts (.filterAccept t u)) s s1 :=
  within_of_ch (execFilterAccept_within t u s (Ch.refl _ s) (evOk rfl) rfl rfl rfl hx)

theorem parts_engineDoze (e : EngineId) (s s1 : State) (hx : execEngineDoze e s = .next s1) :
    Within (parts (.engineDoze e)) s s1 :=
  within_of_ch (execEngineDoze_within e s (Ch.refl _ s) rfl hx)

theorem parts_budgetOverrun (tid : Tid) (cycles : W32) (s s1 : State)
    (hx : execBudgetOverrun tid cycles s = .next s1) :
    Within (parts (.budgetOverrun tid cycles)) s s1 :=
  within_of_ch (execBudgetOverrun_within tid cycles s (Ch.refl _ s) (evOk rfl) rfl rfl hx)

theorem parts_pageFillComplete (p : ProgId) (page : BitVec 12) (words : List W32) (s s1 : State)
    (hx : execPageFillComplete p page words s = .next s1) :
    Within (parts (.pageFillComplete p page words)) s s1 :=
  within_of_ch (execPageFillComplete_within p page words s (Ch.refl _ s) (evOk rfl) rfl rfl rfl hx)

theorem parts_prefetchComplete (p : ProgId) (page : BitVec 12) (words : List W32) (s s1 : State)
    (hx : execPrefetchComplete p page words s = .next s1) :
    Within (parts (.prefetchComplete p page words)) s s1 :=
  within_of_ch (execPrefetchComplete_within p page words s (Ch.refl _ s) (evOk rfl) rfl rfl rfl hx)

theorem parts_basinPost (b : BasinId) (r : Rec) (s s1 : State) (hx : execBasinPost b r s = .next s1) :
    Within (parts (.basinPost b r)) s s1 :=
  within_of_ch (execBasinPost_within b r s (Ch.refl _ s) (evOk rfl) rfl rfl hx)

theorem parts_basinAgeExpiry (t : Instant) (b : BasinId) (s s1 : State) (hx : execBasinAgeExpiry t b s = .next s1) :
    Within (parts (.basinAgeExpiry t b)) s s1 :=
  within_of_ch (execBasinAgeExpiry_within t b s (Ch.refl _ s) (evOk rfl) rfl rfl rfl hx)

theorem parts_rdCntWrite (b : BasinId) (v : W32) (s s1 : State) (hx : execRdCntWrite b v s = .next s1) :
    Within (parts (.rdCntWrite b v)) s s1 :=
  within_of_ch (execRdCntWrite_within b v s (Ch.refl _ s) (evOk rfl) rfl rfl hx)

theorem parts_threadTimerMatch (t : Instant) (tid : Tid) (s s1 : State)
    (hx : execThreadTimerMatch t tid s = .next s1) :
    Within (parts (.threadTimerMatch t tid)) s s1 :=
  within_of_ch (execThreadTimerMatch_within t tid s (Ch.refl _ s) (evOk rfl) rfl rfl rfl rfl rfl rfl rfl rfl hx)

theorem parts_engineFault (t : Instant) (e : EngineId) (pc : W32) (s s1 : State)
    (hx : execEngineFault t e pc s = .next s1) :
    Within (parts (.engineFault t e pc)) s s1 :=
  within_of_ch (execEngineFault_within t e pc s (Ch.refl _ s) (evOk rfl) rfl rfl rfl rfl rfl rfl hx)

theorem parts_spillwayCommit (t : Instant) (s s1 : State) (hx : execSpillwayCommit t s = .next s1) :
    Within (parts (.spillwayCommit t)) s s1 :=
  within_of_ch (execSpillwayCommit_within t s (Ch.refl _ s) (evOk rfl) rfl rfl rfl rfl rfl rfl rfl rfl rfl hx)

theorem parts_spillwayExpiry (t : Instant) (i : Fin 256) (s s1 : State) (hx : execSpillwayExpiry t i s = .next s1) :
    Within (parts (.spillwayExpiry t i)) s s1 :=
  within_of_ch (execSpillwayExpiry_within t i s (Ch.refl _ s) (evOk rfl) rfl rfl rfl rfl rfl rfl rfl rfl hx)

theorem parts_add (tid : Tid) (o : ROps) (s s1 : State) (hx : execAdd tid o s = .next s1) :
    Within (parts (.add tid o)) s s1 :=
  within_of_ch (execAdd_within tid o s (Ch.refl _ s) (rsOk rfl) hx)

theorem parts_sub (tid : Tid) (o : ROps) (s s1 : State) (hx : execSub tid o s = .next s1) :
    Within (parts (.sub tid o)) s s1 :=
  within_of_ch (execSub_within tid o s (Ch.refl _ s) (rsOk rfl) hx)

theorem parts_and (tid : Tid) (o : ROps) (s s1 : State) (hx : execAnd tid o s = .next s1) :
    Within (parts (.and tid o)) s s1 :=
  within_of_ch (execAnd_within tid o s (Ch.refl _ s) (rsOk rfl) hx)

theorem parts_or (tid : Tid) (o : ROps) (s s1 : State) (hx : execOr tid o s = .next s1) :
    Within (parts (.or tid o)) s s1 :=
  within_of_ch (execOr_within tid o s (Ch.refl _ s) (rsOk rfl) hx)

theorem parts_xor (tid : Tid) (o : ROps) (s s1 : State) (hx : execXor tid o s = .next s1) :
    Within (parts (.xor tid o)) s s1 :=
  within_of_ch (execXor_within tid o s (Ch.refl _ s) (rsOk rfl) hx)

theorem parts_shl (tid : Tid) (o : ROps) (s s1 : State) (hx : execShl tid o s = .next s1) :
    Within (parts (.shl tid o)) s s1 :=
  within_of_ch (execShl_within tid o s (Ch.refl _ s) (rsOk rfl) hx)

theorem parts_shr (tid : Tid) (o : ROps) (s s1 : State) (hx : execShr tid o s = .next s1) :
    Within (parts (.shr tid o)) s s1 :=
  within_of_ch (execShr_within tid o s (Ch.refl _ s) (rsOk rfl) hx)

theorem parts_sar (tid : Tid) (o : ROps) (s s1 : State) (hx : execSar tid o s = .next s1) :
    Within (parts (.sar tid o)) s s1 :=
  within_of_ch (execSar_within tid o s (Ch.refl _ s) (rsOk rfl) hx)

theorem parts_min (tid : Tid) (o : ROps) (s s1 : State) (hx : execMin tid o s = .next s1) :
    Within (parts (.min tid o)) s s1 :=
  within_of_ch (execMin_within tid o s (Ch.refl _ s) (rsOk rfl) hx)

theorem parts_max (tid : Tid) (o : ROps) (s s1 : State) (hx : execMax tid o s = .next s1) :
    Within (parts (.max tid o)) s s1 :=
  within_of_ch (execMax_within tid o s (Ch.refl _ s) (rsOk rfl) hx)

theorem parts_cmp (tid : Tid) (o : ROps) (s s1 : State) (hx : execCmp tid o s = .next s1) :
    Within (parts (.cmp tid o)) s s1 :=
  within_of_ch (execCmp_within tid o s (Ch.refl _ s) (rsOk rfl) hx)

theorem parts_tadd (tid : Tid) (o : ROps) (s s1 : State) (hx : execTadd tid o s = .next s1) :
    Within (parts (.tadd tid o)) s s1 :=
  within_of_ch (execTadd_within tid o s (Ch.refl _ s) (rsOk rfl) hx)

theorem parts_tsub (tid : Tid) (o : ROps) (s s1 : State) (hx : execTsub tid o s = .next s1) :
    Within (parts (.tsub tid o)) s s1 :=
  within_of_ch (execTsub_within tid o s (Ch.refl _ s) (rsOk rfl) hx)

theorem parts_mul (tid : Tid) (o : ROps) (s s1 : State) (hx : execMul tid o s = .next s1) :
    Within (parts (.mul tid o)) s s1 :=
  within_of_ch (execMul_within tid o s (Ch.refl _ s) (rsOk rfl) hx)

theorem parts_divu (tid : Tid) (o : ROps) (s s1 : State) (hx : execDivu tid o s = .next s1) :
    Within (parts (.divu tid o)) s s1 :=
  within_of_ch (execDivu_within tid o s (Ch.refl _ s) (rsOk rfl) hx)

theorem parts_remu (tid : Tid) (o : ROps) (s s1 : State) (hx : execRemu tid o s = .next s1) :
    Within (parts (.remu tid o)) s s1 :=
  within_of_ch (execRemu_within tid o s (Ch.refl _ s) (rsOk rfl) hx)

theorem parts_addi (tid : Tid) (o : IOps) (s s1 : State) (hx : execAddi tid o s = .next s1) :
    Within (parts (.addi tid o)) s s1 :=
  within_of_ch (execAddi_within tid o s (Ch.refl _ s) (rsOk rfl) hx)

theorem parts_andi (tid : Tid) (o : IOps) (s s1 : State) (hx : execAndi tid o s = .next s1) :
    Within (parts (.andi tid o)) s s1 :=
  within_of_ch (execAndi_within tid o s (Ch.refl _ s) (rsOk rfl) hx)

theorem parts_ori (tid : Tid) (o : IOps) (s s1 : State) (hx : execOri tid o s = .next s1) :
    Within (parts (.ori tid o)) s s1 :=
  within_of_ch (execOri_within tid o s (Ch.refl _ s) (rsOk rfl) hx)

theorem parts_xori (tid : Tid) (o : IOps) (s s1 : State) (hx : execXori tid o s = .next s1) :
    Within (parts (.xori tid o)) s s1 :=
  within_of_ch (execXori_within tid o s (Ch.refl _ s) (rsOk rfl) hx)

theorem parts_shli (tid : Tid) (o : IOps) (s s1 : State) (hx : execShli tid o s = .next s1) :
    Within (parts (.shli tid o)) s s1 :=
  within_of_ch (execShli_within tid o s (Ch.refl _ s) (rsOk rfl) hx)

theorem parts_shri (tid : Tid) (o : IOps) (s s1 : State) (hx : execShri tid o s = .next s1) :
    Within (parts (.shri tid o)) s s1 :=
  within_of_ch (execShri_within tid o s (Ch.refl _ s) (rsOk rfl) hx)

theorem parts_sari (tid : Tid) (o : IOps) (s s1 : State) (hx : execSari tid o s = .next s1) :
    Within (parts (.sari tid o)) s s1 :=
  within_of_ch (execSari_within tid o s (Ch.refl _ s) (rsOk rfl) hx)

theorem parts_cmpi (tid : Tid) (o : IOps) (s s1 : State) (hx : execCmpi tid o s = .next s1) :
    Within (parts (.cmpi tid o)) s s1 :=
  within_of_ch (execCmpi_within tid o s (Ch.refl _ s) (rsOk rfl) hx)

theorem parts_movi (tid : Tid) (o : IOps) (s s1 : State) (hx : execMovi tid o s = .next s1) :
    Within (parts (.movi tid o)) s s1 :=
  within_of_ch (execMovi_within tid o s (Ch.refl _ s) (rsOk rfl) hx)

theorem parts_ldw (tid : Tid) (o : IOps) (s s1 : State) (hx : execLdw tid o s = .next s1) :
    Within (parts (.ldw tid o)) s s1 :=
  within_of_ch (execLdw_within tid o s (Ch.refl _ s) (rsOk rfl) hx)

theorem parts_ldd (tid : Tid) (o : IOps) (s s1 : State) (hx : execLdd tid o s = .next s1) :
    Within (parts (.ldd tid o)) s s1 :=
  within_of_ch (execLdd_within tid o s (Ch.refl _ s) (rsOk rfl) hx)

theorem parts_stw (tid : Tid) (o : IOps) (s s1 : State) (hx : execStw tid o s = .next s1) :
    Within (parts (.stw tid o)) s s1 :=
  within_of_ch (execStw_within tid o s (Ch.refl _ s) (rsOk rfl) hx)

theorem parts_std (tid : Tid) (o : IOps) (s s1 : State) (hx : execStd tid o s = .next s1) :
    Within (parts (.std tid o)) s s1 :=
  within_of_ch (execStd_within tid o s (Ch.refl _ s) (rsOk rfl) hx)

theorem parts_fadd (tid : Tid) (o : ROps) (s s1 : State) (hx : execFadd tid o s = .next s1) :
    Within (parts (.fadd tid o)) s s1 :=
  within_of_ch (execFadd_within tid o s (Ch.refl _ s) (rsOk rfl) hx)

theorem parts_swap (tid : Tid) (o : ROps) (s s1 : State) (hx : execSwap tid o s = .next s1) :
    Within (parts (.swap tid o)) s s1 :=
  within_of_ch (execSwap_within tid o s (Ch.refl _ s) (rsOk rfl) hx)

theorem parts_bcond (tid : Tid) (o : BOps) (s s1 : State) (hx : execBcond tid o s = .next s1) :
    Within (parts (.bcond tid o)) s s1 :=
  within_of_ch (execBcond_within tid o s (Ch.refl _ s) (rsOk rfl) hx)

theorem parts_call (tid : Tid) (o : JOps) (s s1 : State) (hx : execCall tid o s = .next s1) :
    Within (parts (.call tid o)) s s1 :=
  within_of_ch (execCall_within tid o s (Ch.refl _ s) (rsOk rfl) hx)

theorem parts_jr (tid : Tid) (o : ROps) (s s1 : State) (hx : execJr tid o s = .next s1) :
    Within (parts (.jr tid o)) s s1 :=
  within_of_ch (execJr_within tid o s (Ch.refl _ s) (rsOk rfl) hx)

theorem parts_wait (tid : Tid) (o : SOps) (s s1 : State) (hx : execWait tid o s = .next s1) :
    Within (parts (.wait tid o)) s s1 :=
  within_of_ch (execWait_within tid o s (Ch.refl _ s) (rsOk rfl) hx)

theorem parts_lsn (tid : Tid) (o : SOps) (s s1 : State) (hx : execLsn tid o s = .next s1) :
    Within (parts (.lsn tid o)) s s1 :=
  within_of_ch (execLsn_within tid o s (Ch.refl _ s) (rsOk rfl) hx)

theorem parts_ulsn (tid : Tid) (o : SOps) (s s1 : State) (hx : execUlsn tid o s = .next s1) :
    Within (parts (.ulsn tid o)) s s1 :=
  within_of_ch (execUlsn_within tid o s (Ch.refl _ s) (rsOk rfl) hx)

theorem parts_timer (tid : Tid) (o : SOps) (s s1 : State) (hx : execTimer tid o s = .next s1) :
    Within (parts (.timer tid o)) s s1 :=
  within_of_ch (execTimer_within tid o s (Ch.refl _ s) (rsOk rfl) hx)

theorem parts_timerx (tid : Tid) (o : SOps) (s s1 : State) (hx : execTimerx tid o s = .next s1) :
    Within (parts (.timerx tid o)) s s1 :=
  within_of_ch (execTimerx_within tid o s (Ch.refl _ s) (rsOk rfl) hx)

theorem parts_now (tid : Tid) (o : SOps) (s s1 : State) (hx : execNow tid o s = .next s1) :
    Within (parts (.now tid o)) s s1 :=
  within_of_ch (execNow_within tid o s (Ch.refl _ s) (rsOk rfl) hx)

theorem parts_sig (tid : Tid) (o : SOps) (s s1 : State) (hx : execSig tid o s = .next s1) :
    Within (parts (.sig tid o)) s s1 :=
  within_of_ch (execSig_within tid o s (Ch.refl _ s) (rsOk rfl) hx)

theorem parts_dbf (tid : Tid) (o : SOps) (s s1 : State) (hx : execDbf tid o s = .next s1) :
    Within (parts (.dbf tid o)) s s1 :=
  within_of_ch (execDbf_within tid o s (Ch.refl _ s) (rsOk rfl) hx)

theorem parts_attn (tid : Tid) (o : SOps) (s s1 : State) (hx : execAttn tid o s = .next s1) :
    Within (parts (.attn tid o)) s s1 :=
  within_of_ch (execAttn_within tid o s (Ch.refl _ s) (rsOk rfl) hx)

theorem parts_mfs (tid : Tid) (o : SOps) (s s1 : State) (hx : execMfs tid o s = .next s1) :
    Within (parts (.mfs tid o)) s s1 :=
  within_of_ch (execMfs_within tid o s (Ch.refl _ s) (rsOk rfl) hx)

theorem parts_trap (tid : Tid) (o : SOps) (s s1 : State) (hx : execTrap tid o s = .next s1) :
    Within (parts (.trap tid o)) s s1 :=
  within_of_ch (execTrap_within tid o s (Ch.refl _ s) (rsOk rfl) hx)

theorem parts_carm (tid : Tid) (o : SOps) (s s1 : State) (hx : execCarm tid o s = .next s1) :
    Within (parts (.carm tid o)) s s1 :=
  within_of_ch (execCarm_within tid o s (Ch.refl _ s) (rsOk rfl) hx)

theorem parts_cshd (tid : Tid) (o : SOps) (s s1 : State) (hx : execCshd tid o s = .next s1) :
    Within (parts (.cshd tid o)) s s1 :=
  within_of_ch (execCshd_within tid o s (Ch.refl _ s) (rsOk rfl) hx)

theorem parts_cdis (tid : Tid) (o : SOps) (s s1 : State) (hx : execCdis tid o s = .next s1) :
    Within (parts (.cdis tid o)) s s1 :=
  within_of_ch (execCdis_within tid o s (Ch.refl _ s) (rsOk rfl) hx)

theorem parts_cfrc (tid : Tid) (o : SOps) (s s1 : State) (hx : execCfrc tid o s = .next s1) :
    Within (parts (.cfrc tid o)) s s1 :=
  within_of_ch (execCfrc_within tid o s (Ch.refl _ s) (rsOk rfl) hx)

theorem parts_clock (tid : Tid) (o : SOps) (s s1 : State) (hx : execClock tid o s = .next s1) :
    Within (parts (.clock tid o)) s s1 :=
  within_of_ch (execClock_within tid o s (Ch.refl _ s) (rsOk rfl) hx)

theorem parts_ccap (tid : Tid) (o : SOps) (s s1 : State) (hx : execCcap tid o s = .next s1) :
    Within (parts (.ccap tid o)) s s1 :=
  within_of_ch (execCcap_within tid o s (Ch.refl _ s) (rsOk rfl) hx)

theorem parts_hact (tid : Tid) (o : SOps) (s s1 : State) (hx : execHact tid o s = .next s1) :
    Within (parts (.hact tid o)) s s1 :=
  within_of_ch (execHact_within tid o s (Ch.refl _ s) (rsOk rfl) hx)

theorem parts_bpost (tid : Tid) (o : SOps) (s s1 : State) (hx : execBpost tid o s = .next s1) :
    Within (parts (.bpost tid o)) s s1 :=
  within_of_ch (execBpost_within tid o s (Ch.refl _ s) (rsOk rfl) hx)

theorem parts_bread (tid : Tid) (o : SOps) (s s1 : State) (hx : execBread tid o s = .next s1) :
    Within (parts (.bread tid o)) s s1 :=
  within_of_ch (execBread_within tid o s (Ch.refl _ s) (rsOk rfl) hx)

theorem parts_back (tid : Tid) (o : SOps) (s s1 : State) (hx : execBack tid o s = .next s1) :
    Within (parts (.back tid o)) s s1 :=
  within_of_ch (execBack_within tid o s (Ch.refl _ s) (rsOk rfl) hx)

theorem parts_spw (tid : Tid) (o : SOps) (s s1 : State) (hx : execSpw tid o s = .next s1) :
    Within (parts (.spw tid o)) s s1 :=
  within_of_ch (execSpw_within tid o s (Ch.refl _ s) (rsOk rfl) hx)

theorem parts_spc (tid : Tid) (o : SOps) (s s1 : State) (hx : execSpc tid o s = .next s1) :
    Within (parts (.spc tid o)) s s1 :=
  within_of_ch (execSpc_within tid o s (Ch.refl _ s) (rsOk rfl) hx)

theorem parts_spx (tid : Tid) (o : SOps) (s s1 : State) (hx : execSpx tid o s = .next s1) :
    Within (parts (.spx tid o)) s s1 :=
  within_of_ch (execSpx_within tid o s (Ch.refl _ s) (rsOk rfl) hx)

theorem parts_aconv (tid : Tid) (o : SOps) (s s1 : State) (hx : execAconv tid o s = .next s1) :
    Within (parts (.aconv tid o)) s s1 :=
  within_of_ch (execAconv_within tid o s (Ch.refl _ s) (rsOk rfl) hx)

theorem parts_tper (tid : Tid) (o : SOps) (s s1 : State) (hx : execTper tid o s = .next s1) :
    Within (parts (.tper tid o)) s s1 :=
  within_of_ch (execTper_within tid o s (Ch.refl _ s) (rsOk rfl) hx)

theorem parts_tlast (tid : Tid) (o : SOps) (s s1 : State) (hx : execTlast tid o s = .next s1) :
    Within (parts (.tlast tid o)) s s1 :=
  within_of_ch (execTlast_within tid o s (Ch.refl _ s) (rsOk rfl) hx)

theorem parts_harnessCommit (h : HarnessId) (s s1 : State) (hx : execHarnessCommit h s = .next s1) :
    Within (parts (.harnessCommit h)) s s1 :=
  within_of_ch (execHarnessCommit_within h s (Ch.refl _ s) (evOk rfl) rfl rfl rfl rfl hx)

theorem parts_harnessSafe (h : HarnessId) (s s1 : State) (hx : execHarnessSafe h s = .next s1) :
    Within (parts (.harnessSafe h)) s s1 :=
  within_of_ch (execHarnessSafe_within h s (Ch.refl _ s) (evOk rfl) rfl rfl rfl rfl hx)

theorem parts_harnessResume (h : HarnessId) (s s1 : State) (hx : execHarnessResume h s = .next s1) :
    Within (parts (.harnessResume h)) s s1 :=
  within_of_ch (execHarnessResume_within h s (Ch.refl _ s) (evOk rfl) rfl rfl rfl rfl hx)

theorem parts_harnessPhase (h : HarnessId) (phases : BitVec 9) (s s1 : State)
    (hx : execHarnessPhase h phases s = .next s1) :
    Within (parts (.harnessPhase h phases)) s s1 :=
  within_of_ch (execHarnessPhase_within h phases s (Ch.refl _ s) (evOk rfl) rfl rfl rfl rfl hx)

theorem parts_harnessLevels (h : HarnessId) (levels : BitVec 28) (s s1 : State)
    (hx : execHarnessLevels h levels s = .next s1) :
    Within (parts (.harnessLevels h levels)) s s1 :=
  within_of_ch (execHarnessLevels_within h levels s (Ch.refl _ s) (evOk rfl) rfl rfl rfl rfl hx)

theorem parts_timedActionApply (t : Instant) (h : HarnessId) (s s1 : State)
    (hx : execTimedActionApply t h s = .next s1) :
    Within (parts (.timedActionApply t h)) s s1 :=
  within_of_ch (execTimedActionApply_within t h s (Ch.refl _ s) (evOk rfl) rfl rfl rfl rfl rfl rfl hx)

theorem parts_peakEnd (t : Instant) (h : HarnessId) (m : Fin 4) (sense : Byte) (s s1 : State)
    (hx : execPeakEnd t h m sense s = .next s1) :
    Within (parts (.peakEnd t h m sense)) s s1 :=
  within_of_ch (execPeakEnd_within t h m sense s (Ch.refl _ s) rfl rfl rfl rfl hx)

theorem parts_peakTimeout (t : Instant) (h : HarnessId) (m : Fin 4) (sense : Byte) (s s1 : State)
    (hx : execPeakTimeout t h m sense s = .next s1) :
    Within (parts (.peakTimeout t h m sense)) s s1 :=
  within_of_ch (execPeakTimeout_within t h m sense s (Ch.refl _ s) (evOk rfl) rfl rfl rfl rfl rfl rfl hx)

theorem parts_holdSwitchOff (t : Instant) (h : HarnessId) (m : Fin 4) (sense : Byte) (s s1 : State)
    (hx : execHoldSwitchOff t h m sense s = .next s1) :
    Within (parts (.holdSwitchOff t h m sense)) s s1 :=
  within_of_ch (execHoldSwitchOff_within t h m sense s (Ch.refl _ s) rfl rfl rfl rfl hx)

theorem parts_holdSwitchOn (t : Instant) (h : HarnessId) (m : Fin 4) (sense : Byte) (s s1 : State)
    (hx : execHoldSwitchOn t h m sense s = .next s1) :
    Within (parts (.holdSwitchOn t h m sense)) s s1 :=
  within_of_ch (execHoldSwitchOn_within t h m sense s (Ch.refl _ s) rfl rfl rfl rfl hx)

theorem parts_regulationHandover (t : Instant) (h : HarnessId) (s s1 : State)
    (hx : execRegulationHandover t h s = .next s1) :
    Within (parts (.regulationHandover t h)) s s1 :=
  within_of_ch (execRegulationHandover_within t h s (Ch.refl _ s) rfl rfl rfl rfl hx)

theorem parts_deferCancel (t : Instant) (h : HarnessId) (m : Fin 4) (s s1 : State)
    (hx : execDeferCancel t h m s = .next s1) :
    Within (parts (.deferCancel t h m)) s s1 :=
  within_of_ch (execDeferCancel_within t h m s (Ch.refl _ s) (evOk rfl) rfl rfl hx)

theorem parts_bankDeferReport (h : HarnessId) (m : Fin 4) (start : EvTime) (cycles : BitVec 24) (s s1 : State)
    (hx : execBankDeferReport h m start cycles s = .next s1) :
    Within (parts (.bankDeferReport h m start cycles)) s s1 :=
  within_of_ch (execBankDeferReport_within h m start cycles s (Ch.refl _ s) (evOk rfl) rfl hx)

theorem parts_deadtimeEnd (t : Instant) (h : HarnessId) (phase : Fin 3) (s s1 : State)
    (hx : execDeadtimeEnd t h phase s = .next s1) :
    Within (parts (.deadtimeEnd t h phase)) s s1 :=
  within_of_ch (execDeadtimeEnd_within t h phase s (Ch.refl _ s) rfl rfl hx)

theorem parts_powerFaultCut (t : Instant) (h : HarnessId) (code : Byte) (member : Byte) (sense : BitVec 10) (mv : W16)
    (s s1 : State) (hx : execPowerFaultCut t h code member sense mv s = .next s1) :
    Within (parts (.powerFaultCut t h code member sense mv)) s s1 :=
  within_of_ch (execPowerFaultCut_within t h code member sense mv s (Ch.refl _ s) rfl rfl rfl hx)

theorem parts_linkSilence (s s1 : State) (hx : execLinkSilence s = .next s1) :
    Within (parts (.linkSilence)) s s1 :=
  within_of_ch (execLinkSilence_within s (Ch.refl _ s) rfl rfl hx)

theorem parts_chargePumpReady (t : Instant) (s s1 : State) (hx : execChargePumpReady t s = .next s1) :
    Within (parts (.chargePumpReady t)) s s1 :=
  within_of_ch (execChargePumpReady_within t s (Ch.refl _ s) (evOk rfl) rfl rfl rfl rfl rfl rfl hx)

theorem parts_chargePumpTimeout (t : Instant) (mv : W32) (s s1 : State)
    (hx : execChargePumpTimeout t mv s = .next s1) :
    Within (parts (.chargePumpTimeout t mv)) s s1 :=
  within_of_ch (execChargePumpTimeout_within t mv s (Ch.refl _ s) (evOk rfl) rfl rfl rfl hx)

theorem parts_cpUndervoltage (t : Instant) (s s1 : State) (hx : execCpUndervoltage t s = .next s1) :
    Within (parts (.cpUndervoltage t)) s s1 :=
  within_of_ch (execCpUndervoltage_within t s (Ch.refl _ s) (evOk rfl) rfl rfl rfl rfl rfl rfl hx)

theorem parts_catchWindowEnd (t : Instant) (h : HarnessId) (s s1 : State) (hx : execCatchWindowEnd t h s = .next s1) :
    Within (parts (.catchWindowEnd t h)) s s1 :=
  within_of_ch (execCatchWindowEnd_within t h s (Ch.refl _ s) (evOk rfl) rfl rfl rfl rfl rfl rfl rfl hx)

theorem parts_alignEnd (t : Instant) (h : HarnessId) (s s1 : State) (hx : execAlignEnd t h s = .next s1) :
    Within (parts (.alignEnd t h)) s s1 :=
  within_of_ch (execAlignEnd_within t h s (Ch.refl _ s) (evOk rfl) rfl rfl rfl rfl rfl rfl rfl hx)

theorem parts_noSyncTimeout (t : Instant) (h : HarnessId) (s s1 : State) (hx : execNoSyncTimeout t h s = .next s1) :
    Within (parts (.noSyncTimeout t h)) s s1 :=
  within_of_ch (execNoSyncTimeout_within t h s (Ch.refl _ s) (evOk rfl) rfl rfl rfl rfl rfl rfl hx)

theorem parts_commutationBlankingEnd (t : Instant) (h : HarnessId) (s s1 : State)
    (hx : execCommutationBlankingEnd t h s = .next s1) :
    Within (parts (.commutationBlankingEnd t h)) s s1 :=
  within_of_ch (execCommutationBlankingEnd_within t h s (Ch.refl _ s) rfl rfl rfl rfl rfl hx)

theorem parts_brakePeek (t : Instant) (h : HarnessId) (s s1 : State) (hx : execBrakePeek t h s = .next s1) :
    Within (parts (.brakePeek t h)) s s1 :=
  within_of_ch (execBrakePeek_within t h s (Ch.refl _ s) (evOk rfl) rfl rfl rfl rfl rfl rfl rfl hx)

theorem parts_brakeTimeout (t : Instant) (h : HarnessId) (s s1 : State) (hx : execBrakeTimeout t h s = .next s1) :
    Within (parts (.brakeTimeout t h)) s s1 :=
  within_of_ch (execBrakeTimeout_within t h s (Ch.refl _ s) (evOk rfl) rfl rfl rfl rfl rfl rfl hx)

theorem parts_axisStepCounted (t : Instant) (h : HarnessId) (s s1 : State)
    (hx : execAxisStepCounted t h s = .next s1) :
    Within (parts (.axisStepCounted t h)) s s1 :=
  within_of_ch (execAxisStepCounted_within t h s (Ch.refl _ s) (evOk rfl) rfl rfl rfl rfl rfl rfl rfl hx)

theorem parts_gaitEdge (n : Fin 2) (s s1 : State) (hx : execGaitEdge n s = .next s1) :
    Within (parts (.gaitEdge n)) s s1 :=
  within_of_ch (execGaitEdge_within n s (Ch.refl _ s) (evOk rfl) rfl rfl rfl rfl rfl rfl rfl rfl rfl hx)

theorem parts_gaitDeadline (t : Instant) (n : Fin 2) (s s1 : State) (hx : execGaitDeadline t n s = .next s1) :
    Within (parts (.gaitDeadline t n)) s s1 :=
  within_of_ch (execGaitDeadline_within t n s (Ch.refl _ s) (evOk rfl) rfl rfl rfl rfl rfl rfl rfl rfl rfl hx)

theorem parts_gaitStall (t : Instant) (n : Fin 2) (s s1 : State) (hx : execGaitStall t n s = .next s1) :
    Within (parts (.gaitStall t n)) s s1 :=
  within_of_ch (execGaitStall_within t n s (Ch.refl _ s) (evOk rfl) rfl rfl rfl rfl rfl hx)

theorem parts_probeStart (c : Fin 2) (s s1 : State) (hx : execProbeStart c s = .next s1) :
    Within (parts (.probeStart c)) s s1 :=
  within_of_ch (execProbeStart_within c s (Ch.refl _ s) rfl rfl rfl hx)

theorem parts_chargeDone (t : Instant) (c : Fin 2) (s s1 : State) (hx : execChargeDone t c s = .next s1) :
    Within (parts (.chargeDone t c)) s s1 :=
  within_of_ch (execChargeDone_within t c s (Ch.refl _ s) rfl rfl hx)

theorem parts_dischargeTrip (t : Instant) (c : Fin 2) (s s1 : State) (hx : execDischargeTrip t c s = .next s1) :
    Within (parts (.dischargeTrip t c)) s s1 :=
  within_of_ch (execDischargeTrip_within t c s (Ch.refl _ s) (evOk rfl) rfl rfl rfl rfl rfl hx)

theorem parts_dischargeTimeout (t : Instant) (c : Fin 2) (s s1 : State) (hx : execDischargeTimeout t c s = .next s1) :
    Within (parts (.dischargeTimeout t c)) s s1 :=
  within_of_ch (execDischargeTimeout_within t c s (Ch.refl _ s) (evOk rfl) rfl rfl rfl rfl rfl hx)

theorem parts_probeSlotComplete (p : Fin 16) (s s1 : State) (hx : execProbeSlotComplete p s = .next s1) :
    Within (parts (.probeSlotComplete p)) s s1 :=
  within_of_ch (execProbeSlotComplete_within p s (Ch.refl _ s) rfl rfl rfl rfl rfl rfl rfl rfl hx)

theorem parts_measIntervalBoundary (t : Instant) (s s1 : State) (hx : execMeasIntervalBoundary t s = .next s1) :
    Within (parts (.measIntervalBoundary t)) s s1 :=
  within_of_ch (execMeasIntervalBoundary_within t s (Ch.refl _ s) rfl rfl rfl rfl hx)

theorem parts_decommissionErase (s s1 : State) (hx : execDecommissionErase s = .next s1) :
    Within (parts (.decommissionErase)) s s1 :=
  within_of_ch (execDecommissionErase_within s (Ch.refl _ s) rfl rfl rfl hx)

theorem parts_statusFrame (sdi : List Byte) (bad : Bool) (s s1 : State) (hx : execStatusFrame sdi bad s = .next s1) :
    Within (parts (.statusFrame sdi bad)) s s1 :=
  within_of_ch (execStatusFrame_within sdi bad s (Ch.refl _ s) (rsOk rfl) hx)

theorem parts_statusPeek (sdi : List Byte) (s s1 : State) (hx : execStatusPeek sdi s = .next s1) :
    Within (parts (.statusPeek sdi)) s s1 :=
  within_of_ch (execStatusPeek_within sdi s (Ch.refl _ s) (rsOk rfl) hx)

theorem parts_readFrame (sdi : List Byte) (bad : Bool) (s s1 : State) (hx : execReadFrame sdi bad s = .next s1) :
    Within (parts (.readFrame sdi bad)) s s1 :=
  within_of_ch (execReadFrame_within sdi bad s (Ch.refl _ s) (rsOk rfl) hx)

theorem parts_writeFrame (sdi : List Byte) (bad : Bool) (s s1 : State) (hx : execWriteFrame sdi bad s = .next s1) :
    Within (parts (.writeFrame sdi bad)) s s1 :=
  within_of_ch (execWriteFrame_within sdi bad s (Ch.refl _ s) (rsOk rfl) hx)

theorem parts_writeApply (s s1 : State) (hx : execWriteApply s = .next s1) :
    Within (parts (.writeApply)) s s1 :=
  within_of_ch (execWriteApply_within s (Ch.refl _ s) (rsOk rfl) hx)

theorem parts_claimFrame (sdi : List Byte) (bad : Bool) (s s1 : State) (hx : execClaimFrame sdi bad s = .next s1) :
    Within (parts (.claimFrame sdi bad)) s s1 :=
  within_of_ch (execClaimFrame_within sdi bad s (Ch.refl _ s) (rsOk rfl) hx)

theorem parts_completeFrame (sdi : List Byte) (bad : Bool) (s s1 : State)
    (hx : execCompleteFrame sdi bad s = .next s1) :
    Within (parts (.completeFrame sdi bad)) s s1 :=
  within_of_ch (execCompleteFrame_within sdi bad s (Ch.refl _ s) (rsOk rfl) hx)

theorem parts_doorbellFrame (sdi : List Byte) (bad : Bool) (s s1 : State)
    (hx : execDoorbellFrame sdi bad s = .next s1) :
    Within (parts (.doorbellFrame sdi bad)) s s1 :=
  within_of_ch (execDoorbellFrame_within sdi bad s (Ch.refl _ s) (rsOk rfl) hx)

theorem parts_replyRelease (mask : Byte) (s s1 : State) (hx : execReplyRelease mask s = .next s1) :
    Within (parts (.replyRelease mask)) s s1 :=
  within_of_ch (execReplyRelease_within mask s (Ch.refl _ s) (rsOk rfl) hx)

theorem parts_farrierTakeRequest (s s1 : State) (hx : execFarrierTakeRequest s = .next s1) :
    Within (parts (.farrierTakeRequest)) s s1 :=
  within_of_ch (execFarrierTakeRequest_within s (Ch.refl _ s) (rsOk rfl) rfl hx)

theorem parts_hostWatchdogExpiry (t : Instant) (s s1 : State) (hx : execHostWatchdogExpiry t s = .next s1) :
    Within (parts (.hostWatchdogExpiry t)) s s1 :=
  within_of_ch (execHostWatchdogExpiry_within t s (Ch.refl _ s) (evOk rfl) rfl rfl rfl rfl rfl rfl hx)

theorem parts_hwdToWrite (v : W32) (s s1 : State) (hx : execHwdToWrite v s = .next s1) :
    Within (parts (.hwdToWrite v)) s s1 :=
  within_of_ch (execHwdToWrite_within v s (Ch.refl _ s) rfl hx)

theorem parts_hostLostClear (s s1 : State) (hx : execHostLostClear s = .next s1) :
    Within (parts (.hostLostClear)) s s1 :=
  within_of_ch (execHostLostClear_within s (Ch.refl _ s) rfl hx)

theorem parts_muster (t : Instant) (s s1 : State) (hx : execMuster t s = .next s1) :
    Within (parts (.muster t)) s s1 :=
  within_of_ch (execMuster_within t s (Ch.refl _ s) (evOk rfl) rfl rfl rfl rfl rfl rfl rfl rfl rfl rfl rfl rfl rfl rfl rfl rfl rfl hx)

theorem parts_nop (q : Req) (s s1 : State) (hx : execNop q s = .next s1) :
    Within (parts (.nop q)) s s1 :=
  within_of_ch (execNop_within q s (Ch.refl _ s) (evOk rfl) rfl hx)

theorem parts_identity (q : Req) (s s1 : State) (hx : execIdentity q s = .next s1) :
    Within (parts (.identity q)) s s1 :=
  within_of_ch (execIdentity_within q s (Ch.refl _ s) (evOk rfl) rfl hx)

theorem parts_state (q : Req) (s s1 : State) (hx : execState q s = .next s1) :
    Within (parts (.state q)) s s1 :=
  within_of_ch (execState_within q s (Ch.refl _ s) (evOk rfl) rfl hx)

theorem parts_sleep (q : Req) (st : Byte) (flags : Byte) (mask : W16) (park : W32) (s s1 : State)
    (hx : execSleep q st flags mask park s = .next s1) :
    Within (parts (.sleep q st flags mask park)) s s1 :=
  within_of_ch (execSleep_within q st flags mask park s (Ch.refl _ s) (evOk rfl) rfl rfl rfl rfl rfl rfl rfl rfl rfl rfl rfl rfl rfl rfl hx)

theorem parts_reset (q : Req) (word : W16) (s s1 : State) (hx : execReset q word s = .next s1) :
    Within (parts (.reset q word)) s s1 :=
  within_of_ch (execReset_within q word s (Ch.refl _ s) (evOk rfl) rfl hx)

theorem parts_resetReplyTimeout (t : Instant) (s s1 : State) (hx : execResetReplyTimeout t s = .next s1) :
    Within (parts (.resetReplyTimeout t)) s s1 :=
  within_of_ch (execResetReplyTimeout_within t s (Ch.refl _ s) (rsOk rfl) hx)

theorem parts_causeClear (q : Req) (bits : Byte) (s s1 : State) (hx : execCauseClear q bits s = .next s1) :
    Within (parts (.causeClear q bits)) s s1 :=
  within_of_ch (execCauseClear_within q bits s (Ch.refl _ s) (evOk rfl) rfl rfl hx)

theorem parts_progMsg (q : Req) (max : Byte) (s s1 : State) (hx : execProgMsg q max s = .next s1) :
    Within (parts (.progMsg q max)) s s1 :=
  within_of_ch (execProgMsg_within q max s (Ch.refl _ s) (evOk rfl) rfl hx)

theorem parts_timeGet (q : Req) (s s1 : State) (hx : execTimeGet q s = .next s1) :
    Within (parts (.timeGet q)) s s1 :=
  within_of_ch (execTimeGet_within q s (Ch.refl _ s) (evOk rfl) rfl rfl hx)

theorem parts_spread (q : Req) (setting : Byte) (s s1 : State) (hx : execSpread q setting s = .next s1) :
    Within (parts (.spread q setting)) s s1 :=
  within_of_ch (execSpread_within q setting s (Ch.refl _ s) (evOk rfl) rfl rfl hx)

theorem parts_anchor (q : Req) (secs : W32) (ms : W16) (source : Byte) (reserved : Byte) (unc : W16) (s s1 : State)
    (hx : execAnchor q secs ms source reserved unc s = .next s1) :
    Within (parts (.anchor q secs ms source reserved unc)) s s1 :=
  within_of_ch (execAnchor_within q secs ms source reserved unc s (Ch.refl _ s) (evOk rfl) rfl rfl rfl rfl rfl hx)

theorem parts_drift (q : Req) (source : Byte) (reserved : BitVec 24) (ppm : W32) (s s1 : State)
    (hx : execDrift q source reserved ppm s = .next s1) :
    Within (parts (.drift q source reserved ppm)) s s1 :=
  within_of_ch (execDrift_within q source reserved ppm s (Ch.refl _ s) (evOk rfl) rfl rfl rfl rfl rfl rfl hx)

theorem parts_newEpoch (q : Req) (word : W16) (s s1 : State) (hx : execNewEpoch q word s = .next s1) :
    Within (parts (.newEpoch q word)) s s1 :=
  within_of_ch (execNewEpoch_within q word s (Ch.refl _ s) (evOk rfl) rfl rfl rfl rfl rfl hx)

theorem parts_chOpen (q : Req) (lch : Byte) (reserved : BitVec 24) (ctrl : W32) (act : W32) (prd : W32) (cnt : W32)
    (s s1 : State) (hx : execChOpen q lch reserved ctrl act prd cnt s = .next s1) :
    Within (parts (.chOpen q lch reserved ctrl act prd cnt)) s s1 :=
  within_of_ch (execChOpen_within q lch reserved ctrl act prd cnt s (Ch.refl _ s) (evOk rfl) rfl rfl rfl rfl hx)

theorem parts_chClose (q : Req) (lch : Byte) (s s1 : State) (hx : execChClose q lch s = .next s1) :
    Within (parts (.chClose q lch)) s s1 :=
  within_of_ch (execChClose_within q lch s (Ch.refl _ s) (evOk rfl) rfl rfl rfl rfl rfl hx)

theorem parts_chCfg (q : Req) (lch : Byte) (reserved : BitVec 24) (ctrl : W32) (act : W32) (s s1 : State)
    (hx : execChCfg q lch reserved ctrl act s = .next s1) :
    Within (parts (.chCfg q lch reserved ctrl act)) s s1 :=
  within_of_ch (execChCfg_within q lch reserved ctrl act s (Ch.refl _ s) (evOk rfl) rfl rfl hx)

theorem parts_chWrite (q : Req) (lch : Byte) (reg : Byte) (flags : Byte) (reserved : Byte) (value : EvTime)
    (s s1 : State) (hx : execChWrite q lch reg flags reserved value s = .next s1) :
    Within (parts (.chWrite q lch reg flags reserved value)) s s1 :=
  within_of_ch (execChWrite_within q lch reg flags reserved value s (Ch.refl _ s) (evOk rfl) rfl rfl rfl rfl rfl rfl hx)

theorem parts_chCtl (q : Req) (lch : Byte) (op : Byte) (s s1 : State) (hx : execChCtl q lch op s = .next s1) :
    Within (parts (.chCtl q lch op)) s s1 :=
  within_of_ch (execChCtl_within q lch op s (Ch.refl _ s) (evOk rfl) rfl rfl rfl rfl rfl hx)

theorem parts_chRead (q : Req) (lch : Byte) (flags : Byte) (s s1 : State) (hx : execChRead q lch flags s = .next s1) :
    Within (parts (.chRead q lch flags)) s s1 :=
  within_of_ch (execChRead_within q lch flags s (Ch.refl _ s) (evOk rfl) rfl rfl hx)

theorem parts_tioSet (q : Req) (pin : Byte) (outSel : Byte) (flags : Byte) (s s1 : State)
    (hx : execTioSet q pin outSel flags s = .next s1) :
    Within (parts (.tioSet q pin outSel flags)) s s1 :=
  within_of_ch (execTioSet_within q pin outSel flags s (Ch.refl _ s) (evOk rfl) rfl rfl rfl rfl hx)

theorem parts_hOpen
    (q : Req) (h : Byte) (kind : Byte) (hsd : Byte) (reserved : Byte) (mch : W32) (grp : W64) (mls : W16)
    (s s1 : State) (hx : execHOpen q h kind hsd reserved mch grp mls s = .next s1) :
    Within (parts (.hOpen q h kind hsd reserved mch grp mls)) s s1 :=
  within_of_ch (execHOpen_within q h kind hsd reserved mch grp mls s (Ch.refl _ s) (evOk rfl) rfl rfl rfl rfl rfl hx)

theorem parts_hClose (q : Req) (h : Byte) (s s1 : State) (hx : execHClose q h s = .next s1) :
    Within (parts (.hClose q h)) s s1 :=
  within_of_ch (execHClose_within q h s (Ch.refl _ s) (evOk rfl) rfl rfl rfl rfl rfl rfl hx)

theorem parts_hCfg (q : Req) (h : Byte) (sec : Byte) (reserved : W16) (w0 : W32) (w1 : W32) (w2 : W32) (s s1 : State)
    (hx : execHCfg q h sec reserved w0 w1 w2 s = .next s1) :
    Within (parts (.hCfg q h sec reserved w0 w1 w2)) s s1 :=
  within_of_ch (execHCfg_within q h sec reserved w0 w1 w2 s (Ch.refl _ s) (evOk rfl) rfl rfl rfl rfl rfl hx)

theorem parts_hAct (q : Req) (h : Byte) (reserved : BitVec 24) (word : W32) (s s1 : State)
    (hx : execHAct q h reserved word s = .next s1) :
    Within (parts (.hAct q h reserved word)) s s1 :=
  within_of_ch (execHAct_within q h reserved word s (Ch.refl _ s) (evOk rfl) rfl rfl rfl rfl rfl hx)

theorem parts_hStatus (q : Req) (h : Byte) (s s1 : State) (hx : execHStatus q h s = .next s1) :
    Within (parts (.hStatus q h)) s s1 :=
  within_of_ch (execHStatus_within q h s (Ch.refl _ s) (evOk rfl) rfl rfl hx)

theorem parts_hClear (q : Req) (h : Byte) (reserved : BitVec 24) (mask : W32) (s s1 : State)
    (hx : execHClear q h reserved mask s = .next s1) :
    Within (parts (.hClear q h reserved mask)) s s1 :=
  within_of_ch (execHClear_within q h reserved mask s (Ch.refl _ s) (evOk rfl) rfl rfl hx)

theorem parts_hRide (q : Req) (h : Byte) (v : Byte) (s s1 : State) (hx : execHRide q h v s = .next s1) :
    Within (parts (.hRide q h v)) s s1 :=
  within_of_ch (execHRide_within q h v s (Ch.refl _ s) (evOk rfl) rfl rfl hx)

theorem parts_progUpload (q : Req) (off : W32) (data : List Byte) (s s1 : State)
    (hx : execProgUpload q off data s = .next s1) :
    Within (parts (.progUpload q off data)) s s1 :=
  within_of_ch (execProgUpload_within q off data s (Ch.refl _ s) (evOk rfl) rfl hx)

theorem parts_progOpen
    (q : Req) (source : Byte) (res1 : BitVec 24) (off : W32) (chMask : W64) (hMask : W16) (res2 : W16) (bMask : W64)
    (s s1 : State) (hx : execProgOpen q source res1 off chMask hMask res2 bMask s = .next s1) :
    Within (parts (.progOpen q source res1 off chMask hMask res2 bMask)) s s1 :=
  within_of_ch (execProgOpen_within q source res1 off chMask hMask res2 bMask s (Ch.refl _ s) (evOk rfl) rfl rfl rfl rfl rfl rfl rfl hx)

theorem parts_progClose (q : Req) (p : Byte) (s s1 : State) (hx : execProgClose q p s = .next s1) :
    Within (parts (.progClose q p)) s s1 :=
  within_of_ch (execProgClose_within q p s (Ch.refl _ s) (evOk rfl) rfl rfl rfl rfl rfl rfl rfl rfl hx)

theorem parts_progDoorbell (q : Req) (p : Byte) (idx : Byte) (reserved : W16) (word : W32) (s s1 : State)
    (hx : execProgDoorbell q p idx reserved word s = .next s1) :
    Within (parts (.progDoorbell q p idx reserved word)) s s1 :=
  within_of_ch (execProgDoorbell_within q p idx reserved word s (Ch.refl _ s) (evOk rfl) rfl rfl rfl hx)

theorem parts_threadInfo (q : Req) (tid : Byte) (s s1 : State) (hx : execThreadInfo q tid s = .next s1) :
    Within (parts (.threadInfo q tid)) s s1 :=
  within_of_ch (execThreadInfo_within q tid s (Ch.refl _ s) (evOk rfl) rfl rfl hx)

theorem parts_headroom (q : Req) (v : W16) (s s1 : State) (hx : execHeadroom q v s = .next s1) :
    Within (parts (.headroom q v)) s s1 :=
  within_of_ch (execHeadroom_within q v s (Ch.refl _ s) (evOk rfl) rfl hx)

theorem parts_sdWrite (q : Req) (p : Byte) (reserved : Byte) (off : W16) (data : List Byte) (s s1 : State)
    (hx : execSdWrite q p reserved off data s = .next s1) :
    Within (parts (.sdWrite q p reserved off data)) s s1 :=
  within_of_ch (execSdWrite_within q p reserved off data s (Ch.refl _ s) (evOk rfl) rfl rfl hx)

theorem parts_sdRead (q : Req) (p : Byte) (reserved : Byte) (off : W16) (len : Byte) (s s1 : State)
    (hx : execSdRead q p reserved off len s = .next s1) :
    Within (parts (.sdRead q p reserved off len)) s s1 :=
  within_of_ch (execSdRead_within q p reserved off len s (Ch.refl _ s) (rsOk rfl) hx)

theorem parts_gtOpen (q : Req) (n : Byte) (reserved : BitVec 24) (words : Vector W32 11) (s s1 : State)
    (hx : execGtOpen q n reserved words s = .next s1) :
    Within (parts (.gtOpen q n reserved words)) s s1 :=
  within_of_ch (execGtOpen_within q n reserved words s (Ch.refl _ s) (evOk rfl) rfl rfl rfl rfl rfl rfl rfl rfl rfl rfl hx)

theorem parts_gtTune (q : Req) (n : Byte) (flags : Byte) (missMax : Byte) (reserved : Byte) (noise : W16) (tol : W16)
    (s s1 : State) (hx : execGtTune q n flags missMax reserved noise tol s = .next s1) :
    Within (parts (.gtTune q n flags missMax reserved noise tol)) s s1 :=
  within_of_ch (execGtTune_within q n flags missMax reserved noise tol s (Ch.refl _ s) (evOk rfl) rfl rfl hx)

theorem parts_gtClose (q : Req) (n : Byte) (s s1 : State) (hx : execGtClose q n s = .next s1) :
    Within (parts (.gtClose q n)) s s1 :=
  within_of_ch (execGtClose_within q n s (Ch.refl _ s) (evOk rfl) rfl rfl rfl rfl rfl rfl rfl rfl rfl hx)

theorem parts_gtStatus (q : Req) (n : Byte) (s s1 : State) (hx : execGtStatus q n s = .next s1) :
    Within (parts (.gtStatus q n)) s s1 :=
  within_of_ch (execGtStatus_within q n s (Ch.refl _ s) (evOk rfl) rfl rfl hx)

theorem parts_motOpen (q : Req) (h : Byte) (p : Byte) (s s1 : State) (hx : execMotOpen q h p s = .next s1) :
    Within (parts (.motOpen q h p)) s s1 :=
  within_of_ch (execMotOpen_within q h p s (Ch.refl _ s) (evOk rfl) rfl rfl rfl rfl rfl rfl rfl rfl hx)

theorem parts_motParam (q : Req) (h : Byte) (id : Byte) (reserved : W16) (v : W32) (s s1 : State)
    (hx : execMotParam q h id reserved v s = .next s1) :
    Within (parts (.motParam q h id reserved v)) s s1 :=
  within_of_ch (execMotParam_within q h id reserved v s (Ch.refl _ s) (evOk rfl) rfl rfl rfl rfl rfl rfl hx)

theorem parts_motStart (q : Req) (h : Byte) (s s1 : State) (hx : execMotStart q h s = .next s1) :
    Within (parts (.motStart q h)) s s1 :=
  within_of_ch (execMotStart_within q h s (Ch.refl _ s) (evOk rfl) rfl rfl rfl rfl rfl hx)

theorem parts_motStop (q : Req) (h : Byte) (mode : Byte) (s s1 : State) (hx : execMotStop q h mode s = .next s1) :
    Within (parts (.motStop q h mode)) s s1 :=
  within_of_ch (execMotStop_within q h mode s (Ch.refl _ s) (evOk rfl) rfl rfl rfl rfl rfl hx)

theorem parts_axisMove (q : Req) (h : Byte) (reserved : BitVec 24) (target : W32) (s s1 : State)
    (hx : execAxisMove q h reserved target s = .next s1) :
    Within (parts (.axisMove q h reserved target)) s s1 :=
  within_of_ch (execAxisMove_within q h reserved target s (Ch.refl _ s) (evOk rfl) rfl rfl rfl rfl rfl rfl rfl hx)

theorem parts_axisHome (q : Req) (h : Byte) (reserved : BitVec 24) (pos : W32) (s s1 : State)
    (hx : execAxisHome q h reserved pos s = .next s1) :
    Within (parts (.axisHome q h reserved pos)) s s1 :=
  within_of_ch (execAxisHome_within q h reserved pos s (Ch.refl _ s) (evOk rfl) rfl rfl hx)

theorem parts_motStatus (q : Req) (h : Byte) (s s1 : State) (hx : execMotStatus q h s = .next s1) :
    Within (parts (.motStatus q h)) s s1 :=
  within_of_ch (execMotStatus_within q h s (Ch.refl _ s) (evOk rfl) rfl hx)

theorem parts_prbSched (q : Req) (measInt : W32) (c0 : ConvBlk) (c1 : ConvBlk) (topen : W16) (tshort : W16)
    (s s1 : State) (hx : execPrbSched q measInt c0 c1 topen tshort s = .next s1) :
    Within (parts (.prbSched q measInt c0 c1 topen tshort)) s s1 :=
  within_of_ch (execPrbSched_within q measInt c0 c1 topen tshort s (Ch.refl _ s) (evOk rfl) rfl rfl rfl rfl rfl rfl hx)

theorem parts_prbCoef (q : Req) (p : Byte) (reserved : BitVec 24) (a : W64) (b : W64) (c3 : W64) (off : W32)
    (s s1 : State) (hx : execPrbCoef q p reserved a b c3 off s = .next s1) :
    Within (parts (.prbCoef q p reserved a b c3 off)) s s1 :=
  within_of_ch (execPrbCoef_within q p reserved a b c3 off s (Ch.refl _ s) (evOk rfl) rfl rfl hx)

theorem parts_prbRead (q : Req) (p : Byte) (s s1 : State) (hx : execPrbRead q p s = .next s1) :
    Within (parts (.prbRead q p)) s s1 :=
  within_of_ch (execPrbRead_within q p s (Ch.refl _ s) (evOk rfl) rfl hx)

theorem parts_prbStop (q : Req) (s s1 : State) (hx : execPrbStop q s = .next s1) :
    Within (parts (.prbStop q)) s s1 :=
  within_of_ch (execPrbStop_within q s (Ch.refl _ s) (evOk rfl) rfl rfl hx)

theorem parts_recRead (q : Req) (flags : Byte) (count : Byte) (epoch : W16) (seq : W32) (s s1 : State)
    (hx : execRecRead q flags count epoch seq s = .next s1) :
    Within (parts (.recRead q flags count epoch seq)) s s1 :=
  within_of_ch (execRecRead_within q flags count epoch seq s (Ch.refl _ s) (evOk rfl) rfl hx)

theorem parts_recAck (q : Req) (epoch : W16) (reserved : W16) (seq : W32) (s s1 : State)
    (hx : execRecAck q epoch reserved seq s = .next s1) :
    Within (parts (.recAck q epoch reserved seq)) s s1 :=
  within_of_ch (execRecAck_within q epoch reserved seq s (Ch.refl _ s) (evOk rfl) rfl rfl rfl rfl rfl hx)

theorem parts_recEvent (q : Req) (kind : Byte) (source : Byte) (flags : W16) (value : W32) (s s1 : State)
    (hx : execRecEvent q kind source flags value s = .next s1) :
    Within (parts (.recEvent q kind source flags value)) s s1 :=
  within_of_ch (execRecEvent_within q kind source flags value s (Ch.refl _ s) (evOk rfl) rfl rfl rfl rfl rfl hx)

theorem parts_recProvision (q : Req) (key : List Byte) (s s1 : State) (hx : execRecProvision q key s = .next s1) :
    Within (parts (.recProvision q key)) s s1 :=
  within_of_ch (execRecProvision_within q key s (Ch.refl _ s) (evOk rfl) rfl rfl rfl hx)

theorem parts_recDecommission (q : Req) (word : W16) (s s1 : State) (hx : execRecDecommission q word s = .next s1) :
    Within (parts (.recDecommission q word)) s s1 :=
  within_of_ch (execRecDecommission_within q word s (Ch.refl _ s) (evOk rfl) rfl rfl rfl rfl rfl hx)

theorem parts_recStatus (q : Req) (s s1 : State) (hx : execRecStatus q s = .next s1) :
    Within (parts (.recStatus q)) s s1 :=
  within_of_ch (execRecStatus_within q s (Ch.refl _ s) (evOk rfl) rfl hx)

theorem parts_bOpen
    (q : Req) (b : Byte) (floor : Byte) (ceil : Byte) (policy : Byte) (thresh : W16) (age : Byte) (reserved : Byte)
    (s s1 : State) (hx : execBOpen q b floor ceil policy thresh age reserved s = .next s1) :
    Within (parts (.bOpen q b floor ceil policy thresh age reserved)) s s1 :=
  within_of_ch (execBOpen_within q b floor ceil policy thresh age reserved s (Ch.refl _ s) (evOk rfl) rfl hx)

theorem parts_bClose (q : Req) (b : Byte) (s s1 : State) (hx : execBClose q b s = .next s1) :
    Within (parts (.bClose q b)) s s1 :=
  within_of_ch (execBClose_within q b s (Ch.refl _ s) (evOk rfl) rfl rfl rfl hx)

theorem parts_bSet (q : Req) (b : Byte) (reserved : Byte) (thresh : W16) (age : Byte) (ceil : Byte) (s s1 : State)
    (hx : execBSet q b reserved thresh age ceil s = .next s1) :
    Within (parts (.bSet q b reserved thresh age ceil)) s s1 :=
  within_of_ch (execBSet_within q b reserved thresh age ceil s (Ch.refl _ s) (evOk rfl) rfl rfl rfl hx)

theorem parts_healthSum (q : Req) (s s1 : State) (hx : execHealthSum q s = .next s1) :
    Within (parts (.healthSum q)) s s1 :=
  within_of_ch (execHealthSum_within q s (Ch.refl _ s) (evOk rfl) rfl hx)

theorem parts_healthDet (q : Req) (cls : Byte) (idx : Byte) (s s1 : State)
    (hx : execHealthDet q cls idx s = .next s1) :
    Within (parts (.healthDet q cls idx)) s s1 :=
  within_of_ch (execHealthDet_within q cls idx s (Ch.refl _ s) (evOk rfl) rfl hx)

theorem parts_injOpen1 (q : Req) (word : W32) (s s1 : State) (hx : execInjOpen1 q word s = .next s1) :
    Within (parts (.injOpen1 q word)) s s1 :=
  within_of_ch (execInjOpen1_within q word s (Ch.refl _ s) (evOk rfl) rfl hx)

theorem parts_injOpen2 (q : Req) (word : W16) (s s1 : State) (hx : execInjOpen2 q word s = .next s1) :
    Within (parts (.injOpen2 q word)) s s1 :=
  within_of_ch (execInjOpen2_within q word s (Ch.refl _ s) (evOk rfl) rfl hx)

theorem parts_injFire (q : Req) (cls : Byte) (idx : Byte) (reserved : W16) (par : W32) (s s1 : State)
    (hx : execInjFire q cls idx reserved par s = .next s1) :
    Within (parts (.injFire q cls idx reserved par)) s s1 :=
  within_of_ch (execInjFire_within q cls idx reserved par s (Ch.refl _ s) (rsOk rfl) rfl hx)

theorem parts_injClose (q : Req) (s s1 : State) (hx : execInjClose q s = .next s1) :
    Within (parts (.injClose q)) s s1 :=
  within_of_ch (execInjClose_within q s (Ch.refl _ s) (evOk rfl) rfl hx)

theorem parts_calRead (q : Req) (off : W16) (len : Byte) (s s1 : State) (hx : execCalRead q off len s = .next s1) :
    Within (parts (.calRead q off len)) s s1 :=
  within_of_ch (execCalRead_within q off len s (Ch.refl _ s) (evOk rfl) rfl hx)

theorem parts_calWrite (q : Req) (off : W16) (len : Byte) (res1 : Byte) (word : W16) (res2 : W16) (data : List Byte)
    (s s1 : State) (hx : execCalWrite q off len res1 word res2 data s = .next s1) :
    Within (parts (.calWrite q off len res1 word res2 data)) s s1 :=
  within_of_ch (execCalWrite_within q off len res1 word res2 data s (Ch.refl _ s) (evOk rfl) rfl rfl rfl rfl rfl hx)

theorem parts_calProc (q : Req) (proc : Byte) (s s1 : State) (hx : execCalProc q proc s = .next s1) :
    Within (parts (.calProc q proc)) s s1 :=
  within_of_ch (execCalProc_within q proc s (Ch.refl _ s) (evOk rfl) rfl hx)

theorem parts_calProcDone (m0 : W32) (m1 : W32) (m2 : W32) (m3 : W32) (s s1 : State)
    (hx : execCalProcDone m0 m1 m2 m3 s = .next s1) :
    Within (parts (.calProcDone m0 m1 m2 m3)) s s1 :=
  within_of_ch (execCalProcDone_within m0 m1 m2 m3 s (Ch.refl _ s) rfl rfl rfl rfl rfl rfl rfl rfl hx)

theorem parts_tagRead (q : Req) (lch : Byte) (s s1 : State) (hx : execTagRead q lch s = .next s1) :
    Within (parts (.tagRead q lch)) s s1 :=
  within_of_ch (execTagRead_within q lch s (Ch.refl _ s) (evOk rfl) rfl hx)

theorem parts_tagWrite (q : Req) (lch : Byte) (sec : Byte) (reserved : W16) (data : List Byte) (s s1 : State)
    (hx : execTagWrite q lch sec reserved data s = .next s1) :
    Within (parts (.tagWrite q lch sec reserved data)) s s1 :=
  within_of_ch (execTagWrite_within q lch sec reserved data s (Ch.refl _ s) (evOk rfl) rfl rfl rfl hx)

theorem parts_patchData (q : Req) (off : W32) (data : List Byte) (s s1 : State)
    (hx : execPatchData q off data s = .next s1) :
    Within (parts (.patchData q off data)) s s1 :=
  within_of_ch (execPatchData_within q off data s (Ch.refl _ s) (evOk rfl) rfl hx)

theorem parts_patchRun (q : Req) (s s1 : State) (hx : execPatchRun q s = .next s1) :
    Within (parts (.patchRun q)) s s1 :=
  within_of_ch (execPatchRun_within q s (Ch.refl _ s) (evOk rfl) rfl rfl rfl rfl rfl rfl rfl rfl rfl rfl rfl rfl rfl rfl rfl rfl rfl rfl rfl rfl hx)

theorem parts_bootContinue (q : Req) (s s1 : State) (hx : execBootContinue q s = .next s1) :
    Within (parts (.bootContinue q)) s s1 :=
  within_of_ch (execBootContinue_within q s (Ch.refl _ s) (evOk rfl) rfl rfl rfl rfl rfl rfl rfl rfl rfl rfl rfl rfl rfl rfl rfl rfl rfl rfl rfl rfl hx)

theorem parts_claimFRead (eligAtRef : Bool) (s s1 : State) (hx : execClaimFRead eligAtRef s = .next s1) :
    Within (parts (.claimFRead eligAtRef)) s s1 :=
  within_of_ch (execClaimFRead_within eligAtRef s (Ch.refl _ s) rfl hx)

theorem parts_completeFWrite (id : Byte) (s s1 : State) (hx : execCompleteFWrite id s = .next s1) :
    Within (parts (.completeFWrite id)) s s1 :=
  within_of_ch (execCompleteFWrite_within id s (Ch.refl _ s) rfl rfl hx)

theorem parts_poReset (s s1 : State) (hx : execPoReset s = .next s1) :
    Within (parts (.poReset)) s s1 :=
  within_of_ch (execPoReset_within s (Ch.refl _ s) (rsOk rfl) hx)

theorem parts_boReset (s s1 : State) (hx : execBoReset s = .next s1) :
    Within (parts (.boReset)) s s1 :=
  within_of_ch (execBoReset_within s (Ch.refl _ s) (rsOk rfl) hx)

theorem parts_pinReset (widthNs : Nat) (s s1 : State) (hx : execPinReset widthNs s = .next s1) :
    Within (parts (.pinReset widthNs)) s s1 :=
  within_of_ch (execPinReset_within widthNs s (Ch.refl _ s) (rsOk rfl) hx)

theorem parts_wdgReset (t : Instant) (s s1 : State) (hx : execWdgReset t s = .next s1) :
    Within (parts (.wdgReset t)) s s1 :=
  within_of_ch (execWdgReset_within t s (Ch.refl _ s) (rsOk rfl) hx)

theorem parts_wdgWarning (t : Instant) (s s1 : State) (hx : execWdgWarning t s = .next s1) :
    Within (parts (.wdgWarning t)) s s1 :=
  within_of_ch (execWdgWarning_within t s (Ch.refl _ s) (evOk rfl) rfl hx)

theorem parts_wdtService (v : Byte) (s s1 : State) (hx : execWdtService v s = .next s1) :
    Within (parts (.wdtService v)) s s1 :=
  within_of_ch (execWdtService_within v s (Ch.refl _ s) rfl hx)

theorem parts_clkReset (s s1 : State) (hx : execClkReset s = .next s1) :
    Within (parts (.clkReset)) s s1 :=
  within_of_ch (execClkReset_within s (Ch.refl _ s) (rsOk rfl) hx)

theorem parts_lockReset (s s1 : State) (hx : execLockReset s = .next s1) :
    Within (parts (.lockReset)) s s1 :=
  within_of_ch (execLockReset_within s (Ch.refl _ s) (rsOk rfl) hx)

theorem parts_swrstWrite (v : W32) (s s1 : State) (hx : execSwrstWrite v s = .next s1) :
    Within (parts (.swrstWrite v)) s s1 :=
  within_of_ch (execSwrstWrite_within v s (Ch.refl _ s) (rsOk rfl) hx)

theorem parts_resetRelease (t : Instant) (tide : TideCnt) (xtalOk : Bool) (parity : Bool) (s s1 : State)
    (hx : execResetRelease t tide xtalOk parity s = .next s1) :
    Within (parts (.resetRelease t tide xtalOk parity)) s s1 :=
  within_of_ch (execResetRelease_within t tide xtalOk parity s (Ch.refl _ s) (evOk rfl) rfl rfl rfl rfl rfl rfl rfl rfl rfl rfl rfl rfl rfl rfl rfl rfl rfl rfl rfl rfl rfl rfl rfl rfl hx)

theorem parts_vbatLoss (s s1 : State) (hx : execVbatLoss s = .next s1) :
    Within (parts (.vbatLoss)) s s1 :=
  within_of_ch (execVbatLoss_within s (Ch.refl _ s) rfl rfl hx)

theorem parts_vbatReturn (s s1 : State) (hx : execVbatReturn s = .next s1) :
    Within (parts (.vbatReturn)) s s1 :=
  within_of_ch (execVbatReturn_within s (Ch.refl _ s) (rsOk rfl) hx)

theorem parts_reservoirLoss (s s1 : State) (hx : execReservoirLoss s = .next s1) :
    Within (parts (.reservoirLoss)) s s1 :=
  within_of_ch (execReservoirLoss_within s (Ch.refl _ s) (rsOk rfl) hx)

theorem parts_sramScrub (retained : Bool) (errs : List (Byte × BitVec 24 × Bool)) (s s1 : State)
    (hx : execSramScrub retained errs s = .next s1) :
    Within (parts (.sramScrub retained errs)) s s1 :=
  within_of_ch (execSramScrub_within retained errs s (Ch.refl _ s) (rsOk rfl) hx)

theorem parts_frameRepairDone (f : Fin 128) (words : List W32) (s s1 : State)
    (hx : execFrameRepairDone f words s = .next s1) :
    Within (parts (.frameRepairDone f words)) s s1 :=
  within_of_ch (execFrameRepairDone_within f words s (Ch.refl _ s) (evOk rfl) rfl rfl rfl hx)

theorem parts_monitorSample (t : Instant) (m : MonIn) (s s1 : State) (hx : execMonitorSample t m s = .next s1) :
    Within (parts (.monitorSample t m)) s s1 :=
  within_of_ch (execMonitorSample_within t m s (Ch.refl _ s) (evOk rfl) rfl rfl rfl rfl rfl hx)

theorem parts_unitFailure (t : Instant) (u : UnitId) (chk : BitVec 5) (s s1 : State)
    (hx : execUnitFailure t u chk s = .next s1) :
    Within (parts (.unitFailure t u chk)) s s1 :=
  within_of_ch (execUnitFailure_within t u chk s (Ch.refl _ s) (evOk rfl) rfl rfl rfl rfl rfl rfl rfl rfl rfl rfl rfl hx)

theorem parts_migrationResume (t : Instant) (l : Lch) (s s1 : State) (hx : execMigrationResume t l s = .next s1) :
    Within (parts (.migrationResume t l)) s s1 :=
  within_of_ch (execMigrationResume_within t l s (Ch.refl _ s) (evOk rfl) rfl rfl rfl rfl rfl rfl rfl rfl rfl rfl hx)

theorem parts_tapsMeasure (t : Instant) (i : Fin 70) (taps : BitVec 6) (s s1 : State)
    (hx : execTapsMeasure t i taps s = .next s1) :
    Within (parts (.tapsMeasure t i taps)) s s1 :=
  within_of_ch (execTapsMeasure_within t i taps s (Ch.refl _ s) (evOk rfl) rfl rfl rfl rfl rfl rfl rfl rfl rfl rfl rfl rfl hx)

theorem parts_unitInjWrite (u : UnitId) (v : BitVec 3) (s s1 : State) (hx : execUnitInjWrite u v s = .next s1) :
    Within (parts (.unitInjWrite u v)) s s1 :=
  within_of_ch (execUnitInjWrite_within u v s (Ch.refl _ s) (evOk rfl) rfl rfl rfl rfl rfl rfl rfl rfl rfl rfl hx)

theorem parts_tapReset (s s1 : State) (hx : execTapReset s = .next s1) :
    Within (parts (.tapReset)) s s1 :=
  within_of_ch (execTapReset_within s (Ch.refl _ s) (evOk rfl) rfl rfl rfl hx)

theorem parts_extest (s s1 : State) (hx : execExtest s = .next s1) :
    Within (parts (.extest)) s s1 :=
  within_of_ch (execExtest_within s (Ch.refl _ s) (evOk rfl) rfl rfl rfl rfl rfl hx)

theorem parts_idcode (s s1 : State) (hx : execIdcode s = .next s1) :
    Within (parts (.idcode)) s s1 :=
  within_of_ch (execIdcode_within s (Ch.refl _ s) (evOk rfl) rfl rfl rfl hx)

theorem parts_samplePreload (v : BitVec 147) (s s1 : State) (hx : execSamplePreload v s = .next s1) :
    Within (parts (.samplePreload v)) s s1 :=
  within_of_ch (execSamplePreload_within v s (Ch.refl _ s) (evOk rfl) rfl rfl rfl hx)

theorem parts_clamp (s s1 : State) (hx : execClamp s = .next s1) :
    Within (parts (.clamp)) s s1 :=
  within_of_ch (execClamp_within s (Ch.refl _ s) (evOk rfl) rfl rfl rfl rfl rfl hx)

theorem parts_highz (s s1 : State) (hx : execHighz s = .next s1) :
    Within (parts (.highz)) s s1 :=
  within_of_ch (execHighz_within s (Ch.refl _ s) (evOk rfl) rfl rfl rfl rfl rfl hx)

theorem parts_bypass (s s1 : State) (hx : execBypass s = .next s1) :
    Within (parts (.bypass)) s s1 :=
  within_of_ch (execBypass_within s (Ch.refl _ s) (evOk rfl) rfl rfl rfl hx)

theorem parts_dbgReg (v : BitVec 48) (s s1 : State) (hx : execDbgReg v s = .next s1) :
    Within (parts (.dbgReg v)) s s1 :=
  within_of_ch (execDbgReg_within v s (Ch.refl _ s) (rsOk rfl) rfl hx)

theorem parts_dbgMem (v : BitVec 66) (s s1 : State) (hx : execDbgMem v s = .next s1) :
    Within (parts (.dbgMem v)) s s1 :=
  within_of_ch (execDbgMem_within v s (Ch.refl _ s) (evOk rfl) rfl rfl rfl hx)

theorem parts_dbgMemDone (s s1 : State) (hx : execDbgMemDone s = .next s1) :
    Within (parts (.dbgMemDone)) s s1 :=
  within_of_ch (execDbgMemDone_within s (Ch.refl _ s) (rsOk rfl) hx)

theorem parts_fuse (v : BitVec 24) (s s1 : State) (hx : execFuse v s = .next s1) :
    Within (parts (.fuse v)) s s1 :=
  within_of_ch (execFuse_within v s (Ch.refl _ s) (evOk rfl) rfl rfl rfl hx)

theorem parts_fuseBlowDone (s s1 : State) (hx : execFuseBlowDone s = .next s1) :
    Within (parts (.fuseBlowDone)) s s1 :=
  within_of_ch (execFuseBlowDone_within s (Ch.refl _ s) rfl rfl hx)

theorem parts_haltF (s s1 : State) (hx : execHaltF s = .next s1) :
    Within (parts (.haltF)) s s1 :=
  within_of_ch (execHaltF_within s (Ch.refl _ s) rfl rfl hx)

theorem parts_resumeF (s s1 : State) (hx : execResumeF s = .next s1) :
    Within (parts (.resumeF)) s s1 :=
  within_of_ch (execResumeF_within s (Ch.refl _ s) (evOk rfl) rfl rfl rfl rfl rfl rfl rfl rfl rfl rfl rfl rfl rfl rfl rfl rfl rfl rfl rfl rfl hx)

theorem parts_stepF (s s1 : State) (hx : execStepF s = .next s1) :
    Within (parts (.stepF)) s s1 :=
  within_of_ch (execStepF_within s (Ch.refl _ s) rfl rfl hx)

theorem parts_dbgrst (s s1 : State) (hx : execDbgrst s = .next s1) :
    Within (parts (.dbgrst)) s s1 :=
  within_of_ch (execDbgrst_within s (Ch.refl _ s) (rsOk rfl) hx)

theorem parts_walkEnter (t : Instant) (tide : TideCnt) (s s1 : State) (hx : execWalkEnter t tide s = .next s1) :
    Within (parts (.walkEnter t tide)) s s1 :=
  within_of_ch (execWalkEnter_within t tide s (Ch.refl _ s) (evOk rfl) rfl rfl rfl rfl rfl rfl rfl rfl rfl hx)

theorem parts_walkExit (s s1 : State) (hx : execWalkExit s = .next s1) :
    Within (parts (.walkExit)) s s1 :=
  within_of_ch (execWalkExit_within s (Ch.refl _ s) rfl rfl rfl hx)

theorem parts_haltEng (e : EngineId) (s s1 : State) (hx : execHaltEng e s = .next s1) :
    Within (parts (.haltEng e)) s s1 :=
  within_of_ch (execHaltEng_within e s (Ch.refl _ s) rfl rfl hx)

theorem parts_resumeEng (e : EngineId) (s s1 : State) (hx : execResumeEng e s = .next s1) :
    Within (parts (.resumeEng e)) s s1 :=
  within_of_ch (execResumeEng_within e s (Ch.refl _ s) rfl rfl hx)

theorem parts_haltT (tid : Tid) (s s1 : State) (hx : execHaltT tid s = .next s1) :
    Within (parts (.haltT tid)) s s1 :=
  within_of_ch (execHaltT_within tid s (Ch.refl _ s) rfl rfl hx)

theorem parts_resumeT (tid : Tid) (s s1 : State) (hx : execResumeT tid s = .next s1) :
    Within (parts (.resumeT tid)) s s1 :=
  within_of_ch (execResumeT_within tid s (Ch.refl _ s) rfl rfl hx)

theorem parts_stepT (tid : Tid) (s s1 : State) (hx : execStepT tid s = .next s1) :
    Within (parts (.stepT tid)) s s1 :=
  within_of_ch (execStepT_within tid s (Ch.refl _ s) (rsOk rfl) hx)

theorem parts_coarseTideEdge (pads : BitVec 40) (padZ : BitVec 40) (s s1 : State)
    (hx : execCoarseTideEdge pads padZ s = .next s1) :
    Within (parts (.coarseTideEdge pads padZ)) s s1 :=
  within_of_ch (execCoarseTideEdge_within pads padZ s (Ch.refl _ s) (evOk rfl) rfl rfl rfl rfl rfl rfl rfl rfl rfl rfl hx)

theorem parts_unitRegisterEccCorrection (t : Instant) (u : UnitId) (s s1 : State)
    (hx : execUnitRegisterEccCorrection t u s = .next s1) :
    Within (parts (.unitRegisterEccCorrection t u)) s s1 :=
  within_of_ch (execUnitRegisterEccCorrection_within t u s (Ch.refl _ s) (evOk rfl) rfl rfl rfl rfl rfl rfl rfl rfl rfl rfl rfl hx)

theorem parts_correctedErrorWindowEnd (t : Instant) (s s1 : State) (hx : execCorrectedErrorWindowEnd t s = .next s1) :
    Within (parts (.correctedErrorWindowEnd t)) s s1 :=
  within_of_ch (execCorrectedErrorWindowEnd_within t s (Ch.refl _ s) rfl rfl rfl hx)

end Sys2Proof.Laws
end

