-- ==== Sys2Proof/Laws/Time.lean ====
section
/-! SUPPORT. What the passing of time leaves of the timebase, and the parts that a law of parts gives back. -/

namespace Sys2Proof.Machine

@[simp] theorem advanceTo_tb_ssc (t : Instant) (s : State) : (advanceTo t s).tb.ssc = s.tb.ssc := by
  unfold advanceTo; split <;> rfl
@[simp] theorem advanceTo_tb_sscPend (t : Instant) (s : State) : (advanceTo t s).tb.sscPend = s.tb.sscPend := by
  unfold advanceTo; split <;> rfl
@[simp] theorem advanceTo_tb_sscOrigin (t : Instant) (s : State) : (advanceTo t s).tb.sscOrigin = s.tb.sscOrigin := by
  unfold advanceTo; split <;> rfl
@[simp] theorem advanceTo_tb_pllLock (t : Instant) (s : State) : (advanceTo t s).tb.pllLock = s.tb.pllLock := by
  unfold advanceTo; split <;> rfl
@[simp] theorem advanceTo_tb_refBrc (t : Instant) (s : State) : (advanceTo t s).tb.refBrc = s.tb.refBrc := by
  unfold advanceTo; split <;> rfl
@[simp] theorem advanceTo_tb_disc (t : Instant) (s : State) : (advanceTo t s).tb.disc = s.tb.disc := by
  unfold advanceTo; split <;> rfl
@[simp] theorem advanceTo_tb_coarse (t : Instant) (s : State) : (advanceTo t s).tb.coarse = s.tb.coarse := by
  unfold advanceTo; split <;> rfl
@[simp] theorem advanceTo_tb_dtHi (t : Instant) (s : State) : (advanceTo t s).tb.dtHi = s.tb.dtHi := by
  unfold advanceTo; split <;> rfl
@[simp] theorem advanceTo_tb_fineL (t : Instant) (s : State) : (advanceTo t s).tb.fineL = s.tb.fineL := by
  unfold advanceTo; split <;> rfl
@[simp] theorem advanceTo_tb_discInc (t : Instant) (s : State) : (advanceTo t s).tb.discInc = s.tb.discInc := by
  unfold advanceTo; split <;> rfl
@[simp] theorem advanceTo_tb_terrMeas (t : Instant) (s : State) : (advanceTo t s).tb.terrMeas = s.tb.terrMeas := by
  unfold advanceTo; split <;> rfl
@[simp] theorem advanceTo_tb_trcMeas (t : Instant) (s : State) : (advanceTo t s).tb.trcMeas = s.tb.trcMeas := by
  unfold advanceTo; split <;> rfl
@[simp] theorem advanceTo_tb_xtalFailF (t : Instant) (s : State) : (advanceTo t s).tb.xtalFailF = s.tb.xtalFailF := by
  unfold advanceTo; split <;> rfl
@[simp] theorem advanceTo_tb_pllUnlockF (t : Instant) (s : State) : (advanceTo t s).tb.pllUnlockF = s.tb.pllUnlockF := by
  unfold advanceTo; split <;> rfl
@[simp] theorem advanceTo_tb_terrRange (t : Instant) (s : State) : (advanceTo t s).tb.terrRange = s.tb.terrRange := by
  unfold advanceTo; split <;> rfl
@[simp] theorem advanceTo_tb_terrRej (t : Instant) (s : State) : (advanceTo t s).tb.terrRej = s.tb.terrRej := by
  unfold advanceTo; split <;> rfl
@[simp] theorem advanceTo_tb_terrHist (t : Instant) (s : State) : (advanceTo t s).tb.terrHist = s.tb.terrHist := by
  unfold advanceTo; split <;> rfl
@[simp] theorem advanceTo_tb_trcHist (t : Instant) (s : State) : (advanceTo t s).tb.trcHist = s.tb.trcHist := by
  unfold advanceTo; split <;> rfl
@[simp] theorem advanceTo_tb_refreshOn (t : Instant) (s : State) : (advanceTo t s).tb.refreshOn = s.tb.refreshOn := by
  unfold advanceTo; split <;> rfl
@[simp] theorem advanceTo_tb_srcSince (t : Instant) (s : State) : (advanceTo t s).tb.srcSince = s.tb.srcSince := by
  unfold advanceTo; split <;> rfl
@[simp] theorem advanceTo_tb_unc (t : Instant) (s : State) : (advanceTo t s).tb.unc = s.tb.unc := by
  unfold advanceTo; split <;> rfl
@[simp] theorem advanceTo_tb_coarseAt (t : Instant) (s : State) : (advanceTo t s).tb.coarseAt = s.tb.coarseAt := by
  unfold advanceTo; split <;> rfl
@[simp] theorem advanceTo_tb_epochRun (t : Instant) (s : State) : (advanceTo t s).tb.epochRun = s.tb.epochRun := by
  unfold advanceTo; split <;> rfl
@[simp] theorem advanceTo_tb_allowX (t : Instant) (s : State) : (advanceTo t s).tb.allowX = s.tb.allowX := by
  unfold advanceTo; split <;> rfl
@[simp] theorem advanceTo_tb_allowT (t : Instant) (s : State) : (advanceTo t s).tb.allowT = s.tb.allowT := by
  unfold advanceTo; split <;> rfl
@[simp] theorem advanceTo_tb_pairX (t : Instant) (s : State) : (advanceTo t s).tb.pairX = s.tb.pairX := by
  unfold advanceTo; split <;> rfl
@[simp] theorem advanceTo_tb_pairT (t : Instant) (s : State) : (advanceTo t s).tb.pairT = s.tb.pairT := by
  unfold advanceTo; split <;> rfl
@[simp] theorem advanceTo_tb_spanX (t : Instant) (s : State) : (advanceTo t s).tb.spanX = s.tb.spanX := by
  unfold advanceTo; split <;> rfl
@[simp] theorem advanceTo_tb_spanT (t : Instant) (s : State) : (advanceTo t s).tb.spanT = s.tb.spanT := by
  unfold advanceTo; split <;> rfl

end Sys2Proof.Machine
end

