-- ==== Sys2Proof/Tests/Slice0.lean ====
section
/-! SUPPORT. The model's own tests: an ill-formed term for each check of WellFormed, engine words written out from the
encodings of 07_microcode.md R184 and R185, memory, and for every statement with hypotheses a state and operands that meet
them (`test_meets_…`). -/

namespace Sys2Proof.Tests

set_option Elab.async false

open Sys2Proof Sys2Proof.Machine Sys2Proof.Claims

/-! ### Ill-formed terms -/

theorem test_wf_page_length : (Instr.pageFillComplete 0 0 [0]).wf = false ∧ (Instr.prefetchComplete 0 0 []).wf = false ∧
    (Instr.frameRepairDone 0 [0]).wf = false ∧ (Instr.pageFillComplete 0 0 (List.replicate 128 0)).wf = true := by decide +kernel
theorem test_wf_payload : (Instr.progUpload ⟨0, 0⟩ 0 (List.replicate 245 0)).wf = false ∧
    (Instr.sdWrite ⟨0, 0⟩ 0 0 0 (List.replicate 245 0)).wf = false ∧
    (Instr.calWrite ⟨0, 0⟩ 0 0 0 0 0 (List.replicate 241 0)).wf = false ∧
    (Instr.tagWrite ⟨0, 0⟩ 0 0 0 (List.replicate 245 0)).wf = false ∧
    (Instr.patchData ⟨0, 0⟩ 0 (List.replicate 245 0)).wf = false ∧
    (Instr.progUpload ⟨0, 0⟩ 0 (List.replicate 244 0)).wf = true := by decide +kernel
theorem test_wf_key : (Instr.recProvision ⟨0, 0⟩ (List.replicate 31 0)).wf = false ∧
    (Instr.recProvision ⟨0, 0⟩ (List.replicate 32 0)).wf = true := by decide +kernel

/-- S-format operands with SUB `n` and every other field 0. -/
def subOps (n : BitVec 6) : SOps := ⟨0, 0, 0, n, false, false, 0⟩

theorem test_wf_sub : (Instr.lsn 0 (subOps 2)).wf = false ∧ (Instr.ulsn 0 (subOps 3)).wf = false ∧
    (Instr.timer 0 (subOps 1)).wf = false ∧ (Instr.timerx 0 (subOps 0)).wf = false ∧ (Instr.spc 0 (subOps 1)).wf = false ∧
    (Instr.spx 0 (subOps 2)).wf = false ∧ (Instr.tper 0 (subOps 1)).wf = false ∧ (Instr.tlast 0 (subOps 0)).wf = false := by decide +kernel

/-! ### Words of engine instructions, written out field by field -/

theorem test_word_add : decodeGroom 3 0b000001_0001_0010_0011_00000000_000000#32 = some (.add 3 ⟨1, 2, 3, 0⟩) := by decide +kernel
theorem test_word_remu : decodeGroom 3 0b000001_1111_1110_1101_00000000_001111#32 = some (.remu 3 ⟨15, 14, 13, 0⟩) := by decide +kernel
theorem test_word_addi : decodeGroom 0 0x099BFFFF#32 = some (.addi 0 ⟨6, 6, 0x3FFFF⟩) := by decide +kernel
theorem test_word_movi : decodeGroom 0 0b001010_0101_0000_000000000001100100#32 = some (.movi 0 ⟨5, 0, 100⟩) := by decide +kernel
theorem test_word_std : decodeGroom 0 0b010011_0100_0001_000000000000001000#32 = some (.std 0 ⟨4, 1, 8⟩) := by decide +kernel
theorem test_word_swap : decodeGroom 0 0b010100_0100_0001_0010_00000000_000001#32 = some (.swap 0 ⟨4, 1, 2, 0⟩) := by decide +kernel
theorem test_word_bcond : decodeGroom 0 0b011000_0001_1111111111111111111110#32 = some (.bcond 0 ⟨1, 0x3FFFFE⟩) := by decide +kernel
theorem test_word_call : decodeGroom 0 0b011001_1111_0000000000000000100000#32 = some (.call 0 ⟨15, 32⟩) := by decide +kernel
theorem test_word_jr : decodeGroom 0 0b011010_0000_1111_0000_00000000_000000#32 = some (.jr 0 ⟨0, 15, 0, 0⟩) := by decide +kernel
theorem test_word_wait : decodeGroom 0 0b100000_0010_0000_0000_000000_0_0_000000#32 = some (.wait 0 ⟨2, 0, 0, 0, false, false, 0⟩) := by decide +kernel
theorem test_word_lsn : decodeGroom 0 0b100001_0000_0000_0000_000011_0_0_000101#32 = some (.lsn 0 ⟨0, 0, 0, 3, false, false, 5⟩) := by decide +kernel
theorem test_word_ulsn : decodeGroom 0 0b100001_0000_0000_0000_000010_0_0_000101#32 = some (.ulsn 0 ⟨0, 0, 0, 2, false, false, 5⟩) := by decide +kernel
theorem test_word_timerx : decodeGroom 0 0b100010_0000_0000_0000_000001_0_0_000000#32 = some (.timerx 0 (subOps 1)) := by decide +kernel
theorem test_word_sig : decodeGroom 0 0b100100_0000_0001_0010_000000_0_0_000000#32 = some (.sig 0 ⟨0, 1, 2, 0, false, false, 0⟩) := by decide +kernel
theorem test_word_carm_x : decodeGroom 0 0b110000_0000_0111_1000_000001_1_0_000000#32 = some (.carm 0 ⟨0, 7, 8, 1, true, false, 0⟩) := by decide +kernel
theorem test_word_hact : decodeGroom 0 0b110110_0000_0111_0000_000000_0_0_001111#32 = some (.hact 0 ⟨0, 7, 0, 0, false, false, 15⟩) := by decide +kernel
theorem test_word_bpost : decodeGroom 0 0b111000_0000_0001_0010_000000_0_0_111101#32 = some (.bpost 0 ⟨0, 1, 2, 0, false, false, 61⟩) := by decide +kernel
theorem test_word_spw : decodeGroom 0 0xEE780000#32 = some (.spw 0 ⟨9, 14, 0, 0, false, false, 0⟩) := by decide +kernel
theorem test_word_spx : decodeGroom 0 0b111100_0000_0011_0000_000001_0_0_000000#32 = some (.spx 0 ⟨0, 3, 0, 1, false, false, 0⟩) := by decide +kernel
theorem test_word_tlast : decodeGroom 0 0b111110_0011_0000_0000_000001_0_0_000001#32 = some (.tlast 0 ⟨3, 0, 0, 1, false, false, 1⟩) := by decide +kernel
theorem test_word_unlisted : decodeGroom 0 0#32 = none ∧ decodeGroom 0 0xFFFFFFFF#32 = none ∧
    decodeGroom 0 0b000001_0000_0000_0000_00000000_010000#32 = none ∧ decodeGroom 0 0b010100_0000_0000_0000_00000000_000010#32 = none := by decide +kernel

/-! ### Memory and numbers -/

theorem test_memory_read_after_write : memBytes (memPut (memPut [] 8 [1, 2, 3]) 9 [0]) 7 5 = [0, 1, 0, 3, 0] := by decide +kernel
theorem test_crc8_check_value : crc8 [0x31, 0x32, 0x33, 0x34, 0x35, 0x36, 0x37, 0x38, 0x39] = 0x4B := by decide +kernel
theorem test_passed_half_circle : passed 0 0 = true ∧ passed 0 (BitVec.ofNat 48 (2 ^ 47 + 1)) = true ∧ passed 0 (BitVec.ofNat 48 (2 ^ 47)) = false ∧
    passed 0 1 = false := by decide +kernel

/-! ### What the hypotheses of the statements ask, as Booleans -/

/-- `Accepted` as a Boolean. -/
def acceptedB (c : Instr) (s : State) : Bool := match request c with | some (cmd, q) => accepts cmd q s | none => false

theorem accepted_iff (c : Instr) (s : State) : Accepted c s ↔ acceptedB c s = true := by
  unfold Accepted acceptedB; cases request c <;> simp

/-- `PageIn` as a Boolean. -/
def pageInB (tid : Tid) (s : State) : Bool :=
  let t := s.thr[tid];
  let g := s.prog[t.progId];
  match frameOf s t.progId (pageOf t.ctx.pc) with
  | none => g.shipped
  | some i => !g.shipped && s.frm[i].valid && (markAt s 2 (frameWord i t.ctx.pc).toNat).isNone &&
      (!t.rt || g.pinc.getD (pageOf t.ctx.pc).toNat 0 == 1)

theorem pageIn_iff (tid : Tid) (s : State) : PageIn tid s ↔ pageInB tid s = true := by
  unfold PageIn pageInB
  simp only
  split <;> simp_all [and_assoc, imp_iff_not_or]

/-- `Issues` as a Boolean. -/
def issuesB (tid : Tid) (regs : List (BitVec 4)) (s : State) : Bool :=
  canIssue s tid && !s.thr[tid].fell && pageInB tid s && (s.thr[tid].bpSkip || (breakpoint s tid).isNone) &&
    (readSet tid regs).all fun w => (markAt s 3 w).isNone

theorem issues_iff (tid : Tid) (regs : List (BitVec 4)) (s : State) : Issues tid regs s ↔ issuesB tid regs s = true := by
  simp [Issues, issuesB, pageIn_iff, and_assoc]

/-! ### Small states -/

/-- The block runs: out of reset, with VBAT, on the crystal, the Farrier up. -/
def run : State :=
  { State.reset with
    pwr := { State.reset.pwr with phase := .run, vbat := true, limp := false }
    tb := { State.reset.tb with refBrc := false, pllLock := true, coarse := false, sscPend := none }
    far := { State.reset.far with running := true, halted := false } }

/-- `run` in another power state. -/
def inPhase (p : Phase) : State := { run with pwr := { run.pwr with phase := p } }

/-- `run` with harness 0 changed: a bridge on channels 0 to 2, IDLE. -/
def har0 (f : Harness → Harness) : State :=
  { run with har := vmod run.har 0 fun k => f { k with kind := 2, hstate := .idle, mch := 0x00828180 } }

/-- `run` with unit 0 changed: held for channel 0, which is open. -/
def unit0 (f : ChanUnit → ChanUnit) : State :=
  { run with units := vmod run.units 0 fun k => f { k with ust := .held, held := true, lch := 0 }
             lmap := vmod run.lmap 0 fun m => { m with open_ := true, pch := 0 } }

/-- `run` with thread 0 READY, of a shipped program that has every channel, harness and basin. -/
def thr0 (f : Thread → Thread) : State :=
  { run with thr := vmod run.thr 0 fun k => f { k with st := .ready, slot := 0, prog := 0, bpSkip := true, fell := false }
             prog := vmod run.prog 0 fun p => { p with open_ := true, shipped := true, pages := 1, chMask := BitVec.allOnes 64, hMask := 0xFFFF, bMask := BitVec.allOnes 64, sdSize := 64 }
             eng := vmod run.eng 0 fun g => { g with retired := false, halted := false } }

/-- `run` with a key in the record's store, so that records are written. -/
def keyed : State := { run with nv := { run.nv with key := some (List.replicate 32 0) }, rcd := { run.rcd with enabled := true, shut := false } }

/-- A request of mailbox 0 with tag 7. -/
def q0 : Req := ⟨0, 7⟩

/-- Mailbox 0 of `run` holds a queued request with this code, TAG 7 and no payload. -/
def asks (cmd : Byte) : State :=
  { run with host := { run.host with order := [0], reqBusy := 1, taken := 0, mb := memPut [] 0x1000 [cmd, 7] } }

theorem test_meets_IdleStepIsOneRootEdge : State.reset.pending = [] ∧ State.reset.rootRuns = false ∧ run.pending = [] ∧ run.rootRuns = true ∧
    run.tb.refBrc = false := by decide +kernel
theorem test_meets_CommandsStayInTheirParts : ∃ t, exec .hostLostClear run = .next t := ⟨_, rfl⟩
theorem test_meets_EveryStepTakesOneCommand : ∃ t, step { run with pending := [.hostLostClear] } = .next t := ⟨_, rfl⟩
theorem test_meets_OnlyMissingRegistersStopTheBlock : (∀ a v w, Instr.hostLostClear ≠ .registerWrite a v w) ∧
    (∀ a n x, Instr.hostLostClear ≠ .rcFieldRead a n x) ∧ ∀ a, Instr.hostLostClear ≠ .loWordLatchRead a :=
  ⟨nofun, nofun, nofun⟩
theorem test_meets_TimebaseCountsAndMeasures :
    (let s : State := { run with tb := { run.tb with sscPend := some 1, sscAt := 0 } };
      (advanceTo 0 s).rootRuns = true ∧ s.tb.refBrc = false ∧ s.tb.sscPend = some 1 ∧ (advanceTo 0 s).tb.sscStep = 0 ∧
        s.tb.sscAt ≤ (advanceTo 0 s).tb.cycleStart) ∧
    run.pwr.phase = .run ∧ run.farrierWrites = true ∧ -500000 ≤ tideError false 1600000000 ∧ tideError false 1600000000 ≤ 500000 ∧
    500000 < tideError false 1700000000 ∧ run.tb.rejRun.toNat < 7 ∧
    (let s : State := { run with tb := { run.tb with rejRun := 7 } }; 7 ≤ s.tb.rejRun.toNat ∧ s.rsv.onTrc = false ∧ s.rsv.trcFail = false) ∧
    (let s : State := { run with tb := { run.tb with refreshOn := true, refreshAt := 5 } };
      (tidePass 5 s).tb.refreshOn = true ∧ (tidePass 5 s).rsv.tide = (tidePass 5 s).tb.refreshAt ∧ (tidePass 4 s).rsv.tide ≠ (tidePass 4 s).tb.refreshAt) ∧
    (let s : State := { run with tb := { run.tb with refBrc := true } }; s.tb.refBrc = true ∧ s.tb.pllLock = true) := by decide +kernel
theorem test_meets_TideSourceChanges : run.rsv.onTrc = false ∧ run.rsv.trcFail = false ∧ run.farrierWrites = true ∧
    (let s : State := { run with rsv := { run.rsv with onTrc := true, trcFail := true }, tb := { run.tb with xtalGood := true } };
      s.rsv.onTrc = true ∧ s.rsv.trcFail = true ∧ s.tb.xtalGood = true ∧ (advanceTo 0 s).clkHeld 2 = false) := by decide +kernel
theorem test_meets_TideAlarmFires :
    let s : State := { run with rsv := { run.rsv with talarmEn := true, talarm := 5 } };
    (let a := tidePass 5 (advanceTo 0 s); a.rsv.talarmEn = true ∧ passed a.rsv.tide a.rsv.talarm = true) ∧
    (let a := tidePass 4 (advanceTo 0 s); a.rsv.talarmEn = true ∧ passed a.rsv.tide a.rsv.talarm = false) := by decide +kernel
theorem test_meets_ClockFailures : run.pwr.phase = .run ∧ run.tb.refBrc = false ∧ run.rsv.deepFlag = false ∧ run.tb.pllLock = true ∧
    run.dbg.walkDone = false ∧ run.clkHeld 0 = false ∧ run.clkHeld 1 = false ∧
    (let s : State := { run with tb := { run.tb with refBrc := true, pllLock := false } };
      s.tb.refBrc = true ∧ s.tb.pllLock = false ∧ (advanceTo 0 s).clkHeld 0 = false ∧ s.clkHeld 1 = false) ∧
    (inPhase .bootWait).pwr.phase = .bootWait ∧ (inPhase .bootWait).tb.refBrc = false ∧ (levelNow run .clk = 1 ∨ levelNow run .clk = 2) := by
  decide +kernel
theorem test_meets_EpochStart :
    let s : State := { run with rcd := { run.rcd with epochPend := some (3, []) } };
    s.rcd.epochPend = some (3, []) ∧ s.farrierWrites = true ∧ run.rcd.epochPend = none := by decide +kernel
theorem test_meets_SleepAndWakeLadder :
    (let s : State := { run with far := { run.far with sleepPend := some 1 } };
      s.pwr.phase = .run ∧ s.far.sleepPend.isSome = true ∧ s.host.reqBusy = 0 ∧ s.probing = false ∧ s.far.halted = false) ∧
    (let s := inPhase .sleepEntry; s.pwr.phase = .sleepEntry ∧ s.ps.parkInt = 0 ∧ s.rsv.talarmEn = false) ∧
    (let s : State := { inPhase .sleep with rsv := { run.rsv with arm := 1 } };
      edgeTaken s 0 true = true ∧ s.pinsCut = false ∧ bit s.rsv.arm 0 = true ∧ s.pwr.phase = .sleep ∧ edgeTaken s 0 false = false) ∧
    ((inPhase .wakePll).pwr.phase = .wakePll ∧ (inPhase .wakePll).clkHeld 1 = false) ∧
    (let s : State := { inPhase .wakeLocked with tb := { run.tb with coarse := true } };
      s.pwr.phase = .wakeLocked ∧ s.tb.coarse = true ∧ passed 1 s.rsv.tide = true ∧ s.dbg.walkDone = false) ∧
    (let s : State := { keyed with pwr := { keyed.pwr with phase := .wakeReseeded }, tb := { keyed.tb with gapDue := [mkEntry 2 1 0 0 0 0] } };
      s.pwr.phase = .wakeReseeded ∧ s.tb.pllLock = true ∧ s.dbg.walkDone = false ∧ s.far.halted = false ∧ s.tb.gapDue = [mkEntry 2 1 0 0 0 0] ∧
      s.parkWake = false ∧ s.rcd.due = [] ∧ CanRecord s) ∧
    (let s : State := { inPhase .sleep with tb := { run.tb with coarse := true } };
      s.tb.coarse = true ∧ s.pwr.phase ≠ .deep ∧ s.pwr.phase ≠ .held) ∧ (inPhase .deep).pwr.phase = .deep ∧
    (run.tb.coarse = false ∧ run.pwr.phase ≠ .deep ∧ run.pwr.phase ≠ .held) := by
  simp only [CanRecord]; decide +kernel
theorem test_meets_ResetSourcesHold : run.pwr.phase ≠ .deep ∧ run.rsv.deepFlag = false ∧ run.pinsCut = false ∧
    (let s : State := { run with fsh := { run.fsh with dbgLock := false } }; s.tapOn = true ∧ s.dbgOpen = true) ∧
    (let s : State := { run with far := { run.far with wdtAt := 0, wdtStop := none }, tb := { run.tb with dt := 16000000 } };
      (advanceTo 0 s).wdtRuns = true ∧ 16000000 ≤ (advanceTo 0 s).wdtTicks) ∧
    (let s : State := { run with far := { run.far with rstPend := true, rstAt := 0 }, tb := { run.tb with dt := 160000000 } };
      s.far.rstPend = true ∧ s.far.halted = false ∧ 160000000 ≤ ((advanceTo 0 s).tb.dt - s.far.rstAt).toNat) := by decide +kernel
theorem test_meets_ReleaseAndSupplies :
    (let s : State := { inPhase .held with pwr := { run.pwr with phase := .held, level := 0 } };
      s.pwr.phase = .held ∧ s.pwr.vbat = true ∧ s.pwr.level ≠ 2) ∧
    (let s : State := { inPhase .held with pwr := { run.pwr with phase := .held, level := 2 } };
      s.pwr.phase = .held ∧ s.pwr.vbat = true ∧ s.pwr.level = 2) ∧
    (let s : State := { run with pwr := { run.pwr with vbat := false, phase := .deep }, rsv := { run.rsv with deepFlag := true, arm := 4 } };
      s.pwr.vbat = false ∧ s.pwr.phase = .deep ∧ s.rsv.deepFlag = true ∧ bit s.rsv.arm 2 = true) ∧
    (let s : State := { run with pwr := { run.pwr with vbat := false } };
      s.pwr.vbat = false ∧ s.pwr.phase ≠ .deep ∧ s.pwr.phase ≠ .sleep ∧ s.rsv.deepFlag = false) ∧
    (let s : State := { run with far := { run.far with wdtAt := 0, wdtStop := none, wdtWarned := false }, tb := { run.tb with dt := 12800000 } };
      (advanceTo 0 s).wdtRuns = true ∧ s.far.wdtWarned = false ∧ 12800000 ≤ (advanceTo 0 s).wdtTicks) ∧ run.hlt.wdtInj = false := by decide +kernel
theorem test_meets_RegisterReadsLatchAndClear : blockOf 0x42F00000 = none ∧ blockOf 1 = none ∧ (blockOf 0x42000008).isSome = true := by decide +kernel
theorem test_meets_RegisterWritesReachTheirRegister : Memory.wf run.bmem = true ∧ 0x3FFFC < 0x40000 ∧ 0x3FFFC % 4 = 0 ∧
    (har0 id).har[(0 : Fin 16)].power = true := by decide +kernel
theorem test_meets_CrossingEventsAreRouted :
    (let e : XEv := { XEv.reset with what := 0, lch := 0 };
      let s : State := { thr0 id with xing := vmod run.xing 0 fun x => { x with fifo := [e] }
                                      lmap := vmod run.lmap 0 fun m => { m with open_ := true, tbind := true, tid := 0 }
                                      tb := { run.tb with dt := 8 } };
      dispatchTurn (advanceTo 0 s) 0 = true ∧ s.xing[0].fifo = [e] ∧ e.what.toNat ≤ 5 ∧ e.post = none ∧ (∀ h : HarnessId, s.har[h].mot.prog ≠ .bridge) ∧
        s.lmap[0].open_ = true ∧ s.lmap[0].tbind = true ∧ bvFin 64 rfl s.lmap[0].tid = 0 ∧ s.thr[0].st = .ready ∧ s.thr[0].evq.length < 8 ∧
        dispatchTurn (advanceTo 0 { s with tb := { s.tb with dt := 7 } }) 0 = false) ∧
    (let e : XEv := { XEv.reset with what := 5, lch := 0 };
      let s : State := { run with xing := vmod run.xing 0 fun x => { x with fifo := [e] }, tb := { run.tb with dt := 8 }
                                  gt := vmod run.gt 1 fun k => { k with gs := .seek } };
      dispatchTurn (advanceTo 0 s) 0 = true ∧ s.xing[0].fifo = [e] ∧ 3 ≤ e.what.toNat ∧ s.gt[1].gs ≠ .off ∧ s.gt[1].wheelCh = 0) := by decide +kernel
theorem test_meets_LinkFramesAndFaultFrames :
    (let s : State := { har0 id with link := { run.link with queue := [(0x21000014, 0x00280000)] } };
      s.link.queue = [(0x21000014, 0x00280000)] ∧ harRefused s 0 0x14 0x00280000 = false ∧ s.har[0].power = true ∧ s.link.cfgReply = none ∧
      s.link.failed true < 3 ∧ ¬ ({ s.link with tries := 3, tryOwn := true } : LinkBlk).failed true < 3) ∧
    (let s : State := { har0 id with link := { run.link with queue := [(0x21000014, 0x00280000)], cfgReply := some ⟨0, 7, 1, true⟩ } };
      harRefused s 0 0x14 0x00280000 = false ∧ s.link.cfgReply = some ⟨0, 7, 1, true⟩ ∧ s.farrierUp = true) ∧
    (let s : State := har0 fun k => { k with flag := some (2, 0, 5) };
      s.har[0].power = true ∧ flagDue s 0 2 0 5 = true ∧ flagDue s 0 8 0 5 = false) ∧
    (let s : State := har0 fun k => { k with flag := some (9, 1, 5) }; flagDue s 0 9 1 5 = true) ∧
    run.link.queue = [] ∧ run.har[0].power = false := by decide +kernel
theorem test_meets_ChannelControlWrites :
    (let s := unit0 fun k => { k with ctrl := 1 };
      s.units[0].en = true ∧ fld (3 : W32) 1 2 ≠ s.units[0].mode ∧ s.units[0].ctrlRefused (3 &&& ctrlMask) = true ∧
      s.units[0].ctrlRefused (0 &&& ctrlMask) = false) ∧
    (let s := unit0 fun k => { k with ctrl := 0, prd := 4 };
      s.units[0].ctrlRefused (1 &&& ctrlMask) = false ∧ s.units[0].en = false ∧ s.units[0].lock = false) := by decide +kernel
theorem test_meets_ChannelCompareAndShadowWrites : (let s := unit0 fun k => { k with ctrl := 0 }; s.units[0].upd = 0 ∧ s.units[0].lock = false) ∧
    (unit0 fun k => { k with ctrl := 8 }).units[0].upd ≠ 0 := by decide +kernel
theorem test_meets_ChannelForces : gateLine run run.units[0].lchId = false ∧ gateLine (har0 id) 0 = true := by decide +kernel
theorem test_meets_ChannelMatches :
    (let s := unit0 fun k => { k with ctrl := 0x01, armA := true, effA := true, cmpA := 0, act := 0x400 };
      firstEvent (dueEvents (advanceTo 0 s) 0) = some (.free false) ∧ s.units[0].upd ≠ 4 ∧
      (fld s.units[0].act 10 2 : BitVec 2) ≠ 0 ∧ (fld s.units[0].act 12 2 : BitVec 2) = 0 ∧
      (run.xing[0].settle 0 run.now).fifo.length < 4 ∧ ∀ x ∈ dueEvents (advanceTo 0 s) 0, x.2.2 ≠ .free true) ∧
    (let s := unit0 fun k => { k with ctrl := 0x21, armA := true, effA := true, cmpA := 0, shvA := true };
      firstEvent (dueEvents (advanceTo 0 s) 0) = some (.free false) ∧ s.units[0].upd = 4 ∧ s.units[0].lock = false ∧
      (s.units[0].shvA && !sameCycle s.units[0].shEA (s.inst (((s.units[0].fireAt false >>> 3) + 1) <<< 3))) = true) ∧
    (let s : State := { run with units := run.units.map fun k => { k with ctrl := 0x2D000000 } };
      ∀ v : UnitId, 40 ≤ s.units[v].insel.toNat ∧ s.units[v].insel ≠ 46) ∧
    (let a := advanceTo 0 run; boundaryDue a 0 = false ∧ earlyDue a 0 = false ∧ topDue a 0 = false) := by decide +kernel
theorem test_meets_ChannelMatches_effective :
    let s := unit0 fun k => { k with ctrl := 1, armA := true, effA := false, effTA := 0, cmpA := 0 };
      unitFine (advanceTo 0 s) 0 = true ∧ s.units[0].eff false = false ∧ passed s.nowEv (s.units[0].effT false) = true ∧ s.units[0].upd ≠ 4 ∧
      s.units[0].en = true ∧ s.units[0].mode = 0 ∧ s.units[0].arm false = true ∧
      passed s.nowEv (0 + s.units[0].trim (s.units[0].freeAct false)) = true ∧
      passed s.nowEv (1 + s.units[0].trim (s.units[0].freeAct false)) = false := by decide +kernel
theorem test_meets_ChannelMatches_local :
    (let s : State := { unit0 fun k => { k with ctrl := 3, prd := 10, prdRun := 10, effA := true, cmpA := 5, doneA := BitVec.allOnes 48 } with tb := { run.tb with dt := 10 } };
      firstEvent (dueEvents (advanceTo 0 s) 0) = some (.local_ false false) ∧ localDue (advanceTo 0 s) 0 false false = some 5 ∧ s.units[0].upd ≠ 4) ∧
    (let s : State := { unit0 fun k => { k with ctrl := 3, prd := 10, prdRun := 10 } with tb := { run.tb with dt := 25 } };
      firstEvent (dueEvents (advanceTo 0 s) 0) = some .boundary ∧ s.units[0].upd = 0) ∧
    (let s : State := { unit0 fun k => { k with ctrl := 0x0B, prd := 10, prdRun := 10 } with tb := { run.tb with dt := 1000 } };
      firstEvent (dueEvents (advanceTo 0 s) 0) = some .boundary ∧ s.units[0].upd = 1 ∧ s.units[0].lock = false) ∧
    (let s : State := { unit0 fun k => { k with ctrl := 7, prd := 10, prdRun := 10 } with tb := { run.tb with dt := 25 } };
      firstEvent (dueEvents (advanceTo 0 s) 0) = some .top ∧ ∀ x ∈ dueEvents (advanceTo 0 s) 0, x.2.2 ≠ .local_ false false) := by decide +kernel
theorem test_meets_ChannelInputs :
    (let s := unit0 fun k => { k with ctrl := 0x401, cap := { k.cap with raw := false, cand := none } };
      s.units[0].insel.toNat < 40 ∧ unitFine (advanceTo 0 s) 0 = true ∧ s.pinsCut = false ∧ s.units[0].cap.raw ≠ true ∧ s.units[0].cap.undo = none ∧
      s.units[0].cap.cand = none ∧ (true ^^ bit s.units[0].ctrl 12) ≠ s.units[0].cap.inn ∧ (true ^^ bit (0x1401 : W32) 12) = s.units[0].cap.inn) ∧
    (let s := unit0 fun k => { k with ctrl := 0x101401, cap := { k.cap with raw := false, cand := some { level := true, stamp := 0, coarse := false } } };
      unitFine (advanceTo 0 s) 0 = true ∧ s.units[0].cap.cand ≠ none ∧ candDue (advanceTo 0 s) 0 = false ∧ (true ^^ bit s.units[0].ctrl 12) = s.units[0].cap.inn) ∧
    (let s := unit0 fun k => { k with ctrl := 0x401, cap := { k.cap with raw := false, undo := some (0, none, 3) } };
      sameCycle 0 (s.inst s.nowEv) = true ∧ s.units[0].cap.undo = some (0, none, 3) ∧ candDue (advanceTo 0 s) 0 = false) ∧
    (let s : State := { unit0 fun k => { k with ctrl := 0x501, cap := { k.cap with cand := some { level := true, stamp := 0, coarse := false } } } with
        tb := { run.tb with dt := 3 } };
      unitFine (advanceTo 0 s) 0 = true ∧ candDue (advanceTo 0 s) 0 = true ∧ s.units[0].en = true ∧ s.units[0].capm = 1 ∧ bit s.units[0].ctrl 10 = true) ∧
    (let s : State := { unit0 fun k => { k with ctrl := 0x900, cap := { k.cap with cand := some { level := false, stamp := 0, coarse := false } } } with
        tb := { run.tb with dt := 3 } };
      unitFine (advanceTo 0 s) 0 = true ∧ candDue (advanceTo 0 s) 0 = true ∧ s.units[0].en = false ∧ s.units[0].capm = 1 ∧ bit s.units[0].ctrl 11 = true) ∧
    (let s : State := { unit0 fun k => { k with ctrl := 0x201, cap := { k.cap with cand := some { level := false, stamp := 0, coarse := false } } } with
        tb := { run.tb with dt := 3 } };
      unitFine (advanceTo 0 s) 0 = true ∧ candDue (advanceTo 0 s) 0 = true ∧ s.units[0].en = true ∧ s.units[0].capm = 2 ∧
      s.units[0].cap.gotRise = false) ∧ candDue run 0 = false := by decide +kernel
theorem test_meets_EnginesAndThreadTimers :
    run.eng[0].retired = false ∧ (∀ tid : Tid, run.thr[tid].st ≠ .ready) ∧
    (let s := thr0 fun k => { k with rt := true, cyc := some 3, ovrDone := false, budget := 5 };
      s.thr[0].rt = true ∧ s.thr[0].cyc.any (fun k => k ≤ 6) = true ∧ s.thr[0].ovrDone = false ∧ s.thr[0].budget.toNat < (6 : W32).toNat ∧
      (5 : W32).toNat ≤ s.thr[0].budget.toNat ∧ bit s.hlt.dlnInj 0 = false) ∧
    (let s := thr0 fun k => { k with timer := some 0, evq := [] }; let s : State := { s with prog := vmod s.prog 0 fun p => { p with tab := [{ ThrEnt.reset with tid := 1 }] } };
      (advanceTo 0 s).thr[0].timer = some 0 ∧ (advanceTo 0 s).engClock = true ∧ passed (advanceTo 0 s).nowEv 0 = true ∧
      motionOf (advanceTo 0 s) 0 = none ∧ s.thr[0].st ≠ .wait) := by decide +kernel
theorem test_meets_PageFills :
    let s : State := { run with frm := vmod run.frm 5 fun f => { f with used := true, valid := false, repair := false, pref := false, prog := 2, page := 3, tries := 0 } };
    comingIn s 2 3 false = some 5 ∧ crc32 ([] : List Byte) ≠ s.prog[2].pcrc.getD 3 1 ∧ s.frm[5].tries = 0 ∧ s.ost.fillQ = [] ∧
      comingIn run 2 3 false = none := by decide +kernel
theorem test_meets_BasinCommands :
    (let s : State := { run with bas := vmod run.bas 7 fun k => { k with open_ := true, ring := [4], wrCnt := 3, rdCnt := 1, ovf := false, ceil := 1, age := 1, arr := [0, 0], aged := false }, tb := { run.tb with dt := 1600000 } };
      s.bas[7].open_ = true ∧ s.bas[7].wrCnt.toNat % 64 ≠ 0 ∧ s.bas[7].ovf = false ∧ (∀ tid : Tid, bit s.thr[tid].subB 7 = false) ∧
      Memory.wf s.bmem = true ∧ 0 < s.bas[7].occ ∧ s.bas[7].aged = false ∧ s.bas[7].old (advanceTo 0 s).tb.dt = true ∧ s.bas[7].old 1599999 = false ∧
      s.bas[7].occ < ((4 : W32) - s.bas[7].rdCnt).toNat ∧ ((3 : W32) - s.bas[7].rdCnt).toNat ≤ s.bas[7].occ ∧ ∀ tid : Tid, s.thr[tid].stallOn ≠ .post) ∧
    (let s : State := { run with bas := vmod run.bas 7 fun k => { k with open_ := true, ring := [4], wrCnt := 64, rdCnt := 1, ovf := true, ceil := 1, policy := 0 } };
      s.bas[7].wrCnt.toNat % 64 = 0 ∧ s.bas[7].nextUnread = true ∧ s.bas[7].ceil.toNat ≤ s.bas[7].ring.length ∧ s.bas[7].policy ≠ 1 ∧ s.bas[7].ovf = true) ∧
    run.bas[7].open_ = false := by decide +kernel
theorem test_meets_SpillwayCommands :
    (let s : State := { unit0 id with spw := { run.spw with
        x78 := [9], ent := vmod run.spw.ent 9 fun e => { e with valid := true, conf := true, time := 64, tkind := 0, tgt := 0, trel := false } } };
      let a := advanceTo 0 s;
      a.engClock = true ∧ nextX78 a = some 9 ∧ commHarness a a.spw.ent[9] = none ∧ leadOf a a.spw.ent[9] = 64 ∧
      a.spw.x78At.any (fun x => sameCycle x a.now) = false ∧ leadOf a { a.spw.ent[9] with time := 63 } < 64 ∧ a.spw.ent[9].chan.bind (unitOf a) = some 0) ∧
    (let s : State := { har0 id with spw := { run.spw with
        x78 := [9], ent := vmod run.spw.ent 9 fun e => { e with valid := true, conf := true, time := 80, tkind := 2, tgt := 0, hact := 0x20000000 } } };
      nextX78 s = some 9 ∧ commHarness s s.spw.ent[9] = none ∧ 64 ≤ leadOf s s.spw.ent[9] ∧ s.spw.ent[9].chan = none ∧ s.spw.ent[9].harness = some 0 ∧
      s.har[0].kind ≠ 0 ∧ s.har[0].hstate ≠ .fault) ∧
    (let s : State := { run with spw := { run.spw with ent := vmod run.spw.ent 9 fun e => { e with valid := true, conf := false, expiry := 0 } } };
      s.spw.ent[9].valid = true ∧ s.spw.ent[9].conf = false ∧ passed s.nowEv s.spw.ent[9].expiry = true ∧ commHarness s s.spw.ent[9] = none) := by
  decide +kernel
theorem test_meets_HarnessActions :
    (let s := har0 id; s.har[0].live = true ∧ s.har[0].kind = 2 ∧ fld (0 : BitVec 9) 0 3 ≠ (6 : BitVec 3) ∧
      fld (0x000FAFA : BitVec 28) 26 2 = (0 : BitVec 2) ∧ (fld (0x000FAFA : BitVec 28) 24 2 : BitVec 2).toNat = 0 ∧
      (fld (0x000FAFA : BitVec 28) 0 8).toNat ≤ 250 ∧ (fld (0x000FAFA : BitVec 28) 8 8).toNat ≤ 250 ∧ ¬ (fld (0x00000FB : BitVec 28) 0 8).toNat ≤ 250) ∧
    run.har[0].kind = 0 ∧
    (let s : State := { unit0 fun k => { k with ctrl := 0x28, shvA := true } with har := (har0 id).har };
      (0 : UnitId) ∈ s.har[0].channels.filterMap (unitOf s) ∧ s.units[0].upd = 5 ∧ s.units[0].lock = false ∧ s.units[0].shvA = true ∧
      s.units[1].upd ≠ 5) ∧
    (let s : State := { run with har := vmod run.har 0 fun k => { k with hstate := .safe, actPend := false } };
      s.har[0].hstate = .safe ∧ s.har[0].live = false ∧ s.har[0].actPend = false) ∧ run.har[0].hstate ≠ .safe := by decide +kernel
/-- Members with every setting 0. -/
def bare : Vector Member 4 := Vector.replicate 4 { w0 := 0, w1 := 0, w2 := 0, lvl := none, req := 0, off := false, start := 0, sw := 0, winLen := 0 }

theorem test_meets_TimedActionsAndWindows :
    (let s : State := { run with har := vmod run.har 0 fun k => { k with kind := 2, hstate := .idle, actPend := true, actEff := 0, actTime := 0, actWord := 0x30000000 } };
      timedDue (advanceTo 0 s) 0 = true ∧ s.har[0].hstate ≠ .safe ∧ s.har[0].actWord = 0x30000000) ∧
    (let s : State := { run with har := vmod run.har 0 fun k => { k with hstate := .safe, actPend := true, actEff := 0, actTime := 0, actWord := 0x20000000 } };
      timedDue (advanceTo 0 s) 0 = true ∧ s.har[0].hstate = .safe ∧ fld s.har[0].actWord 28 4 = (2 : BitVec 4)) ∧
    (let s : State := { run with har := vmod run.har 0 fun k => { k with kind := 1, hstate := .run, w18 := 0, mem := bare, win := 3, peak := 1, defd := 0 } };
      let a := advanceTo 0 s;
      inPeak a 0 0 = true ∧ s.har[0].blank ≤ inWindow a 0 0 ∧ (fld s.har[0].mem[0].w0 8 8).toNat ≤ 0 ∧ s.har[0].defd = 0 ∧
        6400 * (fld s.har[0].mem[0].w1 16 12).toNat ≤ inWindow a 0 0) ∧
    (let s : State := { run with har := vmod run.har 0 fun k => { k with kind := 1, hstate := .run, w18 := 0, mem := bare, win := 3, peak := 1, defd := 2 } };
      inPeak (advanceTo 0 s) 0 0 = true ∧ setBit s.har[0].peak 0 false = 0 ∧ ∀ j : Fin 4, bit s.har[0].defd j.val = decide (j = 1)) ∧
    (let s : State := { run with har := vmod run.har 0 fun k => { k with kind := 2, hstate := .run, mem := bare, phase := 5 } };
      let a := advanceTo 0 s;
      regulating a 0 0 = true ∧ s.har[0].mem[0].off = false ∧ (fld s.har[0].mem[0].w0 8 8).toNat ≤ 0 ∧ s.har[0].cut = false ∧
        3200 * (fld s.har[0].mem[0].w2 8 8).toNat ≤ sinceSwitch a 0 0) ∧
    (let s : State := { run with har := vmod run.har 0 fun k => { k with kind := 1, hstate := .run, win := 1, mem := vmod bare 0 fun x => { x with w0 := 0x64C80001, off := true } } };
      let a := advanceTo 0 s;
      regulating a 0 0 = true ∧ s.har[0].mem[0].off = true ∧ 3200 * (fld s.har[0].mem[0].w2 8 8).toNat ≤ sinceSwitch a 0 0 ∧
        100 ≤ (fld s.har[0].mem[0].w0 24 8).toNat) ∧
    (let s : State := { run with har := vmod run.har 0 fun k => { k with kind := 1, hstate := .run, regLs := true, win := 0, ovEnd := some 0 }, tb := { run.tb with dt := 1600 } };
      s.har[0].kind = 1 ∧ s.har[0].regLs = true ∧ s.har[0].startedCount < 2 ∧
        s.har[0].ovEnd.any (fun e => 6400 ≤ ((advanceTo 0 s).nowEv - e).toNat) = true) ∧
    (let s : State := { run with har := vmod run.har 0 fun k => { k with kind := 1, hstate := .run, win := 2, defd := 2 }, tb := { run.tb with dt := 100000000 } };
      deferDue (advanceTo 0 s) 0 1 = true) ∧
    timedDue run 0 = false ∧ inPeak run 0 0 = false ∧ regulating run 0 0 = false ∧ deferDue run 0 0 = false := by decide +kernel
theorem test_meets_PowerStageFaults :
    (let s : State := { har0 fun k => { k with hsd := 3, cut := false, w14 := 0 } with link := { run.link with deadOn := 8 } };
      let a := advanceTo 0 s;
      s.har[0].kind = 2 ∧ s.har[0].live = true ∧ s.har[0].cut = false ∧ s.har[0].hsd.toNat + 2 < 6 ∧ s.har[0].power = true ∧
      bit a.link.deadOn 3 = true ∧ 8 * (fld s.har[0].w14 16 12).toNat ≤ (a.nowEv - a.link.dueAt[3]).toNat ∧ a.link.isOn 9 = false ∧
      2100 ≤ 8 * 263 ∧ ¬ 2100 ≤ 8 * 262 ∧ (s.har[0].memberCh 0).isSome = true ∧ blanked a 0 (s.har[0].driversOf 0) = true ∧
      (fld s.har[0].mem[0].w1 0 8).toNat ≤ 255) ∧
    run.har[0].power = false ∧ run.link.hg = 0 ∧ run.link.lg = 0 ∧
    (let s : State := { run with link := { run.link with hg := 1, cpRun := true, cpReady := false, cpOpen := none, cpAt := 0 }, tb := { run.tb with dt := 1600000 } };
      let a := advanceTo 0 s;
      s.link.hg ≠ 0 ∧ a.farrierUp = true ∧ s.link.cpRun = true ∧ s.link.cpReady = false ∧ pumpHeld s = false ∧ s.link.cpOpen = none ∧
      (a.nowEv - a.link.cpAt).toNat = 6400000) ∧
    (let s : State := { run with link := { run.link with cpRun := true, cpReady := false, cpOpen := some ⟨0, 7, 0, 2, 0, 0x00828180, 0, 0⟩ } };
      pumpHeld s = false ∧ s.farrierUp = true ∧ s.link.cpOpen = some ⟨0, 7, 0, 2, 0, 0x00828180, 0, 0⟩) := by decide +kernel
/-- `run` with a bridge program in state `st` on harness 0, run by thread 0. -/
def bridge (st : Byte) (f : Motion → Motion) : State :=
  { har0 fun k => { k with phase := 0o531, mot := f { k.mot with prog := .bridge, st := st } } with
    prog := vmod run.prog 6 fun p => { p with open_ := true, shipped := true, har := 0, hMask := 1, chMask := 7, tab := [{ ThrEnt.reset with tid := 0 }] }
    thr := vmod run.thr 0 fun k => { k with st := .ready, prog := 6, timer := some 0 } }

theorem test_meets_BridgeProgram :
    (let a := advanceTo 0 (bridge 1 id); let m := a.har[0].mot;
      motIn a 0 .bridge 1 = true ∧ m.caught = none ∧ 6400000 * m.p 1 ≤ (a.nowEv - m.at_).toNat ∧ m.turning = none ∧ a.har[0].live = true ∧ a.har[0].kind = 2) ∧
    (let m := (bridge 1 fun m => { m with xs := [(2000, 2), (1000, 1), (0, 0)], par := m.par.set 0 4 }).har[0].mot; m.turning = some true ∧ m.p 2 < m.observed.toNat) ∧
    (let m := (bridge 1 fun m => { m with xs := [(2000, 0), (1000, 1), (0, 2)], par := m.par.set 0 4 }).har[0].mot; m.turning = some false ∧ m.p 3 < m.observed.toNat) ∧
    (let a := advanceTo 0 (bridge 3 fun m => { m with par := m.par.set 10 1 }); let m := a.har[0].mot;
      motIn a 0 .bridge 3 = true ∧ 6400000 * m.p 5 ≤ (a.nowEv - m.at_).toNat ∧ motionProg a 0 = some 6 ∧ m.p 10 = 1) ∧
    (let a := advanceTo 0 { bridge 4 id with tb := { run.tb with dt := 800000000 } };
      motIn a 0 .bridge 4 = true ∧ a.har[0].mot.rampDone (a.nowEv - 3200000000) = true) ∧
    (let a := advanceTo 0 { bridge 2 id with tb := { run.tb with dt := 800000000 } }; let m := a.har[0].mot;
      motIn a 0 .bridge 2 = true ∧ m.peek = false ∧ 3200000000 ≤ (a.nowEv - m.at_).toNat ∧ 6400000 * m.p 4 ≤ (a.nowEv - m.brakeAt).toNat) ∧
    (let a := advanceTo 0 (bridge 2 fun m => { m with peek := true }); let m := a.har[0].mot;
      motIn a 0 .bridge 2 = true ∧ m.peek = true ∧ m.peekLen ≤ (a.nowEv - m.at_).toNat) ∧
    (let a := advanceTo 0 (bridge 4 id);
      a.engClock = true ∧ a.thr[0].timer = some 0 ∧ passed a.nowEv 0 = true ∧ motionOf a 0 = some 0 ∧ a.har[0].mot.prog = .bridge ∧ a.har[0].mot.st = 4 ∧
        motionProg a 0 = some 6 ∧ firstTid a 6 = 0 ∧ a.har[0].live = true) ∧
    (let a := advanceTo 0 (bridge 5 fun m => { m with comm := 3, misses := 1 }); a.har[0].mot.comm = 3 ∧ a.har[0].mot.misses ≠ 0 ∧ motionOf a 0 = some 0) ∧
    (let s := bridge 5 id; let s : State := { s with har := vmod s.har 0 fun k => { k with actPend := true, actWord := 0x40000008 } };
      timedDue (advanceTo 0 s) 0 = true ∧ s.har[0].mot.prog = .bridge ∧ s.har[0].mot.st = 5 ∧ s.har[0].kind = 2 ∧ s.har[0].live = true ∧
        s.har[0].actWord = 4#4 ++ 0#19 ++ (8 : BitVec 9) ∧ ∀ p : Fin 3, fld (8 : BitVec 9) (3 * p.val) 3 ≠ (6 : BitVec 3)) := by decide +kernel

/-- `bridge` in RUN whose blanking of 100 fines is over, with the last crossing at `x` and phase 0 afloat. -/
def blanking (x : EvTime) : State :=
  { bridge 5 fun m => { m with t60 := 100, lastX := x } with
    har := vmod (bridge 5 fun m => { m with t60 := 100, lastX := x }).har 0 fun k => { k with phase := 0o530 }, tb := { run.tb with dt := 100 } }

/-- The entry of `blanking` with a phase word. -/
def blankingEnt (x : EvTime) (ph : BitVec 9) : SpwEnt :=
  { SpwEnt.reset with
    time := BitVec.ofNat 48 (openDiv (100 * (30 - 0)) 60), tkind := 2, ckind := 2, csrc := 0, carg := 2, trel := true, expiry := x + 200
    hact := 4#4 ++ (0#19 : BitVec 19) ++ ph }

theorem test_meets_BridgeProgram_blanking :
    (∀ b : Bool, let a := advanceTo 0 (blanking 0); blankOver a 0 = true ∧ motionProg a 0 = some 6 ∧ spwRefusal a 6 (blankingEnt 0 (if b then 68 else 67)) 0 = some 3) ∧
    (∀ b : Bool, let a := advanceTo 0 (blanking 350); blankOver a 0 = true ∧ spwRefusal a 6 (blankingEnt 350 (if b then 68 else 67)) 0 = none) ∧
    blankOver (advanceTo 0 run) 0 = false := by decide +kernel
theorem test_meets_BridgeProgram_entry : commEntry (blanking 0).har[0] = some (blankingEnt 0 (commPhases 1)) ∧
    commPhases 1 = if Config.commHigh 1 then 68 else 67 := by
  refine ⟨rfl, ?_⟩
  unfold commPhases
  cases Config.commHigh 1 <;> decide
theorem test_meets_BridgeProgram_axis :
    (let s := har0 fun k => { k with kind := 3, mot := { k.mot with prog := .axis, armed := true, stopping := 0, fall := 0, st := 1, target := 5, vsq := 1 } };
      let m := s.har[0].mot; m.prog = .axis ∧ m.armed = true ∧ passed (advanceTo 0 s).nowEv m.fall = true ∧ m.stopping = 0 ∧ m.vsq ≠ 0 ∧ m.st = 1 ∧
        m.p 3 = 0 ∧ m.pos + 1 ≠ m.target) ∧
    (let m := { (har0 id).har[0].mot with target := 5, pos := 1, vsq := 0, par := ((har0 id).har[0].mot.par.set 2 1).set 1 1 };
      m.reaches = true ∧ min (m.p 0 * m.p 0) (m.vsq + 2 * m.p 1) ≤ m.stopSq (m.ahead.toNat - 1)) := by decide +kernel
theorem test_meets_GaitTracking :
    run.gt[0].inbox = [] ∧
    (let y : XEv := { XEv.reset with what := 3, stamp := 100000 };
      let s : State := { run with gt := vmod run.gt 0 fun k => { k with
        inbox := [y], gs := .sync, first := false, exSeen := false, gotPer := true, per := 100000, last := 0, idx := 3, cfg := (k.cfg.set 0 0x003C0001).set 3 100 } };
      s.gt[0].inbox = y :: [] ∧
      s.gt[0].gs = .sync ∧ s.gt[0].uneven = false ∧ s.gt[0].sec = 0 ∧ s.gt[0].revSrc = 0 ∧ s.gt[0].first = false ∧ s.gt[0].exSeen = false ∧
      s.gt[0].gotPer = true ∧ s.gt[0].extraNext = false ∧ s.gt[0].noise * s.gt[0].per.toNat ≤ 1000 * (y.stamp - s.gt[0].last).toNat ∧ us5 ≤ 100000 ∧
      (1000 - s.gt[0].tol) * (1000 * s.gt[0].per.toNat) ≤ 1000000 * 100000 ∧ 1000000 * 100000 ≤ (1000 + s.gt[0].tol) * (1000 * s.gt[0].per.toNat) ∧
      s.gt[0].strict = false ∧ s.gt[0].deadline.all (fun d => 0 ≤ d) = true ∧ s.gt[0].noise * s.gt[0].per.toNat ≤ 1000 * 60000 ∧
      1000000 * 60000 < (1000 - s.gt[0].tol) * (1000 * s.gt[0].per.toNat)) ∧
    (let s : State := { run with gt := vmod run.gt 0 fun k => { k with gs := .seek, cfg := Vector.replicate 11 0, hist := [], inbox := [XEv.reset] } };
      s.gt[0].gs = .seek ∧ s.gt[0].uneven = false ∧ s.gt[0].revSrc = 0 ∧ s.gt[0].hist.length < 3 ∧ s.gt[0].inbox = XEv.reset :: []) ∧
    (let s : State := { run with tb := { run.tb with dt := 10000000000 }, gt := vmod run.gt 0 fun k => { k with gs := .sync, first := false, gotPer := false, last := 0 } };
      deadlineDue (advanceTo 0 s) 0 = true) ∧
    (let s : State := { run with tb := { run.tb with dt := 10000000000 }, gt := vmod run.gt 0 fun k => { k with gs := .hold, holdFrom := .sync, last := 0 } };
      stallDue (advanceTo 0 s) 0 = true ∧ s.gt[0].holdFrom = .sync) ∧
    deadlineDue run 0 = false ∧ stallDue run 0 = false := by decide +kernel
theorem test_meets_ProbeCommands :
    run.conv[0].busy = false ∧ run.conv[0].failed = false ∧ run.probesOn = true ∧ (inPhase .sleep).probesOn = false ∧
    (let s : State := { run with conv := vmod run.conv 0 fun k => { k with busy := true, dis := false, tc := 0, chg := 1 }, tb := { run.tb with dt := 1600 } };
      s.conv[0].busy = true ∧ s.conv[0].dis = false ∧ 6400 * s.conv[0].chg.toNat ≤ ((advanceTo 0 s).nowEv - s.conv[0].tc).toNat) ∧
    (let s : State := { run with conv := vmod run.conv 0 fun k => { k with busy := true, dis := true, onPrb := true, topen := 100, tshort := 0, ofs := 0, t0 := 0, pair := 0 } };
      s.conv[0].dis = true ∧ (s.nowEv - s.conv[0].t0).toNat < s.conv[0].topen.toNat ∧ s.conv[0].onPrb = true ∧
      ¬ ((0 : Int) - s.conv[0].ofs.toInt < (s.conv[0].tshort.toNat : Int)) ∧ s.conv[0].pairs ≤ (s.conv[0].pair + 1).toNat ∧ s.conv[0].refBad = false ∧
      s.conv[0].prbOpen = false ∧ s.conv[0].prbShort = false ∧ s.prb[slotProbe s 0 0].inj = 0) ∧
    (let s : State := { run with conv := vmod run.conv 0 fun k => { k with busy := true, dis := true, onPrb := true, topen := 0, t0 := 0, avg := 1 } };
      s.conv[0].topen.toNat ≤ (s.nowEv - s.conv[0].t0).toNat ∧ s.conv[0].onPrb = true ∧ (s.conv[0].pair + 1).toNat < s.conv[0].pairs) ∧
    (let s : State := { keyed with prb := vmod run.prb 0 fun r => { r with done := true, res := 1 } };
      s.farrierUp = true ∧ s.prb[0].done = true ∧ s.ps.lostN = 0 ∧ s.prb[0].res ≠ 0 ∧ s.prb[0].faulty = 0 ∧ CanRecord s) ∧
    (let s : State := { run with ps := { run.ps with sched := some { measInt := 1, c0 := .ofBlk ⟨0, 0, 0, 0, 0, 0⟩, c1 := .ofBlk ⟨0, 0, 0, 0, 0, 0⟩, topen := 1000, tshort := 100 }, intv := 1, base := 0 }
                                 tb := { run.tb with dt := 1600000000 } };
      s.farrierUp = true ∧ s.ps.sched.isSome = true ∧ 0 < measPeriod s ∧ measPeriod s ≤ (s.tb.dt - s.ps.base).toNat) ∧
    (let s : State := { run with rcd := { run.rcd with decom := some (0, 7) } };
      s.rcd.decom = some (0, 7) ∧ s.farrierUp = true ∧ s.rcd.q = [] ∧ s.rcd.epochPend = none) ∧ run.rcd.decom = none := by
  simp only [CanRecord]; decide +kernel
theorem test_meets_StatusPeekHasNoEffect : run.serving = true ∧ run.pinsCut = false ∧ ([0xA0, 0] : List Byte).length ≤ 3 := by decide +kernel
theorem test_meets_HostFrames :
    run.serving = true ∧ run.pinsCut = false ∧ run.host.badNext = false ∧ run.host.stage = [] ∧ (1 ≤ 256 ∧ 0 + 256 ≤ 256) ∧
    (List.replicate 257 (0 : Byte)).length = 256 + 1 ∧ hostRegion 0x9000 4 = none ∧ (255 + ([1] : List Byte).length ≤ 256) ∧
    frameBroken [0xA0, 0, 0, 0, 1] = true ∧ knownCmd 0xA0 = true ∧
    (let s : State := { run with host := { run.host with stage := [(0x1000, [5])] } };
      s.host.stage = [(BitVec.ofNat 24 (0x1000 + 256 * 0 + 0), [5])] ∧ Memory.wf s.host.mb = true ∧ bit s.host.reqBusy 0 = false) ∧
    ((inPhase .sleep).serving = false ∧ (inPhase .sleep).pinsCut = false) ∧
    (let s : State := { run with dbg := { run.dbg with ir := 0 } }; s.pinsCut = true) := by decide +kernel
theorem test_meets_HostRegistersAndClaims :
    (let s : State := { run with far := { run.far with rstPend := true, rstMb := 0 }, host := { run.host with replyRdy := 1 } };
      s.far.rstPend = true ∧ s.far.halted = false ∧ bit (s.host.replyRdy &&& 1) s.far.rstMb.toNat = true ∧ s.pwr.phase ≠ .deep ∧ s.rsv.deepFlag = false) ∧
    run.far.rstPend = false ∧ run.farrierUp = true ∧
    (let s : State := { run with host := { run.host with hwdTo := 1, hwdAt := 0, hostLost := false, hwdAct := true }, tb := { run.tb with dt := 16000000 }, har := (har0 id).har };
      hwdDue (advanceTo 0 s) = true ∧ s.farrierUp = true ∧ s.host.hwdAct = true ∧ s.har[0].power = true ∧ s.har[0].live = true ∧
      ({ s with far := { s.far with running := false } } : State).farrierUp = false) ∧ hwdDue (advanceTo 0 run) = false ∧
    (let s : State := { run with irq := { run.irq with gateF := true } }; s.irq.gateF = true ∧ s.far.halted = false) ∧
    (let s : State := { run with irq := { run.irq with gateF := true, enF := setBit 0 194 true, latF := setBit 0 194 true } };
      ∀ j, eligF s j = decide (j = 194)) ∧
    bit run.irq.actF 3 = false := by decide +kernel

/-! ### Requests -/

/-- Requests that `run` accepts: the Farrier is up, in no other request, and not in limp mode. -/
theorem test_meets_acceptance_of_system_and_channel_requests : ∀ c ∈ ([
    .nop q0, .identity q0, .state q0, .reset q0 0xA5C3, .reset q0 0, .causeClear q0 1, .progMsg q0 1, .progMsg q0 20, .progMsg q0 0, .progMsg q0 21,
    .sleep q0 1 1 0 60, .sleep q0 2 2 1023 0, .timeGet q0, .spread q0 2, .spread q0 3, .anchor q0 0 999 3 0 0, .anchor q0 0 1000 0 0 0,
    .drift q0 0 0 500, .drift q0 1 0 100, .newEpoch q0 0xE90C, .newEpoch q0 0,
    .chOpen q0 63 0 0 0 4 0, .chClose q0 0, .chCfg q0 0 0 0 0, .chWrite q0 0 0 1 0 0, .chWrite q0 0 5 0 0 0, .chWrite q0 0 6 0 0 0,
    .chCtl q0 0 1, .chCtl q0 0 3, .chCtl q0 0 9, .chCtl q0 0 10, .chRead q0 0 0, .chRead q0 63 1, .tioSet q0 39 127 31] : List Instr), Accepted c run := by
  simp only [accepted_iff]; decide +kernel
theorem test_meets_acceptance_of_program_and_harness_requests : ∀ c ∈ ([
    .progUpload q0 0 [], .progUpload q0 81919 [1], .progUpload q0 81920 [1], .progOpen q0 0 0 512 0 0 0 0, .progClose q0 0, .progClose q0 16,
    .progDoorbell q0 0 0 0 7, .threadInfo q0 63, .headroom q0 500, .headroom q0 501, .sdWrite q0 0 0 0 [0, 0, 0, 0], .sdRead q0 0 0 0 4,
    .hOpen q0 0 2 3 0 0x00828180 0 0, .hClose q0 0, .hCfg q0 0 0 0 0 0 0, .hCfg q0 0 4 0 0 0 0, .hAct q0 0 0 0x20000000, .hStatus q0 0, .hClear q0 0 0 0,
    .hClear q0 0 0 0x00400000, .hRide q0 0 1, .gtOpen q0 0 0 (Vector.replicate 11 0), .gtTune q0 1 7 3 0 100 500, .gtClose q0 1, .gtStatus q0 0,
    .motOpen q0 0 0, .motParam q0 0 0 0 0, .motStart q0 0, .motStop q0 0 1, .axisMove q0 0 0 0, .axisHome q0 0 0 0, .motStatus q0 0] : List Instr),
    Accepted c run := by
  simp only [accepted_iff]; decide +kernel
theorem test_meets_acceptance_of_other_requests : ∀ c ∈ ([
    .prbSched q0 1 ⟨0, 0, 0, 0, 0, 0⟩ ⟨0, 0, 0, 0, 0, 0⟩ 1000 100, .prbCoef q0 15 0 0 0 0 0, .prbRead q0 15, .prbRead q0 16, .prbStop q0,
    .recRead q0 0 1 0 0, .recRead q0 1 7 0 0, .recAck q0 0 0 0, .recEvent q0 8 0 0 0, .recEvent q0 7 15 0 1, .recProvision q0 (List.replicate 32 0),
    .recDecommission q0 0xD1C0, .recStatus q0, .bOpen q0 61 1 64 2 4096 0 0, .bClose q0 61, .bSet q0 61 0 4096 0 64, .healthSum q0, .healthDet q0 1 0,
    .injOpen1 q0 0x1A550C3D, .injOpen2 q0 0, .injFire q0 6 0 0 0, .injClose q0, .calRead q0 0xFFF 1, .calRead q0 0xFFF 2, .calWrite q0 0 1 0 0xCA1B 0 [0],
    .calProc q0 1, .calProc q0 2, .tagRead q0 63, .tagWrite q0 63 1 0 (List.replicate 48 0), .tagWrite q0 63 0 0 (List.replicate 8 0)] : List Instr),
    Accepted c run := by
  simp only [accepted_iff]; decide +kernel
theorem test_meets_FarrierTakesOldestRequest :
    (inPhase .sleep).takes = false ∧ run.host.order = [] ∧
    (let s := asks 0; s.takes = true ∧ s.host.order = [BitVec.ofNat 3 0] ∧ bit s.host.reqBusy 0 = true ∧ bit s.host.taken 0 = false ∧
      memGet s.host.mb 0x1000 = 0 ∧ bit s.hlt.mbInj 0 = false ∧ payloadRange 0 = some (0, 0) ∧ stateRefuses s 0 = false ∧
      memGet s.host.mb 0x1003 = 0 ∧ memGet s.host.mb 0x1002 = 0 ∧ memLe s.host.mb 0x1004 4 = 0) ∧
    payloadRange 0x7F = none ∧ stateRefuses run 0xF1 = true ∧ (payloadRange 0xF1).isSome = true ∧ Memory.wf run.host.mb = true := by decide +kernel
theorem test_meets_FarrierRefusesRequests : request (.patchRun q0) = some (0xF1, q0) ∧ (inPhase .sleep).takes = false ∧ run.takes = true ∧
    stateRefuses run 0xF1 = true ∧ bit run.hlt.mbInj 0 = false ∧
    (let s : State := { run with hlt := { run.hlt with mbInj := 1 } }; s.takes = true ∧ bit s.hlt.mbInj 0 = true) := by decide +kernel
theorem test_meets_FarrierSystemRequests : run.probing = false ∧ sleepObstacle false run = none ∧
    sleepObstacle false (har0 fun k => { k with hstate := .run }) = some (1, 0) := by decide +kernel
theorem test_meets_FarrierTimeRequests : CanRecord keyed ∧ run.writes = false ∧ keyed.nv.epoch ≠ 0xFFFF ∧ keyed.nv.epochBad = none ∧
    keyed.nvFails 2 = false ∧ acceptedB (.newEpoch q0 0xE90C) keyed = true ∧ run.rcd.epochPend = none ∧
    (let s : State := { run with rcd := { run.rcd with epochPend := some (3, []) } }; s.rcd.epochPend ≠ none ∧ acceptedB (.newEpoch q0 0xE90C) s = true) := by
  simp only [CanRecord]; decide +kernel
theorem test_meets_FarrierChannelRequests :
    (run.lmap[63].open_ = false ∧ freeUnit run = some 0 ∧ channelWordsBad 0 0 = false ∧ basinStatus run 0 = none ∧ run.units[0].en = false ∧
      run.units[0].lock = false ∧ bit run.units[0].flags 9 = false ∧ ({ run.units[0] with prd := 4, cnt := 0 } : ChanUnit).ctrlRefused 0 = false) ∧
    (let s := unit0 id; s.lmap[0].open_ = true ∧ s.lmap[0].mig = none ∧ unitOf s 0 = some 0 ∧
      (harnessMember s 0 || channelHeld s 0 || trackerNames s 0) = false ∧ s.units[0].ctrlRefused 0 = false ∧ s.units[0].en = false) ∧
    (let s := unit0 fun k => { k with ctrl := 1 }; s.units[0].en = true ∧ unitOf s 0 = some 0 ∧ s.units[0].ctrlRefused 0 = false) ∧
    (let s : State := { unit0 id with lmap := vmod (unit0 id).lmap 0 fun m => { m with mig := some 5 } };
      s.lmap[0].open_ = true ∧ s.lmap[0].mig = some 5 ∧ unitOf s 0 = some 0 ∧ acceptedB (.chWrite q0 0 0 0 0 9) s = true) ∧
    (let s : State := { unit0 id with lmap := vmod (unit0 id).lmap 0 fun m => { m with pch := 0x7F } };
      s.lmap[0].open_ = true ∧ unitOf s 0 = none ∧ acceptedB (.chRead q0 0 1) s = true) := by decide +kernel

/-- A program image of one demand page and one thread, in flash at 512. -/
def flashImage : Mem :=
  memPut [] 512 ([0x52, 0x4E, 0x53, 0x54, 2, 0, 0, 0, 0, 4, 0, 0, 1, 0, 1, 0, 0xFF, 0xFF, 0xFF, 0xFF] ++ List.replicate 13 0 ++ [2] ++
    List.replicate 26 0 ++ [247, 160, 172, 145])

theorem test_meets_FarrierProgramRequests :
    Memory.wf run.far.staging = true ∧
    (let s : State := { run with far := { run.far with flash := flashImage } };
      (parseImage flashImage 512 (0x1000000 - 512)).any (fun g =>
        sdFits s g.sdSize && (bindStatus s 0 0 0).isNone && (match openImage 0 g flashImage 512 false 0 0 0 (markTaken 0 s) with | .inl _ => true | _ => false)) = true ∧
      freeProg s = some 0 ∧ bindStatus s 1 0 0 = some 8 ∧ acceptedB (.progOpen q0 0 0 512 0 0 0 0) s = true) ∧
    run.prog[0].open_ = false ∧
    (let s : State := { thr0 id with prog := vmod (thr0 id).prog 0 fun p => { p with tab := [{ start := 0, restart := 0, rt := false, prio := 0, load := 0, budget := 0, onOvr := false, tid := 0 }] } };
      s.prog[0].open_ = true ∧ s.prog[0].shipped = true ∧ s.har[s.prog[0].harness].mot.startMb = none ∧ (s.prog[0].tab[0]?).isSome = true ∧
      s.thr[0].st ≠ .free ∧ s.thr[0].st ≠ .stopped ∧ s.thr[0].progId = 0 ∧ s.thr[0].evq.length < 8 ∧ s.prog[0].sdSize.toNat = 64 ∧
      Memory.wf s.prog[0].sd = true ∧ s.hlt.marks = []) := by decide +kernel
theorem test_meets_FarrierHarnessRequests :
    (let r : HOpenReq := ⟨0, 7, 0, 2, 3, 0x00828180, 0, 0⟩;
      let s : State := { run with lmap := Vector.ofFn fun l : Fin 64 => { run.lmap[l] with open_ := decide (l.val < 3) } };
      hOpenFields r = true ∧ s.har[0].kind = 0 ∧ (∀ l ∈ (Harness.reset.bound r).channels, s.lmap[l].open_ = true) ∧
      harnessTaken s (Harness.reset.bound r) = false ∧ (Harness.reset.bound r).power = true ∧ s.link.cpReady = false ∧
      ∃ l ∈ (Harness.reset.bound r).channels, run.lmap[l].open_ = false) ∧
    hOpenFields ⟨0, 7, 0, 5, 0, 0, 0, 0⟩ = false ∧ run.har[0].kind = 0 ∧
    (let s := har0 id; s.har[0].kind ≠ 0 ∧ s.har[0].mot.startMb = none ∧ harnessHeld s 0 = false ∧ s.har[0].hstate = .idle ∧
      harOutOfRange 0x14 0 = true ∧ harOutOfRange 0x14 0x00280000 = false ∧ (s.har[0].flt &&& (0x06000000 : W32)) = 0 ∧ (∀ m : Fin 4, isgOf s 0 m.val = 0) ∧
      s.har[0].power = true ∧ s.har[0].kind ≠ 1 ∧ s.tripped = false) ∧
    (har0 fun k => { k with kind := 3 }).har[0].power = false ∧
    (let s := har0 fun k => { k with mot := { k.mot with startMb := some (0, 7) } }; s.har[0].kind ≠ 0 ∧ s.har[0].mot.startMb ≠ none) := by decide +kernel
theorem test_meets_FarrierProbeAndRecordRequests :
    blkOk ⟨0, 0, 0, 0, 0, 0⟩ = true ∧ (blkUnready ⟨0, 0, 0, 0, 0, 0⟩ 0 run || blkUnready ⟨0, 0, 0, 0, 0, 0⟩ 1 run) = false ∧ run.writes = false ∧
    (let e : Entry := { mkEntry 8 0 0 0 0 0 with epoch := 1, seq := 5 };
      let s : State := { keyed with rcd := { keyed.rcd with q := [e], rateStep := 0 } };
      s.rcd.q = [] ++ e :: [] ∧ e.epoch = 1 ∧ e.seq = 5 ∧ s.rcd.enabled = true ∧ s.nv.key ≠ none ∧ s.rcd.decom = none ∧ CanRecord s ∧
      acceptedB (.recAck q0 1 0 5) s = true ∧ acceptedB (.recRead q0 1 1 1 5) s = true ∧ acceptedB (.recDecommission q0 0xD1C0) s = true) ∧
    run.rcd.decom = none ∧ run.nv.key = none ∧ run.nv.keyBad = none ∧ run.nv.epoch ≠ 0xFFFF ∧ run.nv.epochBad = none ∧
    run.rcd.epochPend = none ∧ run.nvFails 3 = false ∧ run.nvFails 2 = false ∧ ({ run with nv := { run.nv with worn := 8 } } : State).nvFails 3 = true := by
  simp only [CanRecord]; decide +kernel
theorem test_meets_FarrierGaitAndMotionRequests :
    gtFields (Vector.replicate 11 0) = false ∧ run.gt[0].en = false ∧
    (let w : Vector W32 11 := (((Vector.replicate 11 0).set 2 0x006401F4).set 3 100).set 6 0x000201F4; gtFields w = true ∧ gtNames w = [0] ∧
      (unit0 id).lmap[0].open_ = true ∧ run.lmap[0].open_ = false ∧ (unit0 id).lmap[0].mig = none ∧ bit w[0] 0 = false ∧
      (unit0 id).units[0].ctrlRefused (wheelCtrl (unit0 id).units[0].ctrl false) = false ∧ ((unit0 id).units[0].ctrl &&& ~~~ctrlMask) = 0) ∧
    (let s : State := { run with gt := vmod run.gt 0 fun k => { k with gs := .sync, cfg := ((Vector.replicate 11 0).set 0 1).set 2 0x006401F4 } };
      s.gt[0].en = true ∧ noiseOk s.gt[0] 100 500 = true) ∧
    run.har[0].kind = 0 ∧ (har0 id).har[0].kind = 2 ∧ (har0 id).har[0].mot.prog = .none ∧
    (let s := har0 fun k => { k with mot := { k.mot with prog := .bridge, st := 0 } };
      harnessHeld s 0 = false ∧ s.har[0].mot.idle = true ∧ s.har[0].live = true ∧ paramRange true 0 ≠ none) ∧
    (let s := har0 fun k => { k with kind := 3, mot := { k.mot with prog := .axis, st := 0, armed := false } };
      s.har[0].kind ≠ 0 ∧ s.har[0].mot.prog = .axis ∧ s.har[0].live = true ∧ s.har[0].mot.st = 0 ∧ s.har[0].mot.armed = false ∧ s.har[0].mot.duty.toNat % 100 = 0) ∧
    (let s := har0 id; (harnessHeld s 0 || s.har[0].channels.any (channelHeld s)) = false ∧ (∀ l ∈ s.har[0].channels, s.lmap[l].mig = none) ∧
      freeProg s = some 0) := by decide +kernel
theorem test_meets_FarrierBasinHealthAndInjection :
    run.bas[61].open_ = false ∧ floorsHeld run + 1 ≤ 256 ∧ 1 + 4 ≤ run.poolFree ∧
    (let s : State := { run with bas := vmod run.bas 61 fun k => { k with open_ := true, floor := 1, ring := [4] } };
      s.bas[61].open_ = true ∧ (∀ x : Tid, s.thr[x].stallOn ≠ .post) ∧ (basinHeld s 61 || basinNamed s 61) = false ∧ s.bas[61].floor.toNat ≤ 64) ∧
    (let s : State := { run with far := { run.far with nonce := some (5, 0), injOpen := true } };
      s.far.nonce = some (5, 0) ∧ (s.tb.dt - 0).toNat ≤ 160000000 ∧ s.far.injOpen = true ∧ unitMigrates s 0 = false ∧
      (inject 6 0 0 (markTaken 0 s)).isSome = true ∧ inject 0 0 0 (markTaken 0 s) = none) ∧
    (let s : State := { unit0 id with lmap := vmod (unit0 id).lmap 0 fun m => { m with mig := some 5 } }; unitMigrates s 0 = true) ∧
    run.far.injOpen = false ∧ detIndices 1 = 8 ∧ run.hlt.det.find? (fun d => d.cls == 1 && d.idx == 0) = none := by decide +kernel
theorem test_meets_FarrierCalibrationTagAndBootRequests :
    Memory.wf run.nv.cal = true ∧ run.nv.calBad = none ∧ run.far.calProc = none ∧ settingsOk (memPut run.nv.cal 0 [0]) 0 1 = true ∧
    settingsOk (memPut run.nv.cal 0x58 [0]) 0x58 1 = false ∧ calProcReady run 1 = false ∧ calProcReady run 2 = true ∧
    (let s : State := { run with far := { run.far with calProc := some (2, BitVec.ofNat 3 0, 7) } };
      s.far.calProc = some (2, BitVec.ofNat 3 0, 7) ∧ s.farrierUp = true ∧ resultsOk 2 0 0 0 = true ∧ resultsOk 2 500001 0 0 = false) ∧
    bit run.nv.tagBad 63 = false ∧ run.nvFails 0 = false ∧ run.nvFails 1 = false ∧ run.writes = false ∧ Memory.wf run.nv.tags = true ∧ trimsOk (List.replicate 8 0) = true ∧ trimsOk [0, 2, 0, 0, 0, 0, 0, 0] = false ∧
    (let head : List Byte := [0x46, 0x50, 0x43, 0x48, 2, 3, 1, 0, 4, 0, 0, 0, 0, 0, 4, 0, 0, 0, 4, 0] ++ le4 (crc32 [0, 0, 0, 0]) ++ [0, 0, 0, 0];
      let s : State := { inPhase .bootWait with far := { run.far with running := true, patchBuf := memPut [] 0 (head ++ le4 (crc32 head)) } };
      (patchCheck s.far.patchBuf).isSome = true ∧ acceptedB (.patchRun q0) s = true ∧ acceptedB (.bootContinue q0) s = true ∧
      acceptedB (.patchData q0 65567 [1]) s = true ∧ patchCheck run.far.patchBuf = none) := by decide +kernel
theorem test_meets_FarrierCalibration_offset : let s : State := { run with nv := { run.nv with cal := memPut run.nv.cal 0x14 ([0, 0, 0, 0, 0, 0, 0, 0, 1] ++ List.replicate 7 0) } };
    memLe s.nv.cal 0x1C 4 + memLe s.nv.cal 0x14 4 ≠ memLe s.nv.cal 0x20 4 + memLe s.nv.cal 0x14 4 ∧
    ((12 : W32).toNat : Int) = ((memLe s.nv.cal 0x1C 4 + memLe s.nv.cal 0x14 4 : Nat) : Int) * (7 : Nat) + 5 ∧
    ((5 : W32).toNat : Int) = ((memLe s.nv.cal 0x20 4 + memLe s.nv.cal 0x14 4 : Nat) : Int) * (7 : Nat) + 5 := by decide +kernel
/-- `run` one millisecond of DT later. -/
def later (s : State) : State := { s with tb := { s.tb with dt := 1600000 } }

theorem test_meets_MusterRepairsTheTable :
    (let s := later run; let a := advanceTo 0 s; s.farrierUp = true ∧ s.inRequest = false ∧ s.far.musterMs < a.msNow ∧ (∀ l : Lch, a.far.tabCh[l] = hwCh a l) ∧
      (∀ h : HarnessId, a.far.tabHar[h] = hwHar a h) ∧ (∀ t : Tid, a.far.tabThr[t] = hwThr a t) ∧ (∀ b : BasinId, a.far.tabBas[b] = hwBas a b) ∧
      a.host.hwdPost = none ∧ a.rcd.due = [] ∧ ∀ n : Fin 2, a.gt[n].rearm = false) ∧
    (let a := advanceTo 0 (later (unit0 id)); a.lmap[0].mig = none ∧ a.far.tabCh[0] ≠ hwCh a 0 ∧ (hwCh a 0).held = true ∧
      ∀ j : Lch, j ≠ 0 → a.far.tabCh[j] = hwCh a j) ∧
    (inPhase .sleep).farrierUp = false ∧ (advanceTo 0 run).msNow ≤ run.far.musterMs := by decide +kernel

/-! ### Engine instructions -/

/-- An operand word of an engine instruction: rd = 2, ra = 1, rb = 1, with a k and a sub field. -/
def sops (k sub : BitVec 6) (x : Bool) : SOps := ⟨2, 1, 1, sub, x, false, k⟩

/-- `thr0` whose thread has the value v in register 1. -/
def r1 (v : W64) : State := thr0 fun k => { k with ctx := k.ctx.setG 1 v }

theorem test_meets_EngineArithmetic : Issues 0 [1, 1] (r1 0) ∧ Issues 0 [1] (r1 0) ∧ Issues 0 [] (r1 0) ∧ reg (r1 0) 0 1 = 0 ∧ Issues 0 [1, 1] (r1 64) ∧
    reg (r1 64) 0 1 = 64 ∧ Issues 63 [] { thr0 id with thr := vmod (thr0 id).thr 63 fun _ => (thr0 id).thr[0] } := by
  simp only [issues_iff]; decide +kernel
theorem test_meets_EngineMemory :
    (Issues 0 [1, 1] (r1 0x3F8) ∧ Issues 0 [1] (r1 0x3F8) ∧ reg (r1 0x3F8) 0 1 = 0x3F8) ∧
    (Issues 0 [1, 1] (r1 0x3F9) ∧ reg (r1 0x3F9) 0 1 = 0x3F9) ∧
    (Issues 0 [1, 1] (r1 0x400) ∧ reg (r1 0x400) 0 1 = 0x400) ∧
    (Issues 0 [1, 1] (r1 0x10038) ∧ reg (r1 0x10038) 0 1 = 0x10038) ∧
    (Issues 0 [1, 1] (r1 0x10039) ∧ reg (r1 0x10039) 0 1 = 0x10039) ∧
    (Issues 0 [1, 1] (r1 0x10040) ∧ reg (r1 0x10040) 0 1 = 0x10040) ∧
    watchpoint (r1 0x3F8) 0 0x3F8 true true = none ∧ watchpoint (r1 0x10038) 0 0x10038 true true = none ∧ (r1 0).hlt.marks = [] ∧
    (r1 0).prog[0].sdSize.toNat = 64 ∧ Memory.wf (r1 0).prog[0].sd = true ∧ Memory.wf (r1 0).thr[0].ctx.tlm = true := by
  simp only [issues_iff]; decide +kernel
theorem test_meets_EngineControl :
    Issues 0 [] (thr0 id) ∧ Issues 0 [1] (r1 127) ∧ (reg (r1 127) 0 1).toNat < codeEnd (r1 127).prog[0] ∧ codeEnd (r1 524288).prog[0] ≤ (reg (r1 524288) 0 1).toNat ∧
    Issues 0 [1] (r1 524288) ∧ Plain (sops 0 0 false) [0] ∧ (2 : BitVec 4).toNat % 2 = 0 ∧ (thr0 id).thr[0].ctx.pc.toNat + 1 < codeEnd (thr0 id).prog[0] ∧
    (let s := thr0 fun k => { k with evq := [⟨4, 0, 0, 7, 0⟩] }; Issues 0 [] s ∧ s.thr[0].evq = ⟨4, 0, 0, 7, 0⟩ :: []) ∧ (thr0 id).thr[0].evq = [] := by
  simp only [issues_iff, Plain]; decide +kernel
theorem test_meets_EngineEventsAndMessages :
    Plain (sops 1 1 false) [0, 1] ∧ ¬ Plain (sops 1 1 true) [0, 1] ∧ Plain (sops 61 3 false) [2, 3] ∧
    (let s : State := { r1 1 with bas := vmod run.bas 61 fun k => { k with open_ := true } }; Issues 0 [1, 1] s ∧ Issues 0 [1] s ∧ Issues 0 [] s ∧ MyBasin s 0 61) ∧
    ¬ MyBasin (r1 1) 0 61 ∧ (r1 1).far.msgs.length < 64 ∧ ¬ StaysInPage 0 (thr0 fun k => { k with ctx := { k.ctx with pc := 127 } }) ∧ StaysInPage 0 (r1 1) ∧
    (let s : State := { r1 1 with far := { run.far with running := true, msgs := List.replicate 64 (0, 0, 0) } }; Issues 0 [1] s ∧ 64 ≤ s.far.msgs.length) ∧
    (let s : State := { r1 1 with thr := vmod (r1 1).thr 1 fun k => { k with st := .wait, evq := [], waitRd := 2, prog := 0 } };
      Issues 0 [1, 1] s ∧ (reg s 0 1).toNat % 64 = 1 ∧ s.thr[1].st = .wait ∧ s.thr[1].prog = s.thr[0].prog ∧ s.thr[1].evq = [] ∧ s.thr[1].waitRd ≠ 0 ∧ s.thr[1].waitRd ≠ 15) ∧
    (let s : State := { r1 1 with thr := vmod (r1 1).thr 1 fun k => { k with st := .ready, evq := List.replicate 8 ⟨4, 0, 0, 7, 0⟩, prog := 0 } };
      Issues 0 [1, 1] s ∧ s.thr[1].st ≠ .free ∧ 8 ≤ s.thr[1].evq.length) ∧ (r1 1).thr[1].st = .free := by
  simp only [issues_iff, Plain, MyBasin, StaysInPage]; decide +kernel

/-- `r1` with channel 0 open and unit 0 holding it. -/
def chan0 (v : W64) (f : ChanUnit → ChanUnit) : State :=
  { r1 v with units := (unit0 f).units, lmap := (unit0 f).lmap }

theorem test_meets_EngineChannels :
    (let s := chan0 0 fun k => { k with ctrl := 1 }; Issues 0 [1] s ∧ Issues 0 [1, 1] s ∧ Issues 0 [] s ∧ MyChannel s 0 0 ∧ s.lmap[0].mig = none ∧ unitOf s 0 = some 0 ∧
      named s 0 (sops 0 0 false) = 0 ∧ named s 0 (sops 5 0 true) = 0 ∧ (s.units[0].held && gateLine s s.units[0].lchId) = false ∧
      s.units[0].ctrlRefused (setBit s.units[0].ctrl 6 true &&& ctrlMask) = false ∧ s.lmap[0].mir.fresh = 0) ∧
    (let s : State := { chan0 0 id with lmap := vmod (chan0 0 id).lmap 0 fun m => { m with mig := some 5, mir := { m.mir with fresh := 15 } } };
      Issues 0 [1] s ∧ MyChannel s 0 0 ∧ s.lmap[0].mig ≠ none ∧ bit s.lmap[0].mir.fresh 3 = true) ∧
    PlainX (sops 0 0 true) [0, 1] ∧ PlainX (sops 0 2 false) [0, 1, 2] ∧ PlainX (sops 0 3 false) [3] ∧ ¬ PlainX (sops 0 4 false) [0, 1, 2, 3] ∧ ¬ MyChannel (r1 0) 0 0 ∧
    (let s : State := { r1 0x20000000 with har := (har0 id).har }; Issues 0 [1] s ∧ s.har[0].kind ≠ 0 ∧ bit s.prog[0].hMask 0 = true ∧
      (reg s 0 1).truncate 32 = (0x20000000 : W32)) ∧
    actionValid 2 0 = false ∧ (r1 0).har[0].kind = 0 := by
  simp only [issues_iff, MyChannel, PlainX]; decide +kernel
theorem test_meets_EngineChannels_clear : Clear 0 0 (chan0 0 id) ∧ crossing (chan0 0 id) 0 = [] ∧
    ¬ Clear 0 0 { chan0 0 id with arm := { run.arm with at_ := run.now, top := [(0, 0, 0)] } } := by
  have h : (chan0 0 id).arm.top = [] := by decide +kernel
  exact ⟨⟨by decide +kernel, fun _ => by rw [h]; exact nofun⟩, by decide +kernel,
    fun c => c.2 (by decide +kernel) (0, 0, 0) (List.mem_singleton.2 rfl) rfl⟩
theorem test_meets_EngineBasinsSpillwayAngles :
    (let s : State := { r1 (0x80#8 ++ 0#48).toNat with bas := vmod run.bas 61 fun k => { k with open_ := true, ring := [4], wrCnt := 3, rdCnt := 1, ovf := false, ceil := 1 } };
      Issues 0 [1, 1] s ∧ MyBasin s 0 61 ∧ (fld (reg s 0 1) 48 8 : Byte) = 0x80 ∧ (reg s 0 1).toNat < 2 ^ 56 ∧ s.bas[61].wrCnt.toNat % 64 ≠ 0 ∧
      (∀ t : Tid, bit s.thr[t].subB 61 = false ∧ s.thr[t].stallOn ≠ .post) ∧ Memory.wf s.bmem = true ∧ s.bas[61].rdCnt ≠ s.bas[61].wrCnt ∧ s.hlt.marks = [] ∧
      s.bas[61].occ < ((reg s 0 1).truncate 32 : W32).toNat + 3 ∧ (0 : W32).toNat ≤ s.bas[61].occ) ∧
    (∀ p ∈ ([0, 1, 2] : List (BitVec 2)), let s : State := { r1 (0x80#8 ++ 0#48).toNat with
        bas := vmod run.bas 61 fun k => { k with open_ := true, ring := [4], wrCnt := 64, rdCnt := 1, ceil := 1, policy := p } };
      Issues 0 [1, 1] s ∧ MyBasin s 0 61 ∧ s.bas[61].wrCnt.toNat % 64 = 0 ∧ s.bas[61].nextUnread = true ∧ s.bas[61].ceil.toNat ≤ s.bas[61].ring.length ∧
      s.bas[61].policy = p ∧ s.thr[0].ctx.pc.toNat + 1 < codeEnd s.prog[s.thr[0].progId]) ∧
    (let s : State := { chan0 0 fun k => { k with ctrl := 1 } with thr := vmod (r1 0x3E8).thr 0 fun k => { k with ctx := { k.ctx with tlm := memPut [] 0x3F4 [0, 0, 0, 0, 0, 0x10] } } };
      Issues 0 [1] s ∧ reg s 0 1 = 0x3E8 ∧ (let im := imageEnt (memBytes s.thr[0].ctx.tlm 0x3E8 24); spwRefusal s 0 im.1 im.2 = none ∧ im.1.armable s = true) ∧
      s.spw.ent[0].valid = false ∧ s.spw.confGrp = [] ∧ watchpoint s 0 0x3E8 true false = none) ∧
    (let im := imageEnt (List.replicate 24 0); spwRefusal (r1 0) 0 im.1 im.2 = some 2) ∧
    (let s : State := { r1 0x105 with spw := { run.spw with ent := vmod run.spw.ent 5 fun e => { e with valid := true, gen := 1, ckind := 3, expiry := 5, owner := 0 } } };
      Issues 0 [1] s ∧ MyEntry s 0 0x105 5 ∧ (reg s 0 1).truncate 16 = (0x105 : W16) ∧ s.spw.ent[5].trel = false) ∧
    (let s : State := { r1 100 with gt := vmod run.gt 1 fun k => { k with gs := .sync, gotPer := true, gotTooth := true, per := 100000, win := [5], cfg := k.cfg.set 0 0x003C0001 } };
      Issues 0 [1, 1] s ∧ (reg s 0 1).toNat < 36000 / max 1 s.gt[1].nt * s.gt[1].cycle ∧ s.gt[1].win[0]? = some 5) ∧
    (∀ i, ¬ MyEntry (r1 0) 0 0 i) := by
  have h : ∀ i, ¬ MyEntry (r1 0) 0 0 i := by
    intro i hi
    have hv : ∀ i : Fin 256, (r1 0).spw.ent[i].valid = false := by decide +kernel
    exact absurd hi.2.1 (by rw [hv i]; decide)
  refine ⟨?_, ?_, ?_, ?_, ?_, ?_, h⟩ <;> simp only [issues_iff, MyBasin, MyEntry] <;> decide +kernel

/-! ### Health, debug and the whole block -/

theorem test_meets_HealthCommands :
    (inPhase .sleep).farrierUp = false ∧ run.hlt.marks = [] ∧ run.hlt.corr = [] ∧ run.cal.corrThr ≠ 1 ∧
    (let s : State := { run with frm := vmod run.frm 5 fun f => { f with used := true, valid := true } }; s.frm[5].used = true ∧ s.frm[5].valid = true) ∧
    (let s : State := { run with frm := vmod run.frm 5 fun f => { f with used := true, repair := true, prog := 2, page := 0, tries := 1 } };
      s.frm[5].used = true ∧ s.frm[5].repair = true ∧ s.ost.fillQ = [] ∧ s.frm[5].tries ≠ 0 ∧
      crc32 (([] : List W32).flatMap fun w => leBytes 4 w.toNat) = s.prog[2].pcrc.getD 0 0) ∧
    (let a := advanceTo 0 run; dieTemp a 0 0 < 10 * run.cal.tempWarn.toNat ∧ dieTemp a 1 0 < 10 * run.cal.tempWarn.toNat ∧ dieTemp a 0 0 < 10 * run.cal.tempShut.toNat ∧
      (10 * run.cal.tempShut.toNat : Int) ≤ dieTemp a 0 2047 ∧ run.hlt.tempTrip = false ∧ run.hlt.vbatTrip = false ∧ run.hlt.monTrip = 0 ∧
      (∀ i : Fin 5, supplyInjected a i = false) ∧ tripShown run 0x0B 0 = false) ∧
    (unitChecked (advanceTo 0 run) 0 = true ∧ run.units[0].held = false ∧ run.units[0].ust ≠ .retired ∧ reservedFor (advanceTo 0 run) 0 = none) ∧
    (let s : State := unit0 id; s.units[0].held = true ∧ gateLine s s.units[0].lchId = false ∧ s.units[67].ust = .free) ∧
    (let s : State := { unit0 id with lmap := vmod (unit0 id).lmap 0 fun m => { m with mig := some 5, migTo := 67, heldW := [] } };
      (advanceTo 0 s).rootRuns = true ∧ s.lmap[0].mig = some 5 ∧ unitOf s 0 = some 0 ∧ s.lmap[0].migTo.toNat = 67) ∧
    run.conv[1].failed = false ∧ run.far.injOpen = false ∧ (1 : Byte) < run.cal.corrThr := by decide +kernel
theorem test_meets_DebugPort :
    (inPhase .deep).tapOn = false ∧ run.tapOn = true ∧ run.pinsCut = false ∧ run.tb.gapDue = [] ∧ run.rcd.due = [] ∧ run.link.cpOpen = none ∧ run.link.cfgReply = none ∧ run.fsh.dbgLock = true ∧ (let s : State := { run with fsh := { run.fsh with dbgLock := false } }; s.tapOn = true ∧ s.fsh.dbgLock = false) ∧ run.dbg.memBusy = false ∧ run.sysOn = true ∧
    (let s : State := { run with dbg := { run.dbg with memBusy := true, memAddr := 0x42000008 } };
      s.dbg.memBusy = true ∧ (busPeek s s.dbg.memAddr).isSome = true ∧ s.dbg.memWr = false) ∧
    (let s : State := { run with far := { run.far with halted := true }, dbg := { run.dbg with fuseBusy := true, fuseIdx := 16 },
                                 eng := run.eng.map fun e => { e with halted := true } };
      s.far.halted = true ∧ s.dbg.fuseBusy = true ∧ s.pwr.phase = .run ∧ s.dbg.walkDone = false ∧ (∀ e : EngineId, s.eng[e].halted = true)) ∧
    (inPhase .walk).pwr.phase = .walk ∧
    (let s : State := thr0 fun k => { k with st := .halt, waiting := false }; s.thr[0].st = .halt ∧ s.engClock = true ∧ s.thr[0].waiting = false ∧
      s.eng[slotEng s.thr[0].slot].halted = false) ∧
    (let s : State := { thr0 fun k => { k with st := .halt, waiting := false } with
        frm := vmod run.frm 0 fun f => { f with used := true, valid := true, prog := 0, page := 0, words := [0x099BFFFF] } };
      s.thr[0].st = .halt ∧ wordAt s 0 = some 0x099BFFFF ∧ decodeGroom 0 0x099BFFFF = some (.addi 0 ⟨6, 6, 0x3FFFF⟩)) := by decide +kernel
theorem test_meets_GroomWordsRoundTrip : groomTid (.addi 0 ⟨6, 6, 0x3FFFF⟩) = some 0 ∧ (Instr.addi 0 ⟨6, 6, 0x3FFFF⟩).wf = true ∧
    groomWord (.addi 0 ⟨6, 6, 0x3FFFF⟩) = some 0x099BFFFF := by decide +kernel
theorem test_meets_EveryStepKeepsMemoriesCanonical : State.memWf run = true ∧ ∃ t, step { run with pending := [.hostLostClear] } = .next t :=
  ⟨by decide +kernel, _, rfl⟩
theorem test_meets_LinkCrcIsCrc8 : ∃ bitStep : Byte → Byte, ∀ c, bitStep c = if c.msb then (c <<< 1) ^^^ 0x1D else c <<< 1 := ⟨_, fun _ => rfl⟩

end Sys2Proof.Tests
end

section
/-! SUPPORT. Event time as bits, and the half circle behind now on which compare values are passed (02_time.md R25). -/

namespace Sys2Proof.Machine

/-! ### Fields of two joined words -/

@[simp] theorem fld_append_high {m n : Nat} (x : BitVec m) (y : BitVec n) : fld (x ++ y) n m = x :=
  BitVec.extractLsb'_append_eq_left

@[simp] theorem fld_append_low {m n : Nat} (x : BitVec m) (y : BitVec n) : fld (x ++ y) 0 n = y :=
  BitVec.extractLsb'_append_eq_right

/-! ### Event time -/

/-- The truncation of the instant to 48 bits cuts DT alone: both fine bits stay. -/
theorem nowEv_eq_append (s : State) : s.nowEv = fld s.tb.dt 0 46 ++ fld s.tb.frac 30 2 := by
  have hlow : s.tb.dt.setWidth 46 = fld s.tb.dt 0 46 := BitVec.setWidth_eq_extractLsb' (by decide)
  calc s.nowEv
    _ = (s.tb.dt ++ fld s.tb.frac 30 2).setWidth (46 + 2) := rfl
    _ = s.tb.dt.setWidth 46 ++ (fld s.tb.frac 30 2).setWidth 2 := BitVec.setWidth_append_of_eq rfl
    _ = fld s.tb.dt 0 46 ++ fld s.tb.frac 30 2 := by rw [hlow, BitVec.setWidth_eq]

theorem fld_nowEv_ticks (s : State) : fld s.nowEv 2 46 = fld s.tb.dt 0 46 := by
  rw [nowEv_eq_append, fld_append_high]

theorem fld_nowEv_fine (s : State) : fld s.nowEv 0 2 = fld s.tb.frac 30 2 := by
  rw [nowEv_eq_append, fld_append_low]

/-! ### The passed test -/

/-- The distance on the event-time circle, where a value ahead of now lies almost a whole turn behind it. -/
theorem toNat_evTime_sub (now c : EvTime) : (now - c).toNat = (now.toNat + 2 ^ 48 - c.toNat) % 2 ^ 48 := by
  rw [BitVec.toNat_sub', ← Nat.add_sub_assoc c.isLt.le]

theorem passed_iff (now c : EvTime) : passed now c = true ↔ (now.toNat + 2 ^ 48 - c.toNat) % 2 ^ 48 < 2 ^ 47 := by
  rw [← toNat_evTime_sub]
  exact decide_eq_true_iff

/-- A value equal to now lies at distance 0. -/
theorem passed_self (now : EvTime) : passed now now = true := by
  rw [passed_iff, Nat.add_sub_cancel_left]
  decide

/-- Settles O15: event time is a join of DT's low bits and the fine bits, and `passed` bounds the distance behind now
on the circle. -/
theorem eventTimeOrder : Obligations.EventTimeOrder :=
  ⟨fun s => ⟨fld_nowEv_ticks s, fld_nowEv_fine s⟩, passed_iff, passed_self⟩

end Sys2Proof.Machine
end

section
/-! SUPPORT. The link's CRC-8, byte by byte (13_host_link.md R289). -/

namespace Sys2Proof.Machine

theorem crc8Bit_eq_ite_msb (c : Byte) : crc8Bit c = if c.msb then (c <<< 1) ^^^ 0x1D else c <<< 1 := by
  rw [BitVec.msb_eq_getLsbD_last, ← cond_eq_ite]
  rfl

/-- A byte enters the register by XOR, and its eight bits then leave it one by one. -/
theorem crc8Byte_eq_repeat (c b : Byte) : crc8Byte c b = Nat.repeat crc8Bit 8 (c ^^^ b) := rfl

/-- The CRC before its final XOR is the register the bytes have passed through. -/
theorem crc8_xor_final (l : List Byte) : crc8 l ^^^ 0xFF = l.foldl crc8Byte 0xFF := by
  change (l.foldl crc8Byte 0xFF ^^^ 0xFF) ^^^ 0xFF = _
  rw [BitVec.xor_assoc, BitVec.xor_self, BitVec.xor_zero]

theorem crc8_concat (l : List Byte) (b : Byte) : crc8 (l ++ [b]) = crc8Byte (crc8 l ^^^ 0xFF) b ^^^ 0xFF := by
  rw [crc8_xor_final, ← List.foldl_concat crc8Byte]
  rfl

/-- Settles O16: a byte at the end of the string passes through the register the bytes before it have left. -/
theorem linkCrcIsCrc8 : Obligations.LinkCrcIsCrc8 := by
  refine ⟨rfl, fun l b bitStep hstep => ?_, by decide +kernel⟩
  have hbit : bitStep = crc8Bit := funext fun c => (hstep c).trans (crc8Bit_eq_ite_msb c).symm
  rw [hbit, ← crc8Byte_eq_repeat, crc8_concat]

end Sys2Proof.Machine
end

section
/-! SUPPORT. Frames that CSN ends after at most 3 bytes (13_host_link.md R291). -/

namespace Sys2Proof.Machine

variable {l : List Byte} {bad : Bool} {s : State}

/-- A frame that ends within the status word and its CRC is answered by their leading bytes, with no padding. -/
theorem sdoBytes_of_le {snap : W16} {n : Nat} (hn : n ≤ 3) :
    sdoBytes snap n 3 [] = ([fld snap 8 8, fld snap 0 8] ++ [crc8 [fld snap 8 8, fld snap 0 8]]).take n := by
  have hpad : n - 3 = 0 := Nat.sub_eq_zero_of_le hn
  simp [sdoBytes, hpad]

/-- The length is tested before anything else of the frame, so neither its CRC nor a due injection matters. -/
theorem serveFrame_of_length_le (hcut : s.pinsCut = false) (hserving : s.serving = true) (hlen : l.length ≤ 3) :
    serveFrame l bad s = answer (statusWord s) l 3 []
      { s with host := { s.host with snapElig := s.irq.gateH && (winnerH s).isSome } } := by
  simp [serveFrame, hcut, hserving, hlen]

/-- Every frame command clocks its bytes through the link; a status peek clocks no more than 3. -/
theorem exec_frame_of_length_le {c : Instr} (hlen : l.length ≤ 3)
    (hc : c ∈ [.statusPeek l, .statusFrame l bad, .readFrame l bad, .writeFrame l bad, .claimFrame l bad,
      .completeFrame l bad, .doorbellFrame l bad]) :
    ∃ bad', exec c s = .next (serveFrame l bad' s) := by
  simp only [List.mem_cons, List.not_mem_nil, or_false] at hc
  obtain rfl | rfl | rfl | rfl | rfl | rfl | rfl := hc
  · refine ⟨false, ?_⟩
    rw [exec_statusPeek, execStatusPeek, List.take_of_length_le hlen]
  · exact ⟨bad, exec_statusFrame l bad s⟩
  · exact ⟨bad, exec_readFrame l bad s⟩
  · exact ⟨bad, exec_writeFrame l bad s⟩
  · exact ⟨bad, exec_claimFrame l bad s⟩
  · exact ⟨bad, exec_completeFrame l bad s⟩
  · exact ⟨bad, exec_doorbellFrame l bad s⟩

/-- Settles O35: whatever its command, a short frame is a peek, whose answer writes the output bytes and the snapshot
alone. -/
theorem statusPeekHasNoEffect : Obligations.StatusPeekHasNoEffect := by
  intro l bad c s hcut hserving hlen hc
  obtain ⟨bad', hexec⟩ := exec_frame_of_length_le hlen hc
  rw [hexec, serveFrame_of_length_le hcut hserving hlen, answer, sdoBytes_of_le hlen]

end Sys2Proof.Machine
end
